-- ==== Sys2Proof/Word.lean ====
section
/-! DEFINITION. The word types of the D81 (R72, R75), and tables: lists of (number, value) pairs with
rising numbers, the one form in which every sparse part of the state is held. -/

namespace Sys2Proof

/-- One instruction word or one lane register (R72, R75). -/
abbrev Word := BitVec 32
/-- One uniform register (R75). -/
abbrev DWord := BitVec 64
/-- A virtual, on-chip map or fabric address as it stands in a record or a program counter (R186, R193). -/
abbrev Addr := BitVec 64
/-- A set of lanes of one warp, bit n for lane n (R14). -/
abbrev LaneMask := BitVec 32
/-- A set of slices of one warp (R14). -/
abbrev SliceMask := BitVec 8
/-- The value of a lane register in all 32 lanes, lane 0 first; a lane past the end reads as 0. -/
abbrev Lanes := List Word

/-- A sparse table: pairs of a number and a value, the numbers rising. -/
abbrev Tab (α : Type) := List (Nat × α)

/-- The value a table lists for a number. -/
def Tab.lookup {α : Type} (k : Nat) : Tab α → Option α
  | [] => none
  | (j, v) :: t => if k = j then some v else Tab.lookup k t

/-- List a value for a number, in the place its number gives it. -/
def Tab.put {α : Type} (k : Nat) (v : α) : Tab α → Tab α
  | [] => [(k, v)]
  | (j, u) :: t =>
    if k < j then (k, v) :: (j, u) :: t
    else if k = j then (k, v) :: t
    else (j, u) :: Tab.put k v t

/-- List nothing for a number any more. -/
def Tab.erase {α : Type} (k : Nat) : Tab α → Tab α
  | [] => []
  | (j, u) :: t => if k = j then Tab.erase k t else (j, u) :: Tab.erase k t

/-- The value of a table whose unlisted numbers read as `d`. -/
def Tab.get {α : Type} (d : α) (t : Tab α) (k : Nat) : α :=
  match Tab.lookup k t with
  | some v => v
  | none => d

/-- Write a table whose unlisted numbers read as `d`: writing `d` unlists the number. -/
def Tab.set {α : Type} [DecidableEq α] (d : α) (t : Tab α) (k : Nat) (v : α) : Tab α :=
  if v = d then Tab.erase k t else Tab.put k v t

/-- The numbers of a table rise strictly. -/
def Tab.sorted {α : Type} : Tab α → Bool
  | [] => true
  | [_] => true
  | (i, _) :: (j, v) :: t => decide (i < j) && Tab.sorted ((j, v) :: t)

/-- No entry of a table equals what an unlisted number reads as. -/
def Tab.noneIs {α : Type} [DecidableEq α] (d : α) (t : Tab α) : Bool :=
  t.all fun e => decide (e.2 ≠ d)

/-- The values of a table with their numbers changed by a function of number and value. -/
def Tab.mapVals {α β : Type} (f : Nat → α → β) (t : Tab α) : Tab β :=
  t.map fun e => (e.1, f e.1 e.2)

/-- The value of one lane. -/
def Lanes.get (v : Lanes) (n : Nat) : Word := v.getD n 0

/-- A lane register given lane by lane. -/
def Lanes.ofFn (f : Nat → Word) : Lanes := (List.range 32).map f

/-- The lane register that is zero in every lane. -/
def Lanes.zero : Lanes := List.replicate 32 0

/-- The numbers below 32 whose bit is set in a lane mask, rising. -/
def laneList (m : LaneMask) : List Nat := (List.range 32).filter fun n => m.getLsbD n

/-- The lane mask whose bit n is `f n`. -/
def maskOf (f : Nat → Bool) : LaneMask :=
  (List.range 32).foldl (fun m n => if f n then m ||| BitVec.ofNat 32 (2 ^ n) else m) 0

/-- The number of set bits. -/
def popCount {w : Nat} (x : BitVec w) : Nat :=
  (List.range w).foldl (fun n i => if x.getLsbD i then n + 1 else n) 0

/-- Put bits `v` in the place [lo + n - 1 : lo] of a 32-bit word that is zero there. -/
def field (lo : Nat) (v : Nat) : Word := BitVec.ofNat 32 (v * 2 ^ lo)

/-- Bits [lo + n - 1 : lo] of a number. -/
def bitsOf (x lo n : Nat) : Nat := x / 2 ^ lo % 2 ^ n

end Sys2Proof
end

