-- ==== Sys2Proof/Syntax.lean ====
section
/-! DEFINITION. The instructions of the D81: one constructor for every row of the opcode table.  A row with
bits carries its fields as the table cuts them; a row without bits is a step of one agent of the machine (R-numbers
as given) and carries what names the step. -/

namespace Sys2Proof

/-- What Gallery sets of one queue of a context (R57, R258, R324, R367, R386): base address and number of slots. -/
structure QueueSetting where
  base : Nat
  slots : Nat
  deriving DecidableEq, Repr

/-- What Gallery sets of a context (R41, R44, R49, R188, R191; rank R322, fault limits none). -/
structure ContextSetting where
  root : Nat
  weight : Nat
  drifts : List Nat
  privileged : Bool
  rank : Nat
  deriving DecidableEq, Repr

/-- A multicast group table entry as Gallery writes it (R321). -/
structure GroupSetting where
  valid : Bool
  base : Nat
  gen : Nat
  ctx : Nat
  mask : BitVec 512
  deriving DecidableEq, Repr

/-- What is trained in stage 4 (R373), by its number: a first-tier stack, a second-tier channel, a link between dies, the links of a
fabric port. -/
inductive TrainBlock where
  | stack (n : Nat)
  | channel (n : Nat)
  | dieLink (n : Nat)
  | fabricPort (n : Nat)
  deriving DecidableEq, Repr

/-- The outcome of one boot stage (R373): what Headframe or Gallery met in it. -/
inductive StageResult where
  /-- the stage succeeded, with the digest that it measured -/
  | good (digest : BitVec 384)
  /-- the stage failed -/
  | bad
  /-- a block failed training in stage 4, with its code 0x10 to 0x1F -/
  | block (code : Nat) (failed : TrainBlock)
  /-- Gallery brings up a root port, 0 or 1 (R384) -/
  | rootPort (second : Bool)
  deriving DecidableEq, Repr

/-- What asks for a shot (R370, R377, R378). -/
inductive ShotSource where
  | headframe
  | gallery
  | errorEvent
  | snap
  | fabric
  deriving DecidableEq, Repr

/-- A step SHOT_TRIGGER: a shot that a source asks for, or Gallery's mask of the error events that ask for one (bit 0 a double trap,
1 a matrix pass that failed four times, 2 an error that the scrubber found, 3 a link's loss, 4 a stope fault) (R377, R378). -/
inductive ShotTrigger where
  | from (source : ShotSource)
  | mask (events : BitVec 5)
  deriving DecidableEq, Repr

/-- One participant's request for a collective step as it reaches the root (R334, R341): who asks, and the signature. -/
structure CollRequest where
  rank : Nat
  crewRow : Nat
  crewCol : Nat
  operation : Nat
  type : Nat
  count : Nat
  warps : Nat
  gen : Nat
  step : Nat
  /-- per warp, the elements taken part, as bit patterns of the type -/
  data : List (List (BitVec 64))
  /-- per warp, whether NaN leaves are empty (MODE.NSKIP, R337) -/
  skip : List Bool
  /-- for `coll.skm`, the object: OSZ of its page, its eight header words, then its cells (R339) -/
  object : List (BitVec 64)
  deriving DecidableEq, Repr

/-- What a peer's access does (R330): a read by the module of a number, a write of bytes, as encoded (the key of an insert on a
SKETCH page), or an atomic: operation (0 add, 1 min, 2 max, 3 and, 4 or, 5 xor, 6 exch, 7 cas), MODE.TYPE, operand, value
compared with; or a barrier form on an object (R236): 0 init, 1 arr, 3 wd, and its value. -/
inductive PeerAction where
  | read (module : Nat)
  | write (bytes : List (BitVec 8))
  | atomic (op type operand compare : Nat)
  | barrier (form value : Nat)
  deriving DecidableEq, Repr

/-- What an access names of the warp that issued it, for a record of it (R388): the lane, WARPID, the crew's row and column, REC. -/
structure PeerIssuer where
  lane : Nat
  warp : Nat
  row : Nat
  col : Nat
  recCount : Nat
  deriving DecidableEq, Repr

/-- An access of a peer to this module, as it reaches the target port (R323, R330): to a rank, under the generation of the entry
that the sending port used (R331). -/
structure PeerAccess where
  ctx : Nat
  window : Nat
  offset : Nat
  size : Nat
  action : PeerAction
  rank : Nat := 0
  gen : Nat := 0
  issuer : PeerIssuer := ⟨0, 0, 0, 0, 0⟩
  deriving DecidableEq, Repr

/-- Where an error arises (R71): a granule of memory, a register of a warp (kind 0 lane, 1 predicate, 2 uniform, 3 buffer
record), a granule of a crew's scratchpad, a sector of a core's first-level cache, a saved image, a granule of memory in the L2 slice
that is its home. -/
inductive ErrorPlace where
  | memory (pa : Nat)
  | register (warp kind number : Nat)
  | spad (crew offset : Nat)
  | l1 (core sector : Nat)
  | image (number : Nat)
  | l2 (pa : Nat)
  deriving DecidableEq, Repr

/-- Every step of the machine that the opcode table lists. -/
inductive Instr where
  /-- step RESORT_COMPLETION (R33). -/
  | resortCompletion (crew : Nat)
  /-- step BAR_COMPLETION (R234). -/
  | barCompletion (crew : Nat)
  /-- step ABAR_PERFORM (R236). -/
  | abarPerform (op : Nat)
  /-- step ABAR_WAIT_SATISFIED (R237). -/
  | abarWaitSatisfied (op : Nat)
  /-- step ATOMIC_PERFORM (R10). -/
  | atomicPerform (op : Nat)
  /-- step COPY_EARLY_END (R242). -/
  | copyEarlyEnd (op : Nat)
  /-- step ENGINE_RETIRE (R212). -/
  | engineRetire (op : Nat)
  /-- step ARM_MACRO_CONFIGURED (R286). -/
  | armMacroConfigured (crew macroNo : Nat)
  /-- step MMA_Q_SET_FORM (R291). -/
  | mmaQSetForm (crew : Nat)
  /-- step MATRIX_PASS (R285). -/
  | matrixPass (crew quad : Nat)
  /-- step PASS_REPLAY (R294). -/
  | passReplay (crew quad : Nat)
  /-- step BATCH_RETIRE (R213). -/
  | batchRetire (warp : Nat)
  /-- step FILT_INSERT (R248). -/
  | filtInsert (op : Nat)
  /-- step FREQ_INSERT (R260). -/
  | freqInsert (op : Nat)
  /-- step FREQ_DELETE (R260). -/
  | freqDelete (op : Nat)
  /-- step DIST_INSERT (R262). -/
  | distInsert (op : Nat)
  /-- step QUAN_INSERT (R264). -/
  | quanInsert (op : Nat)
  /-- step QUAN_DELETE (R264). -/
  | quanDelete (op : Nat)
  /-- step FILT_QUERY (R249). -/
  | filtQuery (op : Nat)
  /-- step FREQ_QUERY (R260). -/
  | freqQuery (op : Nat)
  /-- step DIST_ESTIMATE (R262). -/
  | distEstimate (op : Nat)
  /-- step QUAN_QUERY (R265). -/
  | quanQuery (op : Nat)
  /-- step SKETCH_MERGE_PERFORM (R269). -/
  | sketchMergePerform (op : Nat)
  /-- step SKETCH_FOLD_PERFORM (R271). -/
  | sketchFoldPerform (op : Nat)
  /-- step SKETCH_INIT_PERFORM (R315). -/
  | sketchInitPerform (op : Nat)
  /-- step COLL_REQUEST_AT_ROOT (R340). -/
  | collRequestAtRoot (group : Nat) (request : CollRequest)
  /-- step COLL_STEP_GRANT (R340). -/
  | collStepGrant (group : Nat)
  /-- step COLL_STEP_RESULT (R336). -/
  | collStepResult (group : Nat)
  /-- step STEP_TIMER_EXPIRY (R345). -/
  | stepTimerExpiry (group : Nat)
  /-- step RANK_PARK (R345). -/
  | rankPark (ctx rank : Nat)
  /-- step RANK_UNPARK (R345). -/
  | rankUnpark (ctx rank : Nat)
  /-- step MCST_SWITCH_REPLICATE (R323). -/
  | mcstSwitchReplicate (flit : Nat)
  /-- step MCST_MEMBER_DELIVERY (R323): of a multicast of this module, or of a line that a peer sends here. -/
  | mcstMemberDelivery (flit rank : Nat) (line : Option PeerAccess)
  /-- step MCST_REPLY_COMBINE (R324). -/
  | mcstReplyCombine (flit : Nat)
  /-- step MCST_COMPLETION_WRITE (R324). -/
  | mcstCompletionWrite (flit : Nat)
  /-- step GROUP_CHANGE_APPLY (R343). -/
  | groupChangeApply (op : Nat)
  /-- step GRED_RETIRE (R355). -/
  | gredRetire (op : Nat)
  /-- step STOPE_LOAD_PERFORM (R353). -/
  | stopeLoadPerform (op : Nat)
  /-- step STOPE_RUN_START (R353). -/
  | stopeRunStart (op : Nat)
  /-- step STOPE_UNIT_END (R350). -/
  | stopeUnitEnd (channel bank : Nat)
  /-- step STOPE_RUN_RETIRE (R353). -/
  | stopeRunRetire (op : Nat)
  /-- step STOPE_FAULT (R356). -/
  | stopeFault (channel bank : Nat)
  /-- step LEASE_ABORT (R354). -/
  | leaseAbort (op : Nat) (page : Nat)
  /-- step GALLERY_REPLAY (R371). -/
  | galleryReplay (token : Bool) (target ctx : Nat)
  /-- step CLAUSE_START (R47). -/
  | clauseStart (warp frag : Nat)
  /-- step AGE_THRESHOLD (R48). -/
  | ageThreshold (warp frag : Nat)
  /-- step YIELD_HINT_EXPIRY (R48). -/
  | yieldHintExpiry (warp frag : Nat)
  /-- step OPERATION_COMPLETION (R84). -/
  | operationCompletion (op : Nat)
  /-- step TRAP_ENTRY (R52). -/
  | trapEntry (warp frag : Nat)
  /-- step TIMER_TRAP (R369). -/
  | timerTrap (warp frag : Nat)
  /-- step FAULT_RECORD_WRITE (R57). -/
  | faultRecordWrite (ctx : Nat)
  /-- step REGANG_MERGE (R25). -/
  | regangMerge (warp frag : Nat)
  /-- step WARP_RETIRE (R108). -/
  | warpRetire (warp : Nat)
  /-- step QUEUE_CONFIG (R41). -/
  | queueConfig (queue owner cls : Nat) (enable : Bool)
  /-- step HOST_LAUNCH_SUBMIT (R41). -/
  | hostLaunchSubmit (ctx record : Nat)
  /-- step CONTEXT_QUEUES_SET (R386). -/
  | contextQueuesSet (ctx : Nat) (fault event status request : QueueSetting)
  /-- step QUEUE_DISPATCH (R42). -/
  | queueDispatch (queue : Nat)
  /-- step CREW_PLACEMENT (R44). -/
  | crewPlacement (core : Nat)
  /-- step LAUNCH_COMPLETION (R45). -/
  | launchCompletion (launch : Nat)
  /-- step CONTEXT_STOP (R50). -/
  | contextStop (ctx : Nat)
  /-- step CONTEXT_RESUME (R356). -/
  | contextResume (ctx : Nat)
  /-- step CAGE_RESERVATION_CHANGE (R46). -/
  | cageReservationChange (die drifts : Nat)
  /-- step PARTIAL_EVICTION (R63). -/
  | partialEviction (core : Nat)
  /-- step EVICTED_RESTORE (R65). -/
  | evictedRestore (core : Nat)
  /-- step DRIFT_SWAP (R66). -/
  | driftSwap (drift : Nat)
  /-- step IMAGE_MOVE (R67). -/
  | imageMove (crew : Nat)
  /-- step CONTEXT_MIGRATE_RESUME (R68): the drift, and whether the image comes from another module. -/
  | contextMigrateResume (ctx : Nat) (drift : Nat × Bool)
  /-- step SHOOTDOWN (R70): an address in the page, and log₂ of the page's size. -/
  | shootdown (ctx : Nat) (page : Nat × Nat)
  /-- step L1_EVICTION (R179). -/
  | l1Eviction (core sector : Nat)
  /-- step HW_PREFETCH (R179). -/
  | hwPrefetch (core pa : Nat)
  /-- step LOAD_FILL_RETURN (R179). -/
  | loadFillReturn (op : Nat)
  /-- step STORE_PERFORM_HOME (R202). -/
  | storePerformHome (op : Nat)
  /-- step FP4S_STORE_PERFORM (R198). -/
  | fp4sStorePerform (op : Nat)
  /-- step MISS_ENTRY_GRANT (R190). -/
  | missEntryGrant (op : Nat)
  /-- step TOKEN_GRANT (R205). -/
  | tokenGrant (ctx region : Nat)
  /-- step TOKEN_PASS (R205). -/
  | tokenPass (ctx region : Nat)
  /-- step MAP_ACCESS_PERFORM (R194). -/
  | mapAccessPerform (op : Nat)
  /-- step FAB_ACCESS_TARGET (R330): of a request of this module, or of a peer's access that reaches this one. -/
  | fabAccessTarget (op : Nat) (peer : Option PeerAccess)
  /-- step HOST_CXL_ACCESS (R346). -/
  | hostCxlAccess (pa : Nat) (write : Option (List (BitVec 8)))
  /-- step WINDOW_REVOKE (R326). -/
  | windowRevoke (ctx window : Nat)
  /-- step REMAP_INSTALL (R332). -/
  | remapInstall (ctx rank field module : Nat)
  /-- step REMAP_DRAIN (R332). -/
  | remapDrain (ctx rank : Nat)
  /-- step REMAP_RETIRE (R332). -/
  | remapRetire (ctx rank : Nat)
  /-- step GOVERNOR_WINDOW_END (R296). -/
  | governorWindowEnd (core quad : Nat)
  /-- step TIMING_CALIBRATION (R296). -/
  | timingCalibration (core quad : Nat)
  /-- step SCRUB (R379). -/
  | scrub (place : ErrorPlace)
  /-- step L2_EVICT_UNCORRECTABLE (R71). -/
  | l2EvictUncorrectable (pa : Nat)
  /-- step TELEMETRY_RECORD (R380). -/
  | telemetryRecord (watts : Nat)
  /-- step POWER_WINDOW (R381). -/
  | powerWindow (watts : Nat)
  /-- step CEILING_RAISE (R381). -/
  | ceilingRaise (watts : Nat)
  /-- step PLIM_SET (R381). -/
  | plimSet (watts : Nat)
  /-- step SYS_ECHO (R368). -/
  | sysEcho (op : Nat)
  /-- step SYS_REGISTER_TOKEN_REGION (R368). -/
  | sysRegisterTokenRegion (op : Nat)
  /-- step SYS_REMOVE_TOKEN_REGION (R368). -/
  | sysRemoveTokenRegion (op : Nat)
  /-- step SYS_MAP_WINDOW (R368). -/
  | sysMapWindow (op : Nat)
  /-- step SYS_REVOKE_WINDOW (R368). -/
  | sysRevokeWindow (op : Nat)
  /-- step SYS_CLAIM_STOPE_CHANNEL (R368). -/
  | sysClaimStopeChannel (op : Nat)
  /-- step SYS_RELEASE_STOPE_CHANNEL (R368). -/
  | sysReleaseStopeChannel (op : Nat)
  /-- step SYS_ANSWER (R366). -/
  | sysAnswer (op : Nat)
  /-- step BOOT (R373). -/
  | boot (power : Bool) (result : StageResult)
  /-- step RECOVERY_IMAGE (R373). -/
  | recoveryImage (good : Bool) (digest : BitVec 384)
  /-- step MS_EXTEND (R376). -/
  | msExtend (slot : Nat) (digest : BitVec 384)
  /-- step ATTESTATION_REPORT (R376). -/
  | attestationReport (nonce : BitVec 384)
  /-- step KEY_SLOT_ASSIGN (R375). -/
  | keySlotAssign (ctx slot : Nat)
  /-- step CONTEXT_DESTROY (R375). -/
  | contextDestroy (ctx : Nat)
  /-- step SHOT_PERMISSION (R370). -/
  | shotPermission (ctx : Nat) (granted : Bool)
  /-- step DEBUG_ENABLE_SET (R364). -/
  | debugEnableSet (ctx : Nat) (enable : Bool)
  /-- step SHOT_TRIGGER (R377, R378). -/
  | shotTrigger (source : ShotTrigger)
  /-- step FABRIC_SHOT_MESSAGE (R377). -/
  | fabricShotMessage (time : Nat)
  /-- step SHOT_RELEASE (R377). -/
  | shotRelease
  /-- step SPARE_REMAP (R382). -/
  | spareRemap (core : Bool) (failing spare : Nat)
  /-- step LINK_LOSS (R383): the port, and the rank that its links led to. -/
  | linkLoss (rank : Nat × Nat)
  /-- step CONTROL_CLUSTER_ACCESS (R57). -/
  | controlClusterAccess (pa : Nat) (write : Option (List (BitVec 8)))
  /-- step STOPE_CLAUSE_ISSUE (R349). -/
  | stopeClauseIssue (channel bank : Nat)
  /-- step FABRIC_REPLY_LIMIT (R323). -/
  | fabricReplyLimit (flit rank : Nat)
  /-- step HOME_SHARE_WRITEBACK (R207). -/
  | homeShareWriteback (line : Nat)
  /-- step MEMORY_ERROR (R71). -/
  | memoryError (place : ErrorPlace) (correctable : Bool)
  /-- step CXL_CACHE_SNOOP (R202). -/
  | cxlCacheSnoop (pa : Nat)
  /-- step GROUP_TABLE_WRITE (R321). -/
  | groupTableWrite (index : Nat) (entry : GroupSetting)
  /-- step CONTEXT_SETTINGS (R49). -/
  | contextSettings (ctx : Nat) (setting : ContextSetting)
  /-- step SNAPSHOT_EXPORT_GATE (R68). -/
  | snapshotExportGate (ctx : Nat)
  /-- `.clause` (R81). -/
  | clauseHeader (w : BitVec 12) (a : BitVec 4) (b : BitVec 4) (l : BitVec 3) (e : BitVec 1) (y : BitVec 1)
  /-- `bra` (R103). -/
  | bra (p : BitVec 3) (n : BitVec 1) (c : BitVec 1) (o : BitVec 16)
  /-- `brs` (R104). -/
  | brs (p : BitVec 3) (n : BitVec 1) (o : BitVec 16)
  /-- `call` (R106). -/
  | call (o : BitVec 16)
  /-- `ret` (R106). -/
  | ret (p : BitVec 3) (n : BitVec 1) (c : BitVec 1)
  /-- `if` (R98). -/
  | ifThen (p : BitVec 3) (n : BitVec 1) (o : BitVec 16)
  /-- `else` (R98). -/
  | elseThen (o : BitVec 16)
  /-- `loop` (R99). -/
  | loop (o : BitVec 16)
  /-- `endloop` (R99). -/
  | endloop (o : BitVec 16)
  /-- `mark` (R107). -/
  | mark (o : BitVec 16)
  /-- `rpt` (R101). -/
  | rptImm (c : BitVec 14) (l : BitVec 7)
  /-- `rpt` (R101). -/
  | rptReg (k : BitVec 7) (l : BitVec 7)
  /-- `regang` (R105). -/
  | regang (m : BitVec 8)
  /-- `setm` (R74). -/
  | setm (m : BitVec 16)
  /-- `setm` (R74). -/
  | setmReg (a : BitVec 7)
  /-- `lim` (R80). -/
  | lim (l : BitVec 25)
  /-- `limh` (R80). -/
  | limh (h : BitVec 7)
  /-- `rdsr` (R112). -/
  | rdsr (d : BitVec 7) (a : BitVec 7)
  /-- `rdsr.s` (R112). -/
  | rdsrS (d : BitVec 7) (a : BitVec 7)
  /-- `wrsr` (R113). -/
  | wrsr (a : BitVec 7) (b : BitVec 7)
  /-- `add` (R114). -/
  | add (d : BitVec 7) (a : BitVec 7) (b : BitVec 7)
  /-- `add` (R114). -/
  | addI (d : BitVec 7) (a : BitVec 7) (i : BitVec 7)
  /-- `add.s` (R114). -/
  | addS (d : BitVec 7) (a : BitVec 7) (b : BitVec 7)
  /-- `add.s` (R114). -/
  | addSi (d : BitVec 7) (a : BitVec 7) (i : BitVec 7)
  /-- `sub` (R114). -/
  | sub (d : BitVec 7) (a : BitVec 7) (b : BitVec 7)
  /-- `sub` (R114). -/
  | subI (d : BitVec 7) (a : BitVec 7) (i : BitVec 7)
  /-- `sub.s` (R114). -/
  | subS (d : BitVec 7) (a : BitVec 7) (b : BitVec 7)
  /-- `sub.s` (R114). -/
  | subSi (d : BitVec 7) (a : BitVec 7) (i : BitVec 7)
  /-- `addc` (R115). -/
  | addc (d : BitVec 7) (a : BitVec 7) (b : BitVec 7)
  /-- `addc` (R115). -/
  | addcI (d : BitVec 7) (a : BitVec 7) (i : BitVec 7)
  /-- `subb` (R115). -/
  | subb (d : BitVec 7) (a : BitVec 7) (b : BitVec 7)
  /-- `subb` (R115). -/
  | subbI (d : BitVec 7) (a : BitVec 7) (i : BitVec 7)
  /-- `mul` (R114). -/
  | mul (d : BitVec 7) (a : BitVec 7) (b : BitVec 7)
  /-- `mul` (R114). -/
  | mulI (d : BitVec 7) (a : BitVec 7) (i : BitVec 7)
  /-- `mul.s` (R114). -/
  | mulS (d : BitVec 7) (a : BitVec 7) (b : BitVec 7)
  /-- `mul.s` (R114). -/
  | mulSi (d : BitVec 7) (a : BitVec 7) (i : BitVec 7)
  /-- `mulh` (R114). -/
  | mulh (d : BitVec 7) (a : BitVec 7) (b : BitVec 7)
  /-- `mulh` (R114). -/
  | mulhI (d : BitVec 7) (a : BitVec 7) (i : BitVec 7)
  /-- `mulh.s` (R114). -/
  | mulhS (d : BitVec 7) (a : BitVec 7) (b : BitVec 7)
  /-- `mulh.s` (R114). -/
  | mulhSi (d : BitVec 7) (a : BitVec 7) (i : BitVec 7)
  /-- `idiv` (R116). -/
  | idiv (d : BitVec 7) (a : BitVec 7) (b : BitVec 7)
  /-- `idiv` (R116). -/
  | idivI (d : BitVec 7) (a : BitVec 7) (i : BitVec 7)
  /-- `idiv.s` (R116). -/
  | idivS (d : BitVec 7) (a : BitVec 7) (b : BitVec 7)
  /-- `idiv.s` (R116). -/
  | idivSi (d : BitVec 7) (a : BitVec 7) (i : BitVec 7)
  /-- `irem` (R116). -/
  | irem (d : BitVec 7) (a : BitVec 7) (b : BitVec 7)
  /-- `irem` (R116). -/
  | iremI (d : BitVec 7) (a : BitVec 7) (i : BitVec 7)
  /-- `irem.s` (R116). -/
  | iremS (d : BitVec 7) (a : BitVec 7) (b : BitVec 7)
  /-- `irem.s` (R116). -/
  | iremSi (d : BitVec 7) (a : BitVec 7) (i : BitVec 7)
  /-- `min` (R114). -/
  | min (d : BitVec 7) (a : BitVec 7) (b : BitVec 7)
  /-- `min` (R114). -/
  | minI (d : BitVec 7) (a : BitVec 7) (i : BitVec 7)
  /-- `min.s` (R114). -/
  | minS (d : BitVec 7) (a : BitVec 7) (b : BitVec 7)
  /-- `min.s` (R114). -/
  | minSi (d : BitVec 7) (a : BitVec 7) (i : BitVec 7)
  /-- `max` (R114). -/
  | max (d : BitVec 7) (a : BitVec 7) (b : BitVec 7)
  /-- `max` (R114). -/
  | maxI (d : BitVec 7) (a : BitVec 7) (i : BitVec 7)
  /-- `max.s` (R114). -/
  | maxS (d : BitVec 7) (a : BitVec 7) (b : BitVec 7)
  /-- `max.s` (R114). -/
  | maxSi (d : BitVec 7) (a : BitVec 7) (i : BitVec 7)
  /-- `and` (R117). -/
  | andBits (d : BitVec 7) (a : BitVec 7) (b : BitVec 7)
  /-- `and` (R117). -/
  | andBitsI (d : BitVec 7) (a : BitVec 7) (i : BitVec 7)
  /-- `and.s` (R117). -/
  | andBitsS (d : BitVec 7) (a : BitVec 7) (b : BitVec 7)
  /-- `and.s` (R117). -/
  | andBitsSi (d : BitVec 7) (a : BitVec 7) (i : BitVec 7)
  /-- `or` (R117). -/
  | orBits (d : BitVec 7) (a : BitVec 7) (b : BitVec 7)
  /-- `or` (R117). -/
  | orBitsI (d : BitVec 7) (a : BitVec 7) (i : BitVec 7)
  /-- `or.s` (R117). -/
  | orBitsS (d : BitVec 7) (a : BitVec 7) (b : BitVec 7)
  /-- `or.s` (R117). -/
  | orBitsSi (d : BitVec 7) (a : BitVec 7) (i : BitVec 7)
  /-- `xor` (R117). -/
  | xorBits (d : BitVec 7) (a : BitVec 7) (b : BitVec 7)
  /-- `xor` (R117). -/
  | xorBitsI (d : BitVec 7) (a : BitVec 7) (i : BitVec 7)
  /-- `xor.s` (R117). -/
  | xorBitsS (d : BitVec 7) (a : BitVec 7) (b : BitVec 7)
  /-- `xor.s` (R117). -/
  | xorBitsSi (d : BitVec 7) (a : BitVec 7) (i : BitVec 7)
  /-- `shl` (R117). -/
  | shl (d : BitVec 7) (a : BitVec 7) (b : BitVec 7)
  /-- `shl` (R117). -/
  | shlI (d : BitVec 7) (a : BitVec 7) (i : BitVec 7)
  /-- `shl.s` (R117). -/
  | shlS (d : BitVec 7) (a : BitVec 7) (b : BitVec 7)
  /-- `shl.s` (R117). -/
  | shlSi (d : BitVec 7) (a : BitVec 7) (i : BitVec 7)
  /-- `shr` (R117). -/
  | shr (d : BitVec 7) (a : BitVec 7) (b : BitVec 7)
  /-- `shr` (R117). -/
  | shrI (d : BitVec 7) (a : BitVec 7) (i : BitVec 7)
  /-- `shr.s` (R117). -/
  | shrS (d : BitVec 7) (a : BitVec 7) (b : BitVec 7)
  /-- `shr.s` (R117). -/
  | shrSi (d : BitVec 7) (a : BitVec 7) (i : BitVec 7)
  /-- `sar` (R117). -/
  | sar (d : BitVec 7) (a : BitVec 7) (b : BitVec 7)
  /-- `sar` (R117). -/
  | sarI (d : BitVec 7) (a : BitVec 7) (i : BitVec 7)
  /-- `sar.s` (R117). -/
  | sarS (d : BitVec 7) (a : BitVec 7) (b : BitVec 7)
  /-- `sar.s` (R117). -/
  | sarSi (d : BitVec 7) (a : BitVec 7) (i : BitVec 7)
  /-- `rot` (R117). -/
  | rot (d : BitVec 7) (a : BitVec 7) (b : BitVec 7)
  /-- `rot` (R117). -/
  | rotI (d : BitVec 7) (a : BitVec 7) (i : BitVec 7)
  /-- `rot.s` (R117). -/
  | rotS (d : BitVec 7) (a : BitVec 7) (b : BitVec 7)
  /-- `rot.s` (R117). -/
  | rotSi (d : BitVec 7) (a : BitVec 7) (i : BitVec 7)
  /-- `not` (R118). -/
  | notBits (d : BitVec 7) (a : BitVec 7)
  /-- `not.s` (R118). -/
  | notBitsS (d : BitVec 7) (a : BitVec 7)
  /-- `clz` (R118). -/
  | clz (d : BitVec 7) (a : BitVec 7)
  /-- `clz.s` (R118). -/
  | clzS (d : BitVec 7) (a : BitVec 7)
  /-- `popc` (R118). -/
  | popc (d : BitVec 7) (a : BitVec 7)
  /-- `popc.s` (R118). -/
  | popcS (d : BitVec 7) (a : BitVec 7)
  /-- `brev` (R118). -/
  | brev (d : BitVec 7) (a : BitVec 7)
  /-- `brev.s` (R118). -/
  | brevS (d : BitVec 7) (a : BitVec 7)
  /-- `abs` (R118). -/
  | abs (d : BitVec 7) (a : BitVec 7)
  /-- `abs.s` (R118). -/
  | absS (d : BitVec 7) (a : BitVec 7)
  /-- `mov` (R118). -/
  | mov (d : BitVec 7) (a : BitVec 7)
  /-- `mov.s` (R118). -/
  | movS (d : BitVec 7) (a : BitVec 7)
  /-- `mov` (R119). -/
  | movImm (d : BitVec 7) (i : BitVec 7)
  /-- `mov.s` (R119). -/
  | movSImm (d : BitVec 7) (i : BitVec 7)
  /-- `cmp.eq` (R120). -/
  | cmpEq (d : BitVec 7) (a : BitVec 7) (b : BitVec 7)
  /-- `cmp.eq` (R120). -/
  | cmpEqI (d : BitVec 7) (a : BitVec 7) (i : BitVec 7)
  /-- `cmp.eq.s` (R120). -/
  | cmpEqS (d : BitVec 7) (a : BitVec 7) (b : BitVec 7)
  /-- `cmp.eq.s` (R120). -/
  | cmpEqSi (d : BitVec 7) (a : BitVec 7) (i : BitVec 7)
  /-- `cmp.ne` (R120). -/
  | cmpNe (d : BitVec 7) (a : BitVec 7) (b : BitVec 7)
  /-- `cmp.ne` (R120). -/
  | cmpNeI (d : BitVec 7) (a : BitVec 7) (i : BitVec 7)
  /-- `cmp.ne.s` (R120). -/
  | cmpNeS (d : BitVec 7) (a : BitVec 7) (b : BitVec 7)
  /-- `cmp.ne.s` (R120). -/
  | cmpNeSi (d : BitVec 7) (a : BitVec 7) (i : BitVec 7)
  /-- `cmp.lt` (R120). -/
  | cmpLt (d : BitVec 7) (a : BitVec 7) (b : BitVec 7)
  /-- `cmp.lt` (R120). -/
  | cmpLtI (d : BitVec 7) (a : BitVec 7) (i : BitVec 7)
  /-- `cmp.lt.s` (R120). -/
  | cmpLtS (d : BitVec 7) (a : BitVec 7) (b : BitVec 7)
  /-- `cmp.lt.s` (R120). -/
  | cmpLtSi (d : BitVec 7) (a : BitVec 7) (i : BitVec 7)
  /-- `cmp.le` (R120). -/
  | cmpLe (d : BitVec 7) (a : BitVec 7) (b : BitVec 7)
  /-- `cmp.le` (R120). -/
  | cmpLeI (d : BitVec 7) (a : BitVec 7) (i : BitVec 7)
  /-- `cmp.le.s` (R120). -/
  | cmpLeS (d : BitVec 7) (a : BitVec 7) (b : BitVec 7)
  /-- `cmp.le.s` (R120). -/
  | cmpLeSi (d : BitVec 7) (a : BitVec 7) (i : BitVec 7)
  /-- `cmp.gt` (R120). -/
  | cmpGt (d : BitVec 7) (a : BitVec 7) (b : BitVec 7)
  /-- `cmp.gt` (R120). -/
  | cmpGtI (d : BitVec 7) (a : BitVec 7) (i : BitVec 7)
  /-- `cmp.gt.s` (R120). -/
  | cmpGtS (d : BitVec 7) (a : BitVec 7) (b : BitVec 7)
  /-- `cmp.gt.s` (R120). -/
  | cmpGtSi (d : BitVec 7) (a : BitVec 7) (i : BitVec 7)
  /-- `cmp.ge` (R120). -/
  | cmpGe (d : BitVec 7) (a : BitVec 7) (b : BitVec 7)
  /-- `cmp.ge` (R120). -/
  | cmpGeI (d : BitVec 7) (a : BitVec 7) (i : BitVec 7)
  /-- `cmp.ge.s` (R120). -/
  | cmpGeS (d : BitVec 7) (a : BitVec 7) (b : BitVec 7)
  /-- `cmp.ge.s` (R120). -/
  | cmpGeSi (d : BitVec 7) (a : BitVec 7) (i : BitVec 7)
  /-- `mad` (R121). -/
  | mad (d : BitVec 7) (a : BitVec 7) (b : BitVec 7)
  /-- `mad.s` (R121). -/
  | madS (d : BitVec 7) (a : BitVec 7) (b : BitVec 7)
  /-- `bfe` (R122). -/
  | bfe (d : BitVec 7) (a : BitVec 7) (b : BitVec 7)
  /-- `bfe.s` (R122). -/
  | bfeS (d : BitVec 7) (a : BitVec 7) (b : BitVec 7)
  /-- `bfi` (R122). -/
  | bfi (d : BitVec 7) (a : BitVec 7) (b : BitVec 7)
  /-- `bfi.s` (R122). -/
  | bfiS (d : BitVec 7) (a : BitVec 7) (b : BitVec 7)
  /-- `sel` (R123). -/
  | sel (d : BitVec 7) (a : BitVec 7) (b : BitVec 7) (n : BitVec 1) (p : BitVec 3)
  /-- `lane.lt` (R124). -/
  | laneLt (d : BitVec 7)
  /-- `lane.le` (R124). -/
  | laneLe (d : BitVec 7)
  /-- `lane.gt` (R124). -/
  | laneGt (d : BitVec 7)
  /-- `lane.ge` (R124). -/
  | laneGe (d : BitVec 7)
  /-- `lane.eq` (R124). -/
  | laneEq (d : BitVec 7)
  /-- `shfl.idx` (R128). -/
  | shflIdx (d : BitVec 7) (m : BitVec 7) (s : BitVec 7)
  /-- `shfl.up` (R128). -/
  | shflUp (d : BitVec 7) (m : BitVec 7) (s : BitVec 7)
  /-- `shfl.down` (R128). -/
  | shflDown (d : BitVec 7) (m : BitVec 7) (s : BitVec 7)
  /-- `shfl.xor` (R128). -/
  | shflXor (d : BitVec 7) (m : BitVec 7) (s : BitVec 7)
  /-- `shfl.idx` (R128). -/
  | shflIdxI (d : BitVec 7) (m : BitVec 7) (i : BitVec 7)
  /-- `shfl.up` (R128). -/
  | shflUpI (d : BitVec 7) (m : BitVec 7) (i : BitVec 7)
  /-- `shfl.down` (R128). -/
  | shflDownI (d : BitVec 7) (m : BitVec 7) (i : BitVec 7)
  /-- `shfl.xor` (R128). -/
  | shflXorI (d : BitVec 7) (m : BitVec 7) (i : BitVec 7)
  /-- `vote.any` (R129). -/
  | voteAny (d : BitVec 7) (a : BitVec 7) (m : BitVec 7)
  /-- `vote.all` (R129). -/
  | voteAll (d : BitVec 7) (a : BitVec 7) (m : BitVec 7)
  /-- `vote.uni` (R129). -/
  | voteUni (d : BitVec 7) (a : BitVec 7) (m : BitVec 7)
  /-- `ballot` (R130). -/
  | ballot (d : BitVec 7) (a : BitVec 7) (m : BitVec 7)
  /-- `match` (R131). -/
  | matchLanes (d : BitVec 7) (a : BitVec 7) (m : BitVec 7)
  /-- `red.add` (R132). -/
  | redAdd (d : BitVec 7) (a : BitVec 7) (m : BitVec 7)
  /-- `red.min` (R132). -/
  | redMin (d : BitVec 7) (a : BitVec 7) (m : BitVec 7)
  /-- `red.max` (R132). -/
  | redMax (d : BitVec 7) (a : BitVec 7) (m : BitVec 7)
  /-- `red.and` (R132). -/
  | redAnd (d : BitVec 7) (a : BitVec 7) (m : BitVec 7)
  /-- `red.or` (R132). -/
  | redOr (d : BitVec 7) (a : BitVec 7) (m : BitVec 7)
  /-- `red.xor` (R132). -/
  | redXor (d : BitVec 7) (a : BitVec 7) (m : BitVec 7)
  /-- `scan.add` (R132). -/
  | scanAdd (d : BitVec 7) (a : BitVec 7) (m : BitVec 7)
  /-- `scan.min` (R132). -/
  | scanMin (d : BitVec 7) (a : BitVec 7) (m : BitVec 7)
  /-- `scan.max` (R132). -/
  | scanMax (d : BitVec 7) (a : BitVec 7) (m : BitVec 7)
  /-- `scan.and` (R132). -/
  | scanAnd (d : BitVec 7) (a : BitVec 7) (m : BitVec 7)
  /-- `scan.or` (R132). -/
  | scanOr (d : BitVec 7) (a : BitVec 7) (m : BitVec 7)
  /-- `scan.xor` (R132). -/
  | scanXor (d : BitVec 7) (a : BitVec 7) (m : BitVec 7)
  /-- `resort` (R134). -/
  | resort (a : BitVec 7) (b : BitVec 7)
  /-- `s2v` (R125). -/
  | s2v (d : BitVec 7) (a : BitVec 7)
  /-- `v2s` (R125). -/
  | v2s (d : BitVec 7) (a : BitVec 7)
  /-- `pand` (R126). -/
  | pand (d : BitVec 7) (a : BitVec 7) (b : BitVec 7)
  /-- `por` (R126). -/
  | por (d : BitVec 7) (a : BitVec 7) (b : BitVec 7)
  /-- `pxor` (R126). -/
  | pxor (d : BitVec 7) (a : BitVec 7) (b : BitVec 7)
  /-- `pnot` (R126). -/
  | pnot (d : BitVec 7) (a : BitVec 7)
  /-- `pmov` (R126). -/
  | pmov (d : BitVec 7) (a : BitVec 7)
  /-- `fadd` (R163). -/
  | fadd (d : BitVec 7) (a : BitVec 7) (b : BitVec 7)
  /-- `fsub` (R163). -/
  | fsub (d : BitVec 7) (a : BitVec 7) (b : BitVec 7)
  /-- `fmul` (R163). -/
  | fmul (d : BitVec 7) (a : BitVec 7) (b : BitVec 7)
  /-- `fmin` (R164). -/
  | fmin (d : BitVec 7) (a : BitVec 7) (b : BitVec 7)
  /-- `fmax` (R164). -/
  | fmax (d : BitVec 7) (a : BitVec 7) (b : BitVec 7)
  /-- `fdiv` (R163). -/
  | fdiv (d : BitVec 7) (a : BitVec 7) (b : BitVec 7)
  /-- `fadd` (R163). -/
  | faddI (d : BitVec 7) (a : BitVec 7) (i : BitVec 7)
  /-- `fsub` (R163). -/
  | fsubI (d : BitVec 7) (a : BitVec 7) (i : BitVec 7)
  /-- `fmul` (R163). -/
  | fmulI (d : BitVec 7) (a : BitVec 7) (i : BitVec 7)
  /-- `fmin` (R164). -/
  | fminI (d : BitVec 7) (a : BitVec 7) (i : BitVec 7)
  /-- `fmax` (R164). -/
  | fmaxI (d : BitVec 7) (a : BitVec 7) (i : BitVec 7)
  /-- `fdiv` (R163). -/
  | fdivI (d : BitVec 7) (a : BitVec 7) (i : BitVec 7)
  /-- `ffma` (R165). -/
  | ffma (d : BitVec 7) (a : BitVec 7) (b : BitVec 7)
  /-- `fcmp.eq` (R166). -/
  | fcmpEq (d : BitVec 7) (a : BitVec 7) (b : BitVec 7)
  /-- `fcmp.ne` (R166). -/
  | fcmpNe (d : BitVec 7) (a : BitVec 7) (b : BitVec 7)
  /-- `fcmp.lt` (R166). -/
  | fcmpLt (d : BitVec 7) (a : BitVec 7) (b : BitVec 7)
  /-- `fcmp.le` (R166). -/
  | fcmpLe (d : BitVec 7) (a : BitVec 7) (b : BitVec 7)
  /-- `fcmp.gt` (R166). -/
  | fcmpGt (d : BitVec 7) (a : BitVec 7) (b : BitVec 7)
  /-- `fcmp.ge` (R166). -/
  | fcmpGe (d : BitVec 7) (a : BitVec 7) (b : BitVec 7)
  /-- `fcmp.un` (R166). -/
  | fcmpUn (d : BitVec 7) (a : BitVec 7) (b : BitVec 7)
  /-- `fcmp.ord` (R166). -/
  | fcmpOrd (d : BitVec 7) (a : BitVec 7) (b : BitVec 7)
  /-- `frcp` (R168). -/
  | frcp (d : BitVec 7) (a : BitVec 7)
  /-- `frsq` (R168). -/
  | frsq (d : BitVec 7) (a : BitVec 7)
  /-- `fsqrt` (R168). -/
  | fsqrt (d : BitVec 7) (a : BitVec 7)
  /-- `fexp2` (R168). -/
  | fexp2 (d : BitVec 7) (a : BitVec 7)
  /-- `flog2` (R168). -/
  | flog2 (d : BitVec 7) (a : BitVec 7)
  /-- `fsin` (R168). -/
  | fsin (d : BitVec 7) (a : BitVec 7)
  /-- `fcos` (R168). -/
  | fcos (d : BitVec 7) (a : BitVec 7)
  /-- `ftanh` (R168). -/
  | ftanh (d : BitVec 7) (a : BitVec 7)
  /-- `fcvt` (R169). -/
  | fcvt (d : BitVec 7) (a : BitVec 7) (s : BitVec 4)
  /-- `fclass` (R167). -/
  | fclass (d : BitVec 7) (a : BitVec 7)
  /-- `qcvt` (R170). -/
  | qcvt (d : BitVec 7) (a : BitVec 7) (b : BitVec 7)
  /-- `dqcvt` (R171). -/
  | dqcvt (d : BitVec 7) (a : BitVec 7) (b : BitVec 7)
  /-- `bscale` (R172). -/
  | bscale (d : BitVec 7) (a : BitVec 7) (b : BitVec 7)
  /-- `had32` (R175). -/
  | had32 (d : BitVec 7) (a : BitVec 7)
  /-- `rng` (R176). -/
  | rng (d : BitVec 7)
  /-- `rngseed` (R176). -/
  | rngseed (a : BitVec 7)
  /-- `pack` (R177). -/
  | pack (d : BitVec 7) (a : BitVec 7) (i : BitVec 7)
  /-- `unpack` (R177). -/
  | unpack (d : BitVec 7) (a : BitVec 7) (i : BitVec 7)
  /-- `rdflg` (R178). -/
  | rdflg (d : BitVec 7) (n : BitVec 7)
  /-- `clrflg` (R178). -/
  | clrflg (m : BitVec 7)
  /-- `ld` (R224). -/
  | ld (d : BitVec 7) (a : BitVec 7) (b : BitVec 4) (p : BitVec 3) (u : BitVec 1) (q : BitVec 1)
  /-- `ldn` (R224). -/
  | ldn (d : BitVec 7) (a : BitVec 7) (b : BitVec 4) (p : BitVec 3) (u : BitVec 1) (q : BitVec 1)
  /-- `ldk` (R225). -/
  | ldk (d : BitVec 7) (a : BitVec 7) (b : BitVec 4) (u : BitVec 1)
  /-- `st` (R226). -/
  | st (d : BitVec 7) (a : BitVec 7) (b : BitVec 4) (u : BitVec 1)
  /-- `cstore` (R227). -/
  | cstore (d : BitVec 7) (a : BitVec 7) (b : BitVec 4) (u : BitVec 1)
  /-- `pref` (R228). -/
  | pref (a : BitVec 7) (b : BitVec 4) (u : BitVec 1)
  /-- `pgreq` (R229). -/
  | pgreq (a : BitVec 7) (b : BitVec 4) (u : BitVec 1)
  /-- `ld.acq` (R231). -/
  | ldAcq (d : BitVec 7) (a : BitVec 7) (o : BitVec 6) (u : BitVec 1) (b : BitVec 4)
  /-- `st.rel` (R231). -/
  | stRel (d : BitVec 7) (a : BitVec 7) (o : BitVec 6) (u : BitVec 1) (b : BitVec 4)
  /-- `fence.acq` (R183). -/
  | fenceAcq (o : BitVec 6)
  /-- `fence.rel` (R209). -/
  | fenceRel (o : BitVec 6)
  /-- `fence.ar` (R210). -/
  | fenceAr (o : BitVec 6)
  /-- `abar.init` (R236). -/
  | abarInit (d : BitVec 7) (a : BitVec 7) (b : BitVec 4)
  /-- `abar.arr` (R236). -/
  | abarArr (d : BitVec 7) (a : BitVec 7) (b : BitVec 4)
  /-- `abar.wait` (R236). -/
  | abarWait (d : BitVec 7) (a : BitVec 7) (b : BitVec 4)
  /-- `abar.wd` (R236). -/
  | abarWd (d : BitVec 7) (a : BitVec 7) (b : BitVec 4)
  /-- `tkacq` (R238). -/
  | tkacq (a : BitVec 7) (b : BitVec 4)
  /-- `tkrel` (R238). -/
  | tkrel (a : BitVec 7) (b : BitVec 4)
  /-- `bset` (R233). -/
  | bset (d : BitVec 7) (a : BitVec 7)
  /-- `bget` (R233). -/
  | bget (d : BitVec 7) (a : BitVec 7)
  /-- `atom.add` (R230). -/
  | atomAdd (d : BitVec 7) (a : BitVec 7) (b : BitVec 7) (n : BitVec 4)
  /-- `atom.min` (R230). -/
  | atomMin (d : BitVec 7) (a : BitVec 7) (b : BitVec 7) (n : BitVec 4)
  /-- `atom.max` (R230). -/
  | atomMax (d : BitVec 7) (a : BitVec 7) (b : BitVec 7) (n : BitVec 4)
  /-- `atom.and` (R230). -/
  | atomAnd (d : BitVec 7) (a : BitVec 7) (b : BitVec 7) (n : BitVec 4)
  /-- `atom.or` (R230). -/
  | atomOr (d : BitVec 7) (a : BitVec 7) (b : BitVec 7) (n : BitVec 4)
  /-- `atom.xor` (R230). -/
  | atomXor (d : BitVec 7) (a : BitVec 7) (b : BitVec 7) (n : BitVec 4)
  /-- `atom.exch` (R230). -/
  | atomExch (d : BitVec 7) (a : BitVec 7) (b : BitVec 7) (n : BitVec 4)
  /-- `cas` (R230). -/
  | cas (d : BitVec 7) (a : BitVec 7) (b : BitVec 7) (n : BitVec 4)
  /-- `waitc` (R239). -/
  | waitc (n : BitVec 7) (c : BitVec 3)
  /-- `yieldc` (R240). -/
  | yieldc (o : BitVec 14) (n : BitVec 7) (c : BitVec 3)
  /-- `cpy` (R241). -/
  | cpy (d : BitVec 4) (s : BitVec 4) (k : BitVec 6)
  /-- `cpy2d` (R241). -/
  | cpy2d (d : BitVec 4) (s : BitVec 4) (k : BitVec 6)
  /-- `arm` (R277). -/
  | arm (a : BitVec 7)
  /-- `disarm` (R289). -/
  | disarm (a : BitVec 7)
  /-- `mma` (R278). -/
  | mma (d : BitVec 7) (a : BitVec 7) (b : BitVec 7)
  /-- `mma.q` (R290). -/
  | mmaQ (d : BitVec 7) (a : BitVec 7) (b : BitVec 7)
  /-- `mma.g` (R279). -/
  | mmaG (d : BitVec 7) (a : BitVec 7) (b : BitVec 7)
  /-- `drain` (R280). -/
  | drain (d : BitVec 7) (a : BitVec 7) (b : BitVec 7)
  /-- `czero` (R280). -/
  | czero (d : BitVec 7)
  /-- `cld` (R309). -/
  | cld (d : BitVec 7) (a : BitVec 7) (b : BitVec 4)
  /-- `cst` (R309). -/
  | cst (d : BitVec 7) (a : BitVec 7) (b : BitVec 4)
  /-- `mbatch` (R281). -/
  | mbatch (d : BitVec 7)
  /-- `waitb` (R281). -/
  | waitb (a : BitVec 7)
  /-- `wfwd` (R312). -/
  | wfwd (d : BitVec 7) (a : BitVec 7) (l : BitVec 7)
  /-- `winv` (R313). -/
  | winv (d : BitVec 7) (a : BitVec 7)
  /-- `wthr` (R311). -/
  | wthr (n : BitVec 7)
  /-- `wtag` (R282). -/
  | wtag (d : BitVec 7) (a : BitVec 7)
  /-- `skinit` (R315). -/
  | skinit (d : BitVec 7) (a : BitVec 7) (b : BitVec 4)
  /-- `skmerge` (R316). -/
  | skmerge (d : BitVec 7) (a : BitVec 7) (b : BitVec 4)
  /-- `skfold` (R317). -/
  | skfold (a : BitVec 7) (b : BitVec 4)
  /-- `skstat` (R319). -/
  | skstat (d : BitVec 7) (n : BitVec 7)
  /-- `skdel` (R318). -/
  | skdel (d : BitVec 7) (a : BitVec 7) (b : BitVec 4) (u : BitVec 1)
  /-- `coll.sum` (R335). -/
  | collSum (d : BitVec 7) (a : BitVec 7) (b : BitVec 4)
  /-- `coll.min` (R335). -/
  | collMin (d : BitVec 7) (a : BitVec 7) (b : BitVec 4)
  /-- `coll.max` (R335). -/
  | collMax (d : BitVec 7) (a : BitVec 7) (b : BitVec 4)
  /-- `coll.nse` (R338). -/
  | collNse (d : BitVec 7) (a : BitVec 7) (b : BitVec 4)
  /-- `coll.nsb` (R338). -/
  | collNsb (d : BitVec 7) (a : BitVec 7) (b : BitVec 4)
  /-- `coll.skm` (R339). -/
  | collSkm (d : BitVec 7) (a : BitVec 7) (b : BitVec 4)
  /-- `mcst` (R322). -/
  | mcst (d : BitVec 7) (a : BitVec 7) (n : BitVec 7)
  /-- `grpchg` (R342). -/
  | grpchg (d : BitVec 7) (a : BitVec 7)
  /-- `gred.add` (R358). -/
  | gredAdd (d : BitVec 7) (a : BitVec 7) (b : BitVec 4) (p : BitVec 3) (u : BitVec 1)
  /-- `gred.min` (R358). -/
  | gredMin (d : BitVec 7) (a : BitVec 7) (b : BitVec 4) (p : BitVec 3) (u : BitVec 1)
  /-- `gred.max` (R358). -/
  | gredMax (d : BitVec 7) (a : BitVec 7) (b : BitVec 4) (p : BitVec 3) (u : BitVec 1)
  /-- `stope.load` (R360). -/
  | stopeLoad (d : BitVec 7) (a : BitVec 7) (n : BitVec 7)
  /-- `stope.run` (R360). -/
  | stopeRun (a : BitVec 7)
  /-- `stope.wait` (R361). -/
  | stopeWait (d : BitVec 7) (a : BitVec 7)
  /-- `launch` (R362). -/
  | launch (d : BitVec 7) (a : BitVec 7) (b : BitVec 4)
  /-- `trap` (R364). -/
  | trap (n : BitVec 7)
  /-- `sys` (R366). -/
  | sys (d : BitVec 7) (a : BitVec 7) (n : BitVec 7)
  /-- `settmr` (R369). -/
  | settmr (a : BitVec 7)
  /-- `settmr.rel` (R369). -/
  | settmrRel (a : BitVec 7)
  /-- `snap` (R370). -/
  | snap (d : BitVec 7) (a : BitVec 7)
  /-- `replay.tok` (R371). -/
  | replayTok (a : BitVec 7)
  /-- `replay.pg` (R371). -/
  | replayPg (a : BitVec 7)
  /-- `nop` (R109). -/
  | nop
  /-- `endif` (R98). -/
  | endif
  /-- `brk` (R99). -/
  | brk
  /-- `cont` (R99). -/
  | cont
  /-- `exit` (R108). -/
  | exit
  /-- `join` (R107). -/
  | join
  /-- `yield` (R109). -/
  | yield
  /-- `bar` (R234). -/
  | bar
  /-- `openw` (R243). -/
  | openw
  /-- `closew` (R243). -/
  | closew
  /-- `l1inv` (R244). -/
  | l1inv
  /-- `l1wb` (R244). -/
  | l1wb
  /-- `rtt` (R365). -/
  | rtt
  /-- `bkpt` (R364). -/
  | bkpt
  deriving DecidableEq, Repr

end Sys2Proof
end

