-- ==== Sys2Proof/WellFormed.lean ====
section
/-! DEFINITION. Which instructions are well formed: the limits that the entries set to a word's own fields (R73 to
R81, R97, R101 and the entries), whatever the state.  Limits that depend on the state (the register allocation,
pairs under MODE.TYPE, a record's ESZ) are checked when the word issues.  A word whose fields break a limit here
decodes, and raises illegal-instruction when it issues. -/

namespace Sys2Proof

/-- A uniform register number (R75). -/
def uni (r : BitVec 7) : Bool := decide (r.toNat < 64)
/-- A predicate number (R75). -/
def pred (r : BitVec 7) : Bool := decide (r.toNat < 8)
/-- A tile number (R75). -/
def tile (r : BitVec 7) : Bool := decide (r.toNat < 16)
/-- An accumulator tile number (R75). -/
def acc (r : BitVec 7) : Bool := decide (r.toNat < 8)
/-- A buffer record number (R75). -/
def buf (r : BitVec 7) : Bool := decide (r.toNat < 16)
/-- An even uniform register number with a next one (R233, R241, R335, R371). -/
def pair (r : BitVec 7) : Bool := decide (r.toNat % 2 = 0 ∧ r.toNat ≤ 62)
/-- A uniform register number that is a multiple of 4, at most 60 (R280, R360). -/
def quad (r : BitVec 7) : Bool := decide (r.toNat % 4 = 0 ∧ r.toNat ≤ 60)
/-- Index field A of a memory word: a uniform register when U is set (R222). -/
def index (u : BitVec 1) (a : BitVec 7) : Bool := u == 0 || uni a
/-- SETA and SETB: 0 to 11, or 15 for none (R81). -/
def flagField (f : BitVec 4) : Bool := decide (f.toNat < 12 ∨ f.toNat = 15)
/-- Is this a GUARD value (R73)? -/
def guardOk (g : Nat) : Bool := decide (g = 0 ∨ (8 ≤ g ∧ g < 16) ∨ (24 ≤ g ∧ g < 32))
/-- Are GUARD, TYPE and RND of these MODE bits assigned (R73, R74)? -/
def modeOk (m : BitVec 16) : Bool :=
  guardOk (m.toNat % 32) && decide (m.toNat / 32 % 16 < 14) && decide (m.toNat / 512 % 8 < 6)
/-- The special registers of R77. -/
def readable (n : BitVec 7) : Bool :=
  decide (n.toNat ≤ 0x0E ∨ (0x10 ≤ n.toNat ∧ n.toNat ≤ 0x15) ∨ (0x18 ≤ n.toNat ∧ n.toNat ≤ 0x1A) ∨
    (0x20 ≤ n.toNat ∧ n.toNat ≤ 0x25))
/-- The special registers marked rw in R77: STATUS, FLAGS, TVEC, WT0 to WT3. -/
def writable (n : BitVec 7) : Bool :=
  decide (n.toNat = 0x06 ∨ n.toNat = 0x07 ∨ n.toNat = 0x0C ∨ (0x10 ≤ n.toNat ∧ n.toNat ≤ 0x13))

/-- Are the fields of the instruction within the limits of its entry? -/
def Instr.wf (i : Instr) : Bool :=
  match i with
  | .clauseHeader _ a b _ _ _ => flagField a && flagField b
  | .bra p n c _ => c == 1 || (p == 0 && n == 0)
  | .brs _ _ _ => true
  | .call _ => true
  | .ret p n c => c == 1 || (p == 0 && n == 0)
  | .ifThen _ _ _ => true
  | .elseThen _ => true
  | .loop _ => true
  | .endloop _ => true
  | .mark _ => true
  | .rptImm _ l => l != 0
  | .rptReg k l => l != 0 && uni k
  | .nop => true
  | .endif => true
  | .brk => true
  | .cont => true
  | .exit => true
  | .join => true
  | .yield => true
  | .regang _ => true
  | .setm m => modeOk m
  | .setmReg a => uni a
  | .lim _ => true
  | .limh _ => true
  | .rdsr _ a => readable a
  | .rdsrS d a => readable a && uni d
  | .wrsr a b => writable a && uni b
  | .add _ _ _ => true
  | .addI _ _ _ => true
  | .addS d a b => uni d && uni a && uni b
  | .addSi d a _ => uni d && uni a
  | .sub _ _ _ => true
  | .subI _ _ _ => true
  | .subS d a b => uni d && uni a && uni b
  | .subSi d a _ => uni d && uni a
  | .addc _ _ _ => true
  | .addcI _ _ _ => true
  | .subb _ _ _ => true
  | .subbI _ _ _ => true
  | .mul _ _ _ => true
  | .mulI _ _ _ => true
  | .mulS d a b => uni d && uni a && uni b
  | .mulSi d a _ => uni d && uni a
  | .mulh _ _ _ => true
  | .mulhI _ _ _ => true
  | .mulhS d a b => uni d && uni a && uni b
  | .mulhSi d a _ => uni d && uni a
  | .idiv _ _ _ => true
  | .idivI _ _ _ => true
  | .idivS d a b => uni d && uni a && uni b
  | .idivSi d a _ => uni d && uni a
  | .irem _ _ _ => true
  | .iremI _ _ _ => true
  | .iremS d a b => uni d && uni a && uni b
  | .iremSi d a _ => uni d && uni a
  | .min _ _ _ => true
  | .minI _ _ _ => true
  | .minS d a b => uni d && uni a && uni b
  | .minSi d a _ => uni d && uni a
  | .max _ _ _ => true
  | .maxI _ _ _ => true
  | .maxS d a b => uni d && uni a && uni b
  | .maxSi d a _ => uni d && uni a
  | .andBits _ _ _ => true
  | .andBitsI _ _ _ => true
  | .andBitsS d a b => uni d && uni a && uni b
  | .andBitsSi d a _ => uni d && uni a
  | .orBits _ _ _ => true
  | .orBitsI _ _ _ => true
  | .orBitsS d a b => uni d && uni a && uni b
  | .orBitsSi d a _ => uni d && uni a
  | .xorBits _ _ _ => true
  | .xorBitsI _ _ _ => true
  | .xorBitsS d a b => uni d && uni a && uni b
  | .xorBitsSi d a _ => uni d && uni a
  | .shl _ _ _ => true
  | .shlI _ _ _ => true
  | .shlS d a b => uni d && uni a && uni b
  | .shlSi d a _ => uni d && uni a
  | .shr _ _ _ => true
  | .shrI _ _ _ => true
  | .shrS d a b => uni d && uni a && uni b
  | .shrSi d a _ => uni d && uni a
  | .sar _ _ _ => true
  | .sarI _ _ _ => true
  | .sarS d a b => uni d && uni a && uni b
  | .sarSi d a _ => uni d && uni a
  | .rot _ _ _ => true
  | .rotI _ _ _ => true
  | .rotS d a b => uni d && uni a && uni b
  | .rotSi d a _ => uni d && uni a
  | .notBits _ _ => true
  | .notBitsS d a => uni d && uni a
  | .clz _ _ => true
  | .clzS d a => uni d && uni a
  | .popc _ _ => true
  | .popcS d a => uni d && uni a
  | .brev _ _ => true
  | .brevS d a => uni d && uni a
  | .abs _ _ => true
  | .absS d a => uni d && uni a
  | .mov _ _ => true
  | .movS d a => uni d && uni a
  | .movImm _ _ => true
  | .movSImm d _ => uni d
  | .cmpEq d _ _ => pred d
  | .cmpEqI d _ _ => pred d
  | .cmpEqS d a b => pred d && uni a && uni b
  | .cmpEqSi d a _ => pred d && uni a
  | .cmpNe d _ _ => pred d
  | .cmpNeI d _ _ => pred d
  | .cmpNeS d a b => pred d && uni a && uni b
  | .cmpNeSi d a _ => pred d && uni a
  | .cmpLt d _ _ => pred d
  | .cmpLtI d _ _ => pred d
  | .cmpLtS d a b => pred d && uni a && uni b
  | .cmpLtSi d a _ => pred d && uni a
  | .cmpLe d _ _ => pred d
  | .cmpLeI d _ _ => pred d
  | .cmpLeS d a b => pred d && uni a && uni b
  | .cmpLeSi d a _ => pred d && uni a
  | .cmpGt d _ _ => pred d
  | .cmpGtI d _ _ => pred d
  | .cmpGtS d a b => pred d && uni a && uni b
  | .cmpGtSi d a _ => pred d && uni a
  | .cmpGe d _ _ => pred d
  | .cmpGeI d _ _ => pred d
  | .cmpGeS d a b => pred d && uni a && uni b
  | .cmpGeSi d a _ => pred d && uni a
  | .mad _ _ _ => true
  | .madS d a b => uni d && uni a && uni b
  | .bfe _ _ _ => true
  | .bfeS d a b => uni d && uni a && uni b
  | .bfi _ _ _ => true
  | .bfiS d a b => uni d && uni a && uni b
  | .sel _ _ _ _ _ => true
  | .laneLt _ => true
  | .laneLe _ => true
  | .laneGt _ => true
  | .laneGe _ => true
  | .laneEq _ => true
  | .shflIdx _ m _ => uni m
  | .shflUp _ m _ => uni m
  | .shflDown _ m _ => uni m
  | .shflXor _ m _ => uni m
  | .shflIdxI _ m i => uni m && decide (i.toNat < 32)
  | .shflUpI _ m i => uni m && decide (i.toNat < 32)
  | .shflDownI _ m i => uni m && decide (i.toNat < 32)
  | .shflXorI _ m i => uni m && decide (i.toNat < 32)
  | .voteAny d a m => pred d && pred a && uni m
  | .voteAll d a m => pred d && pred a && uni m
  | .voteUni d a m => pred d && pred a && uni m
  | .ballot _ a m => pred a && uni m
  | .matchLanes _ _ m => uni m
  | .redAdd _ _ m => uni m
  | .redMin _ _ m => uni m
  | .redMax _ _ m => uni m
  | .redAnd _ _ m => uni m
  | .redOr _ _ m => uni m
  | .redXor _ _ m => uni m
  | .scanAdd _ _ m => uni m
  | .scanMin _ _ m => uni m
  | .scanMax _ _ m => uni m
  | .scanAnd _ _ m => uni m
  | .scanOr _ _ m => uni m
  | .scanXor _ _ m => uni m
  | .resort _ b => uni b
  | .resortCompletion _ => true
  | .s2v _ a => uni a
  | .v2s d _ => uni d
  | .pand d a b => pred d && pred a && pred b
  | .por d a b => pred d && pred a && pred b
  | .pxor d a b => pred d && pred a && pred b
  | .pnot d a => pred d && pred a
  | .pmov d a => pred d && pred a
  | .fadd _ _ _ => true
  | .fsub _ _ _ => true
  | .fmul _ _ _ => true
  | .fmin _ _ _ => true
  | .fmax _ _ _ => true
  | .fdiv _ _ _ => true
  | .faddI _ _ _ => true
  | .fsubI _ _ _ => true
  | .fmulI _ _ _ => true
  | .fminI _ _ _ => true
  | .fmaxI _ _ _ => true
  | .fdivI _ _ _ => true
  | .ffma _ _ _ => true
  | .fcmpEq d _ _ => pred d
  | .fcmpNe d _ _ => pred d
  | .fcmpLt d _ _ => pred d
  | .fcmpLe d _ _ => pred d
  | .fcmpGt d _ _ => pred d
  | .fcmpGe d _ _ => pred d
  | .fcmpUn d _ _ => pred d
  | .fcmpOrd d _ _ => pred d
  | .frcp _ _ => true
  | .frsq _ _ => true
  | .fsqrt _ _ => true
  | .fexp2 _ _ => true
  | .flog2 _ _ => true
  | .fsin _ _ => true
  | .fcos _ _ => true
  | .ftanh _ _ => true
  | .fcvt _ _ s => decide (s.toNat < 14)
  | .fclass _ _ => true
  | .qcvt _ a b => tile a && uni b
  | .dqcvt d _ b => tile d && uni b
  | .bscale _ _ b => uni b
  | .had32 _ _ => true
  | .rng _ => true
  | .rngseed a => uni a
  | .pack _ _ i => decide (i.toNat < 8)
  | .unpack _ _ i => decide (i.toNat < 8)
  | .rdflg d n => uni d && decide (n.toNat < 7)
  | .clrflg m => decide (m.toNat < 64)
  | .ld _ a _ p u q => index u a && (q == 1 || p == 0)
  | .ldn _ a _ p u q => index u a && (q == 1 || p == 0)
  | .ldk _ a _ u => index u a
  | .st _ a _ u => index u a
  | .cstore _ a _ u => index u a
  | .pref a _ u => index u a
  | .pgreq a _ u => index u a
  | .ldAcq _ a o u _ => index u a && o != 0
  | .stRel _ a o u _ => index u a && o != 0
  | .fenceAcq o => o != 0
  | .fenceRel o => o != 0
  | .fenceAr o => o != 0
  | .bar => true
  | .barCompletion _ => true
  | .abarInit d a _ => uni d && uni a
  | .abarArr d a _ => uni d && uni a
  | .abarWait d a _ => uni d && uni a
  | .abarWd d a _ => uni d && uni a
  | .abarPerform _ => true
  | .abarWaitSatisfied _ => true
  | .tkacq a _ => uni a
  | .tkrel a _ => uni a
  | .bset d a => buf d && pair a
  | .bget d a => pair d && buf a
  | .atomAdd _ _ _ _ => true
  | .atomMin _ _ _ _ => true
  | .atomMax _ _ _ _ => true
  | .atomAnd _ _ _ _ => true
  | .atomOr _ _ _ _ => true
  | .atomXor _ _ _ _ => true
  | .atomExch _ _ _ _ => true
  | .cas _ _ _ _ => true
  | .atomicPerform _ => true
  | .waitc _ c => decide (c.toNat < 5)
  | .yieldc _ _ c => decide (c.toNat < 5)
  | .cpy _ _ k => k.toNat % 2 == 0
  | .cpy2d _ _ k => k.toNat % 2 == 0
  | .copyEarlyEnd _ => true
  | .engineRetire _ => true
  | .openw => true
  | .closew => true
  | .l1inv => true
  | .l1wb => true
  | .arm a => uni a
  | .disarm a => uni a
  | .armMacroConfigured _ _ => true
  | .mma d a b => acc d && tile a && uni b
  | .mmaQ d a b => acc d && tile a && uni b
  | .mmaG d a b => acc d && tile a && uni b
  | .mmaQSetForm _ => true
  | .matrixPass _ _ => true
  | .passReplay _ _ => true
  | .drain d a b => tile d && acc a && quad b
  | .czero d => acc d
  | .cld d a _ => acc d && uni a
  | .cst d a _ => acc d && uni a
  | .mbatch d => uni d
  | .waitb a => uni a
  | .batchRetire _ => true
  | .wfwd d a l => tile d && tile a && decide (1 ≤ l.toNat ∧ l.toNat ≤ 5)
  | .winv d a => tile d && tile a
  | .wthr n => decide (n.toNat < 4)
  | .wtag d a => uni d && tile a
  | .skinit d a _ => decide (d.toNat ≤ 58) && uni a
  | .skmerge d a _ => uni d && uni a
  | .skfold a _ => uni a
  | .skstat d n => uni d && decide (n.toNat < 4)
  | .skdel _ a _ u => index u a
  | .filtInsert _ => true
  | .freqInsert _ => true
  | .freqDelete _ => true
  | .distInsert _ => true
  | .quanInsert _ => true
  | .quanDelete _ => true
  | .filtQuery _ => true
  | .freqQuery _ => true
  | .distEstimate _ => true
  | .quanQuery _ => true
  | .sketchMergePerform _ => true
  | .sketchFoldPerform _ => true
  | .sketchInitPerform _ => true
  | .collSum d a _ => tile d && pair a
  | .collMin d a _ => tile d && pair a
  | .collMax d a _ => tile d && pair a
  | .collNse d a _ => decide (d.toNat < 15) && pair a
  | .collNsb d a _ => decide (d.toNat < 15) && pair a
  | .collSkm d a _ => tile d && pair a
  | .collRequestAtRoot _ _ => true
  | .collStepGrant _ => true
  | .collStepResult _ => true
  | .stepTimerExpiry _ => true
  | .rankPark _ _ => true
  | .rankUnpark _ _ => true
  | .mcst d a _ => d.toNat % 2 == 0 && uni a
  | .mcstSwitchReplicate _ => true
  | .mcstMemberDelivery _ _ _ => true
  | .mcstReplyCombine _ => true
  | .mcstCompletionWrite _ => true
  | .grpchg d a => uni d && uni a
  | .groupChangeApply _ => true
  | .gredAdd _ a _ _ u => index u a
  | .gredMin _ a _ _ u => index u a
  | .gredMax _ a _ _ u => index u a
  | .gredRetire _ => true
  | .stopeLoad d a n => pair a && decide (1 ≤ d.toNat * 128 + n.toNat ∧ d.toNat * 128 + n.toNat ≤ 4096)
  | .stopeRun a => quad a
  | .stopeWait d a => uni d && uni a
  | .stopeLoadPerform _ => true
  | .stopeRunStart _ => true
  | .stopeUnitEnd _ _ => true
  | .stopeRunRetire _ => true
  | .stopeFault _ _ => true
  | .leaseAbort _ _ => true
  | .launch d a _ => uni d && uni a
  | .trap _ => true
  | .rtt => true
  | .sys d a _ => uni d && uni a
  | .settmr a => uni a
  | .settmrRel a => uni a
  | .snap d a => uni d && uni a
  | .bkpt => true
  | .replayTok a => pair a
  | .replayPg a => pair a
  | .galleryReplay _ _ _ => true
  | .clauseStart _ _ => true
  | .ageThreshold _ _ => true
  | .yieldHintExpiry _ _ => true
  | .operationCompletion _ => true
  | .trapEntry _ _ => true
  | .timerTrap _ _ => true
  | .faultRecordWrite _ => true
  | .regangMerge _ _ => true
  | .warpRetire _ => true
  | .queueConfig _ _ _ _ => true
  | .hostLaunchSubmit _ _ => true
  | .contextQueuesSet _ _ _ _ _ => true
  | .queueDispatch _ => true
  | .crewPlacement _ => true
  | .launchCompletion _ => true
  | .contextStop _ => true
  | .contextResume _ => true
  | .cageReservationChange _ _ => true
  | .partialEviction _ => true
  | .evictedRestore _ => true
  | .driftSwap _ => true
  | .imageMove _ => true
  | .contextMigrateResume _ _ => true
  | .shootdown _ _ => true
  | .l1Eviction _ _ => true
  | .hwPrefetch _ _ => true
  | .loadFillReturn _ => true
  | .storePerformHome _ => true
  | .fp4sStorePerform _ => true
  | .missEntryGrant _ => true
  | .tokenGrant _ _ => true
  | .tokenPass _ _ => true
  | .mapAccessPerform _ => true
  | .fabAccessTarget _ _ => true
  | .hostCxlAccess _ _ => true
  | .windowRevoke _ _ => true
  | .remapInstall _ _ _ _ => true
  | .remapDrain _ _ => true
  | .remapRetire _ _ => true
  | .governorWindowEnd _ _ => true
  | .timingCalibration _ _ => true
  | .scrub _ => true
  | .l2EvictUncorrectable _ => true
  | .telemetryRecord _ => true
  | .powerWindow _ => true
  | .ceilingRaise _ => true
  | .plimSet _ => true
  | .sysEcho _ => true
  | .sysRegisterTokenRegion _ => true
  | .sysRemoveTokenRegion _ => true
  | .sysMapWindow _ => true
  | .sysRevokeWindow _ => true
  | .sysClaimStopeChannel _ => true
  | .sysReleaseStopeChannel _ => true
  | .sysAnswer _ => true
  | .boot _ _ => true
  | .recoveryImage _ _ => true
  | .msExtend _ _ => true
  | .attestationReport _ => true
  | .keySlotAssign _ _ => true
  | .contextDestroy _ => true
  | .shotPermission _ _ => true
  | .debugEnableSet _ _ => true
  | .shotTrigger _ => true
  | .fabricShotMessage _ => true
  | .shotRelease => true
  | .spareRemap _ _ _ => true
  | .linkLoss _ => true
  | .controlClusterAccess _ _ => true
  | .stopeClauseIssue _ _ => true
  | .fabricReplyLimit _ _ => true
  | .homeShareWriteback _ => true
  | .memoryError _ _ => true
  | .cxlCacheSnoop _ => true
  | .groupTableWrite _ _ => true
  | .contextSettings _ _ => true
  | .snapshotExportGate _ => true

/-- Has the row a word (R72), or is it a step of some other agent? -/
def Instr.isWord (i : Instr) : Bool :=
  match i with
  | .clauseHeader _ _ _ _ _ _ => true
  | .bra _ _ _ _ => true
  | .brs _ _ _ => true
  | .call _ => true
  | .ret _ _ _ => true
  | .ifThen _ _ _ => true
  | .elseThen _ => true
  | .loop _ => true
  | .endloop _ => true
  | .mark _ => true
  | .rptImm _ _ => true
  | .rptReg _ _ => true
  | .nop => true
  | .endif => true
  | .brk => true
  | .cont => true
  | .exit => true
  | .join => true
  | .yield => true
  | .regang _ => true
  | .setm _ => true
  | .setmReg _ => true
  | .lim _ => true
  | .limh _ => true
  | .rdsr _ _ => true
  | .rdsrS _ _ => true
  | .wrsr _ _ => true
  | .add _ _ _ => true
  | .addI _ _ _ => true
  | .addS _ _ _ => true
  | .addSi _ _ _ => true
  | .sub _ _ _ => true
  | .subI _ _ _ => true
  | .subS _ _ _ => true
  | .subSi _ _ _ => true
  | .addc _ _ _ => true
  | .addcI _ _ _ => true
  | .subb _ _ _ => true
  | .subbI _ _ _ => true
  | .mul _ _ _ => true
  | .mulI _ _ _ => true
  | .mulS _ _ _ => true
  | .mulSi _ _ _ => true
  | .mulh _ _ _ => true
  | .mulhI _ _ _ => true
  | .mulhS _ _ _ => true
  | .mulhSi _ _ _ => true
  | .idiv _ _ _ => true
  | .idivI _ _ _ => true
  | .idivS _ _ _ => true
  | .idivSi _ _ _ => true
  | .irem _ _ _ => true
  | .iremI _ _ _ => true
  | .iremS _ _ _ => true
  | .iremSi _ _ _ => true
  | .min _ _ _ => true
  | .minI _ _ _ => true
  | .minS _ _ _ => true
  | .minSi _ _ _ => true
  | .max _ _ _ => true
  | .maxI _ _ _ => true
  | .maxS _ _ _ => true
  | .maxSi _ _ _ => true
  | .andBits _ _ _ => true
  | .andBitsI _ _ _ => true
  | .andBitsS _ _ _ => true
  | .andBitsSi _ _ _ => true
  | .orBits _ _ _ => true
  | .orBitsI _ _ _ => true
  | .orBitsS _ _ _ => true
  | .orBitsSi _ _ _ => true
  | .xorBits _ _ _ => true
  | .xorBitsI _ _ _ => true
  | .xorBitsS _ _ _ => true
  | .xorBitsSi _ _ _ => true
  | .shl _ _ _ => true
  | .shlI _ _ _ => true
  | .shlS _ _ _ => true
  | .shlSi _ _ _ => true
  | .shr _ _ _ => true
  | .shrI _ _ _ => true
  | .shrS _ _ _ => true
  | .shrSi _ _ _ => true
  | .sar _ _ _ => true
  | .sarI _ _ _ => true
  | .sarS _ _ _ => true
  | .sarSi _ _ _ => true
  | .rot _ _ _ => true
  | .rotI _ _ _ => true
  | .rotS _ _ _ => true
  | .rotSi _ _ _ => true
  | .notBits _ _ => true
  | .notBitsS _ _ => true
  | .clz _ _ => true
  | .clzS _ _ => true
  | .popc _ _ => true
  | .popcS _ _ => true
  | .brev _ _ => true
  | .brevS _ _ => true
  | .abs _ _ => true
  | .absS _ _ => true
  | .mov _ _ => true
  | .movS _ _ => true
  | .movImm _ _ => true
  | .movSImm _ _ => true
  | .cmpEq _ _ _ => true
  | .cmpEqI _ _ _ => true
  | .cmpEqS _ _ _ => true
  | .cmpEqSi _ _ _ => true
  | .cmpNe _ _ _ => true
  | .cmpNeI _ _ _ => true
  | .cmpNeS _ _ _ => true
  | .cmpNeSi _ _ _ => true
  | .cmpLt _ _ _ => true
  | .cmpLtI _ _ _ => true
  | .cmpLtS _ _ _ => true
  | .cmpLtSi _ _ _ => true
  | .cmpLe _ _ _ => true
  | .cmpLeI _ _ _ => true
  | .cmpLeS _ _ _ => true
  | .cmpLeSi _ _ _ => true
  | .cmpGt _ _ _ => true
  | .cmpGtI _ _ _ => true
  | .cmpGtS _ _ _ => true
  | .cmpGtSi _ _ _ => true
  | .cmpGe _ _ _ => true
  | .cmpGeI _ _ _ => true
  | .cmpGeS _ _ _ => true
  | .cmpGeSi _ _ _ => true
  | .mad _ _ _ => true
  | .madS _ _ _ => true
  | .bfe _ _ _ => true
  | .bfeS _ _ _ => true
  | .bfi _ _ _ => true
  | .bfiS _ _ _ => true
  | .sel _ _ _ _ _ => true
  | .laneLt _ => true
  | .laneLe _ => true
  | .laneGt _ => true
  | .laneGe _ => true
  | .laneEq _ => true
  | .shflIdx _ _ _ => true
  | .shflUp _ _ _ => true
  | .shflDown _ _ _ => true
  | .shflXor _ _ _ => true
  | .shflIdxI _ _ _ => true
  | .shflUpI _ _ _ => true
  | .shflDownI _ _ _ => true
  | .shflXorI _ _ _ => true
  | .voteAny _ _ _ => true
  | .voteAll _ _ _ => true
  | .voteUni _ _ _ => true
  | .ballot _ _ _ => true
  | .matchLanes _ _ _ => true
  | .redAdd _ _ _ => true
  | .redMin _ _ _ => true
  | .redMax _ _ _ => true
  | .redAnd _ _ _ => true
  | .redOr _ _ _ => true
  | .redXor _ _ _ => true
  | .scanAdd _ _ _ => true
  | .scanMin _ _ _ => true
  | .scanMax _ _ _ => true
  | .scanAnd _ _ _ => true
  | .scanOr _ _ _ => true
  | .scanXor _ _ _ => true
  | .resort _ _ => true
  | .resortCompletion _ => false
  | .s2v _ _ => true
  | .v2s _ _ => true
  | .pand _ _ _ => true
  | .por _ _ _ => true
  | .pxor _ _ _ => true
  | .pnot _ _ => true
  | .pmov _ _ => true
  | .fadd _ _ _ => true
  | .fsub _ _ _ => true
  | .fmul _ _ _ => true
  | .fmin _ _ _ => true
  | .fmax _ _ _ => true
  | .fdiv _ _ _ => true
  | .faddI _ _ _ => true
  | .fsubI _ _ _ => true
  | .fmulI _ _ _ => true
  | .fminI _ _ _ => true
  | .fmaxI _ _ _ => true
  | .fdivI _ _ _ => true
  | .ffma _ _ _ => true
  | .fcmpEq _ _ _ => true
  | .fcmpNe _ _ _ => true
  | .fcmpLt _ _ _ => true
  | .fcmpLe _ _ _ => true
  | .fcmpGt _ _ _ => true
  | .fcmpGe _ _ _ => true
  | .fcmpUn _ _ _ => true
  | .fcmpOrd _ _ _ => true
  | .frcp _ _ => true
  | .frsq _ _ => true
  | .fsqrt _ _ => true
  | .fexp2 _ _ => true
  | .flog2 _ _ => true
  | .fsin _ _ => true
  | .fcos _ _ => true
  | .ftanh _ _ => true
  | .fcvt _ _ _ => true
  | .fclass _ _ => true
  | .qcvt _ _ _ => true
  | .dqcvt _ _ _ => true
  | .bscale _ _ _ => true
  | .had32 _ _ => true
  | .rng _ => true
  | .rngseed _ => true
  | .pack _ _ _ => true
  | .unpack _ _ _ => true
  | .rdflg _ _ => true
  | .clrflg _ => true
  | .ld _ _ _ _ _ _ => true
  | .ldn _ _ _ _ _ _ => true
  | .ldk _ _ _ _ => true
  | .st _ _ _ _ => true
  | .cstore _ _ _ _ => true
  | .pref _ _ _ => true
  | .pgreq _ _ _ => true
  | .ldAcq _ _ _ _ _ => true
  | .stRel _ _ _ _ _ => true
  | .fenceAcq _ => true
  | .fenceRel _ => true
  | .fenceAr _ => true
  | .bar => true
  | .barCompletion _ => false
  | .abarInit _ _ _ => true
  | .abarArr _ _ _ => true
  | .abarWait _ _ _ => true
  | .abarWd _ _ _ => true
  | .abarPerform _ => false
  | .abarWaitSatisfied _ => false
  | .tkacq _ _ => true
  | .tkrel _ _ => true
  | .bset _ _ => true
  | .bget _ _ => true
  | .atomAdd _ _ _ _ => true
  | .atomMin _ _ _ _ => true
  | .atomMax _ _ _ _ => true
  | .atomAnd _ _ _ _ => true
  | .atomOr _ _ _ _ => true
  | .atomXor _ _ _ _ => true
  | .atomExch _ _ _ _ => true
  | .cas _ _ _ _ => true
  | .atomicPerform _ => false
  | .waitc _ _ => true
  | .yieldc _ _ _ => true
  | .cpy _ _ _ => true
  | .cpy2d _ _ _ => true
  | .copyEarlyEnd _ => false
  | .engineRetire _ => false
  | .openw => true
  | .closew => true
  | .l1inv => true
  | .l1wb => true
  | .arm _ => true
  | .disarm _ => true
  | .armMacroConfigured _ _ => false
  | .mma _ _ _ => true
  | .mmaQ _ _ _ => true
  | .mmaG _ _ _ => true
  | .mmaQSetForm _ => false
  | .matrixPass _ _ => false
  | .passReplay _ _ => false
  | .drain _ _ _ => true
  | .czero _ => true
  | .cld _ _ _ => true
  | .cst _ _ _ => true
  | .mbatch _ => true
  | .waitb _ => true
  | .batchRetire _ => false
  | .wfwd _ _ _ => true
  | .winv _ _ => true
  | .wthr _ => true
  | .wtag _ _ => true
  | .skinit _ _ _ => true
  | .skmerge _ _ _ => true
  | .skfold _ _ => true
  | .skstat _ _ => true
  | .skdel _ _ _ _ => true
  | .filtInsert _ => false
  | .freqInsert _ => false
  | .freqDelete _ => false
  | .distInsert _ => false
  | .quanInsert _ => false
  | .quanDelete _ => false
  | .filtQuery _ => false
  | .freqQuery _ => false
  | .distEstimate _ => false
  | .quanQuery _ => false
  | .sketchMergePerform _ => false
  | .sketchFoldPerform _ => false
  | .sketchInitPerform _ => false
  | .collSum _ _ _ => true
  | .collMin _ _ _ => true
  | .collMax _ _ _ => true
  | .collNse _ _ _ => true
  | .collNsb _ _ _ => true
  | .collSkm _ _ _ => true
  | .collRequestAtRoot _ _ => false
  | .collStepGrant _ => false
  | .collStepResult _ => false
  | .stepTimerExpiry _ => false
  | .rankPark _ _ => false
  | .rankUnpark _ _ => false
  | .mcst _ _ _ => true
  | .mcstSwitchReplicate _ => false
  | .mcstMemberDelivery _ _ _ => false
  | .mcstReplyCombine _ => false
  | .mcstCompletionWrite _ => false
  | .grpchg _ _ => true
  | .groupChangeApply _ => false
  | .gredAdd _ _ _ _ _ => true
  | .gredMin _ _ _ _ _ => true
  | .gredMax _ _ _ _ _ => true
  | .gredRetire _ => false
  | .stopeLoad _ _ _ => true
  | .stopeRun _ => true
  | .stopeWait _ _ => true
  | .stopeLoadPerform _ => false
  | .stopeRunStart _ => false
  | .stopeUnitEnd _ _ => false
  | .stopeRunRetire _ => false
  | .stopeFault _ _ => false
  | .leaseAbort _ _ => false
  | .launch _ _ _ => true
  | .trap _ => true
  | .rtt => true
  | .sys _ _ _ => true
  | .settmr _ => true
  | .settmrRel _ => true
  | .snap _ _ => true
  | .bkpt => true
  | .replayTok _ => true
  | .replayPg _ => true
  | .galleryReplay _ _ _ => false
  | .clauseStart _ _ => false
  | .ageThreshold _ _ => false
  | .yieldHintExpiry _ _ => false
  | .operationCompletion _ => false
  | .trapEntry _ _ => false
  | .timerTrap _ _ => false
  | .faultRecordWrite _ => false
  | .regangMerge _ _ => false
  | .warpRetire _ => false
  | .queueConfig _ _ _ _ => false
  | .hostLaunchSubmit _ _ => false
  | .contextQueuesSet _ _ _ _ _ => false
  | .queueDispatch _ => false
  | .crewPlacement _ => false
  | .launchCompletion _ => false
  | .contextStop _ => false
  | .contextResume _ => false
  | .cageReservationChange _ _ => false
  | .partialEviction _ => false
  | .evictedRestore _ => false
  | .driftSwap _ => false
  | .imageMove _ => false
  | .contextMigrateResume _ _ => false
  | .shootdown _ _ => false
  | .l1Eviction _ _ => false
  | .hwPrefetch _ _ => false
  | .loadFillReturn _ => false
  | .storePerformHome _ => false
  | .fp4sStorePerform _ => false
  | .missEntryGrant _ => false
  | .tokenGrant _ _ => false
  | .tokenPass _ _ => false
  | .mapAccessPerform _ => false
  | .fabAccessTarget _ _ => false
  | .hostCxlAccess _ _ => false
  | .windowRevoke _ _ => false
  | .remapInstall _ _ _ _ => false
  | .remapDrain _ _ => false
  | .remapRetire _ _ => false
  | .governorWindowEnd _ _ => false
  | .timingCalibration _ _ => false
  | .scrub _ => false
  | .l2EvictUncorrectable _ => false
  | .telemetryRecord _ => false
  | .powerWindow _ => false
  | .ceilingRaise _ => false
  | .plimSet _ => false
  | .sysEcho _ => false
  | .sysRegisterTokenRegion _ => false
  | .sysRemoveTokenRegion _ => false
  | .sysMapWindow _ => false
  | .sysRevokeWindow _ => false
  | .sysClaimStopeChannel _ => false
  | .sysReleaseStopeChannel _ => false
  | .sysAnswer _ => false
  | .boot _ _ => false
  | .recoveryImage _ _ => false
  | .msExtend _ _ => false
  | .attestationReport _ => false
  | .keySlotAssign _ _ => false
  | .contextDestroy _ => false
  | .shotPermission _ _ => false
  | .debugEnableSet _ _ => false
  | .shotTrigger _ => false
  | .fabricShotMessage _ => false
  | .shotRelease => false
  | .spareRemap _ _ _ => false
  | .linkLoss _ => false
  | .controlClusterAccess _ _ => false
  | .stopeClauseIssue _ _ => false
  | .fabricReplyLimit _ _ => false
  | .homeShareWriteback _ => false
  | .memoryError _ _ => false
  | .cxlCacheSnoop _ => false
  | .groupTableWrite _ _ => false
  | .contextSettings _ _ => false
  | .snapshotExportGate _ => false

end Sys2Proof
end

