-- ==== Sys2Proof/Decode.lean ====
section
/-! DEFINITION. The decoder of instruction words and the encoder (R72, R86, R87).  Both are written from the
encoding tables of the spec; the tables of R72, R86 and R87 give every constant and every field below. -/

namespace Sys2Proof

/-- Why a word is no instruction (R88). -/
inductive Reject where
  /-- the major opcode is unassigned -/
  | unassignedMajor (op : Nat)
  /-- an assigned major with an X that is not listed, or with a nonzero reserved bit -/
  | unlistedForm (op : Nat)
  deriving DecidableEq, Repr

/-- Major 0x01 (R87). -/
noncomputable def decode01 (w : Word) : Except Reject Instr :=
  if w.extractLsb' 0 4 = 0 then .ok (.bra (w.extractLsb' 22 3) (w.extractLsb' 21 1) (w.extractLsb' 20 1) (w.extractLsb' 4 16))
  else
  if w.extractLsb' 20 1 = 1 ∧ w.extractLsb' 0 4 = 1 then .ok (.brs (w.extractLsb' 22 3) (w.extractLsb' 21 1) (w.extractLsb' 4 16))
  else
  if w.extractLsb' 20 5 = 0 ∧ w.extractLsb' 0 4 = 2 then .ok (.call (w.extractLsb' 4 16))
  else
  if w.extractLsb' 0 20 = 3 then .ok (.ret (w.extractLsb' 22 3) (w.extractLsb' 21 1) (w.extractLsb' 20 1))
  else
  if w.extractLsb' 20 1 = 1 ∧ w.extractLsb' 0 4 = 4 then .ok (.ifThen (w.extractLsb' 22 3) (w.extractLsb' 21 1) (w.extractLsb' 4 16))
  else
  if w.extractLsb' 20 5 = 0 ∧ w.extractLsb' 0 4 = 5 then .ok (.elseThen (w.extractLsb' 4 16))
  else
  if w.extractLsb' 20 5 = 0 ∧ w.extractLsb' 0 4 = 6 then .ok (.loop (w.extractLsb' 4 16))
  else
  if w.extractLsb' 20 5 = 0 ∧ w.extractLsb' 0 4 = 7 then .ok (.endloop (w.extractLsb' 4 16))
  else
  if w.extractLsb' 20 5 = 0 ∧ w.extractLsb' 0 4 = 8 then .ok (.mark (w.extractLsb' 4 16))
  else .error (.unlistedForm 0x01)

/-- Major 0x02 (R87). -/
noncomputable def decode02 (w : Word) : Except Reject Instr :=
  if w.extractLsb' 0 4 = 0 then .ok (.rptImm (w.extractLsb' 11 14) (w.extractLsb' 4 7))
  else
  if w.extractLsb' 18 7 = 0 ∧ w.extractLsb' 0 4 = 8 then .ok (.rptReg (w.extractLsb' 11 7) (w.extractLsb' 4 7))
  else .error (.unlistedForm 0x02)

/-- Major 0x03 (R87). -/
noncomputable def decode03 (w : Word) : Except Reject Instr :=
  if w.extractLsb' 0 25 = 0 then .ok (.nop)
  else
  if w.extractLsb' 0 25 = 1 then .ok (.endif)
  else
  if w.extractLsb' 0 25 = 2 then .ok (.brk)
  else
  if w.extractLsb' 0 25 = 3 then .ok (.cont)
  else
  if w.extractLsb' 0 25 = 4 then .ok (.exit)
  else
  if w.extractLsb' 0 25 = 5 then .ok (.join)
  else
  if w.extractLsb' 0 25 = 6 then .ok (.yield)
  else
  if w.extractLsb' 0 17 = 7 then .ok (.regang (w.extractLsb' 17 8))
  else .error (.unlistedForm 0x03)

/-- Major 0x04 (R87). -/
noncomputable def decode04 (w : Word) : Except Reject Instr :=
  if w.extractLsb' 0 9 = 0 then .ok (.setm (w.extractLsb' 9 16))
  else
  if w.extractLsb' 18 7 = 0 ∧ w.extractLsb' 0 11 = 1 then .ok (.setmReg (w.extractLsb' 11 7))
  else .error (.unlistedForm 0x04)

/-- Major 0x05 (R87). -/
noncomputable def decode05 (w : Word) : Except Reject Instr :=
  .ok (.lim (w.extractLsb' 0 25))

/-- Major 0x06 (R87). -/
noncomputable def decode06 (w : Word) : Except Reject Instr :=
  if w.extractLsb' 7 18 = 0 then .ok (.limh (w.extractLsb' 0 7))
  else .error (.unlistedForm 0x06)

/-- Major 0x07 (R87). -/
noncomputable def decode07 (w : Word) : Except Reject Instr :=
  if w.extractLsb' 0 11 = 0 then .ok (.rdsr (w.extractLsb' 18 7) (w.extractLsb' 11 7))
  else
  if w.extractLsb' 0 11 = 1 then .ok (.rdsrS (w.extractLsb' 18 7) (w.extractLsb' 11 7))
  else
  if w.extractLsb' 18 7 = 0 ∧ w.extractLsb' 0 4 = 2 then .ok (.wrsr (w.extractLsb' 11 7) (w.extractLsb' 4 7))
  else .error (.unlistedForm 0x07)

/-- Major 0x08 (R87). -/
noncomputable def decode08 (w : Word) : Except Reject Instr :=
  if w.extractLsb' 0 4 = 0 then .ok (.add (w.extractLsb' 18 7) (w.extractLsb' 11 7) (w.extractLsb' 4 7))
  else
  if w.extractLsb' 0 4 = 1 then .ok (.sub (w.extractLsb' 18 7) (w.extractLsb' 11 7) (w.extractLsb' 4 7))
  else
  if w.extractLsb' 0 4 = 2 then .ok (.addc (w.extractLsb' 18 7) (w.extractLsb' 11 7) (w.extractLsb' 4 7))
  else
  if w.extractLsb' 0 4 = 3 then .ok (.subb (w.extractLsb' 18 7) (w.extractLsb' 11 7) (w.extractLsb' 4 7))
  else
  if w.extractLsb' 0 4 = 4 then .ok (.mul (w.extractLsb' 18 7) (w.extractLsb' 11 7) (w.extractLsb' 4 7))
  else
  if w.extractLsb' 0 4 = 5 then .ok (.mulh (w.extractLsb' 18 7) (w.extractLsb' 11 7) (w.extractLsb' 4 7))
  else
  if w.extractLsb' 0 4 = 6 then .ok (.idiv (w.extractLsb' 18 7) (w.extractLsb' 11 7) (w.extractLsb' 4 7))
  else
  if w.extractLsb' 0 4 = 7 then .ok (.irem (w.extractLsb' 18 7) (w.extractLsb' 11 7) (w.extractLsb' 4 7))
  else
  if w.extractLsb' 0 4 = 8 then .ok (.min (w.extractLsb' 18 7) (w.extractLsb' 11 7) (w.extractLsb' 4 7))
  else
  if w.extractLsb' 0 4 = 9 then .ok (.max (w.extractLsb' 18 7) (w.extractLsb' 11 7) (w.extractLsb' 4 7))
  else .error (.unlistedForm 0x08)

/-- Major 0x09 (R87). -/
noncomputable def decode09 (w : Word) : Except Reject Instr :=
  if w.extractLsb' 0 4 = 0 then .ok (.addI (w.extractLsb' 18 7) (w.extractLsb' 11 7) (w.extractLsb' 4 7))
  else
  if w.extractLsb' 0 4 = 1 then .ok (.subI (w.extractLsb' 18 7) (w.extractLsb' 11 7) (w.extractLsb' 4 7))
  else
  if w.extractLsb' 0 4 = 2 then .ok (.addcI (w.extractLsb' 18 7) (w.extractLsb' 11 7) (w.extractLsb' 4 7))
  else
  if w.extractLsb' 0 4 = 3 then .ok (.subbI (w.extractLsb' 18 7) (w.extractLsb' 11 7) (w.extractLsb' 4 7))
  else
  if w.extractLsb' 0 4 = 4 then .ok (.mulI (w.extractLsb' 18 7) (w.extractLsb' 11 7) (w.extractLsb' 4 7))
  else
  if w.extractLsb' 0 4 = 5 then .ok (.mulhI (w.extractLsb' 18 7) (w.extractLsb' 11 7) (w.extractLsb' 4 7))
  else
  if w.extractLsb' 0 4 = 6 then .ok (.idivI (w.extractLsb' 18 7) (w.extractLsb' 11 7) (w.extractLsb' 4 7))
  else
  if w.extractLsb' 0 4 = 7 then .ok (.iremI (w.extractLsb' 18 7) (w.extractLsb' 11 7) (w.extractLsb' 4 7))
  else
  if w.extractLsb' 0 4 = 8 then .ok (.minI (w.extractLsb' 18 7) (w.extractLsb' 11 7) (w.extractLsb' 4 7))
  else
  if w.extractLsb' 0 4 = 9 then .ok (.maxI (w.extractLsb' 18 7) (w.extractLsb' 11 7) (w.extractLsb' 4 7))
  else .error (.unlistedForm 0x09)

/-- Major 0x0A (R87). -/
noncomputable def decode0A (w : Word) : Except Reject Instr :=
  if w.extractLsb' 0 4 = 0 then .ok (.andBits (w.extractLsb' 18 7) (w.extractLsb' 11 7) (w.extractLsb' 4 7))
  else
  if w.extractLsb' 0 4 = 1 then .ok (.orBits (w.extractLsb' 18 7) (w.extractLsb' 11 7) (w.extractLsb' 4 7))
  else
  if w.extractLsb' 0 4 = 2 then .ok (.xorBits (w.extractLsb' 18 7) (w.extractLsb' 11 7) (w.extractLsb' 4 7))
  else
  if w.extractLsb' 0 4 = 3 then .ok (.shl (w.extractLsb' 18 7) (w.extractLsb' 11 7) (w.extractLsb' 4 7))
  else
  if w.extractLsb' 0 4 = 4 then .ok (.shr (w.extractLsb' 18 7) (w.extractLsb' 11 7) (w.extractLsb' 4 7))
  else
  if w.extractLsb' 0 4 = 5 then .ok (.sar (w.extractLsb' 18 7) (w.extractLsb' 11 7) (w.extractLsb' 4 7))
  else
  if w.extractLsb' 0 4 = 6 then .ok (.rot (w.extractLsb' 18 7) (w.extractLsb' 11 7) (w.extractLsb' 4 7))
  else .error (.unlistedForm 0x0A)

/-- Major 0x0B (R87). -/
noncomputable def decode0B (w : Word) : Except Reject Instr :=
  if w.extractLsb' 0 4 = 0 then .ok (.andBitsI (w.extractLsb' 18 7) (w.extractLsb' 11 7) (w.extractLsb' 4 7))
  else
  if w.extractLsb' 0 4 = 1 then .ok (.orBitsI (w.extractLsb' 18 7) (w.extractLsb' 11 7) (w.extractLsb' 4 7))
  else
  if w.extractLsb' 0 4 = 2 then .ok (.xorBitsI (w.extractLsb' 18 7) (w.extractLsb' 11 7) (w.extractLsb' 4 7))
  else
  if w.extractLsb' 0 4 = 3 then .ok (.shlI (w.extractLsb' 18 7) (w.extractLsb' 11 7) (w.extractLsb' 4 7))
  else
  if w.extractLsb' 0 4 = 4 then .ok (.shrI (w.extractLsb' 18 7) (w.extractLsb' 11 7) (w.extractLsb' 4 7))
  else
  if w.extractLsb' 0 4 = 5 then .ok (.sarI (w.extractLsb' 18 7) (w.extractLsb' 11 7) (w.extractLsb' 4 7))
  else
  if w.extractLsb' 0 4 = 6 then .ok (.rotI (w.extractLsb' 18 7) (w.extractLsb' 11 7) (w.extractLsb' 4 7))
  else .error (.unlistedForm 0x0B)

/-- Major 0x0C (R87). -/
noncomputable def decode0C (w : Word) : Except Reject Instr :=
  if w.extractLsb' 0 11 = 0 then .ok (.notBits (w.extractLsb' 18 7) (w.extractLsb' 11 7))
  else
  if w.extractLsb' 0 11 = 1 then .ok (.clz (w.extractLsb' 18 7) (w.extractLsb' 11 7))
  else
  if w.extractLsb' 0 11 = 2 then .ok (.popc (w.extractLsb' 18 7) (w.extractLsb' 11 7))
  else
  if w.extractLsb' 0 11 = 3 then .ok (.brev (w.extractLsb' 18 7) (w.extractLsb' 11 7))
  else
  if w.extractLsb' 0 11 = 4 then .ok (.abs (w.extractLsb' 18 7) (w.extractLsb' 11 7))
  else
  if w.extractLsb' 0 11 = 5 then .ok (.mov (w.extractLsb' 18 7) (w.extractLsb' 11 7))
  else .error (.unlistedForm 0x0C)

/-- Major 0x0D (R87). -/
noncomputable def decode0D (w : Word) : Except Reject Instr :=
  if w.extractLsb' 11 7 = 0 ∧ w.extractLsb' 0 4 = 5 then .ok (.movImm (w.extractLsb' 18 7) (w.extractLsb' 4 7))
  else .error (.unlistedForm 0x0D)

/-- Major 0x0E (R87). -/
noncomputable def decode0E (w : Word) : Except Reject Instr :=
  if w.extractLsb' 0 4 = 0 then .ok (.cmpEq (w.extractLsb' 18 7) (w.extractLsb' 11 7) (w.extractLsb' 4 7))
  else
  if w.extractLsb' 0 4 = 1 then .ok (.cmpNe (w.extractLsb' 18 7) (w.extractLsb' 11 7) (w.extractLsb' 4 7))
  else
  if w.extractLsb' 0 4 = 2 then .ok (.cmpLt (w.extractLsb' 18 7) (w.extractLsb' 11 7) (w.extractLsb' 4 7))
  else
  if w.extractLsb' 0 4 = 3 then .ok (.cmpLe (w.extractLsb' 18 7) (w.extractLsb' 11 7) (w.extractLsb' 4 7))
  else
  if w.extractLsb' 0 4 = 4 then .ok (.cmpGt (w.extractLsb' 18 7) (w.extractLsb' 11 7) (w.extractLsb' 4 7))
  else
  if w.extractLsb' 0 4 = 5 then .ok (.cmpGe (w.extractLsb' 18 7) (w.extractLsb' 11 7) (w.extractLsb' 4 7))
  else .error (.unlistedForm 0x0E)

/-- Major 0x0F (R87). -/
noncomputable def decode0F (w : Word) : Except Reject Instr :=
  if w.extractLsb' 0 4 = 0 then .ok (.cmpEqI (w.extractLsb' 18 7) (w.extractLsb' 11 7) (w.extractLsb' 4 7))
  else
  if w.extractLsb' 0 4 = 1 then .ok (.cmpNeI (w.extractLsb' 18 7) (w.extractLsb' 11 7) (w.extractLsb' 4 7))
  else
  if w.extractLsb' 0 4 = 2 then .ok (.cmpLtI (w.extractLsb' 18 7) (w.extractLsb' 11 7) (w.extractLsb' 4 7))
  else
  if w.extractLsb' 0 4 = 3 then .ok (.cmpLeI (w.extractLsb' 18 7) (w.extractLsb' 11 7) (w.extractLsb' 4 7))
  else
  if w.extractLsb' 0 4 = 4 then .ok (.cmpGtI (w.extractLsb' 18 7) (w.extractLsb' 11 7) (w.extractLsb' 4 7))
  else
  if w.extractLsb' 0 4 = 5 then .ok (.cmpGeI (w.extractLsb' 18 7) (w.extractLsb' 11 7) (w.extractLsb' 4 7))
  else .error (.unlistedForm 0x0F)

/-- Major 0x10 (R87). -/
noncomputable def decode10 (w : Word) : Except Reject Instr :=
  if w.extractLsb' 0 4 = 0 then .ok (.mad (w.extractLsb' 18 7) (w.extractLsb' 11 7) (w.extractLsb' 4 7))
  else .error (.unlistedForm 0x10)

/-- Major 0x11 (R87). -/
noncomputable def decode11 (w : Word) : Except Reject Instr :=
  if w.extractLsb' 0 4 = 0 then .ok (.bfe (w.extractLsb' 18 7) (w.extractLsb' 11 7) (w.extractLsb' 4 7))
  else
  if w.extractLsb' 0 4 = 1 then .ok (.bfi (w.extractLsb' 18 7) (w.extractLsb' 11 7) (w.extractLsb' 4 7))
  else .error (.unlistedForm 0x11)

/-- Major 0x12 (R87). -/
noncomputable def decode12 (w : Word) : Except Reject Instr :=
  .ok (.sel (w.extractLsb' 18 7) (w.extractLsb' 11 7) (w.extractLsb' 4 7) (w.extractLsb' 3 1) (w.extractLsb' 0 3))

/-- Major 0x13 (R87). -/
noncomputable def decode13 (w : Word) : Except Reject Instr :=
  if w.extractLsb' 0 18 = 0 then .ok (.laneLt (w.extractLsb' 18 7))
  else
  if w.extractLsb' 0 18 = 1 then .ok (.laneLe (w.extractLsb' 18 7))
  else
  if w.extractLsb' 0 18 = 2 then .ok (.laneGt (w.extractLsb' 18 7))
  else
  if w.extractLsb' 0 18 = 3 then .ok (.laneGe (w.extractLsb' 18 7))
  else
  if w.extractLsb' 0 18 = 4 then .ok (.laneEq (w.extractLsb' 18 7))
  else .error (.unlistedForm 0x13)

/-- Major 0x14 (R87). -/
noncomputable def decode14 (w : Word) : Except Reject Instr :=
  if w.extractLsb' 0 4 = 0 then .ok (.shflIdx (w.extractLsb' 18 7) (w.extractLsb' 11 7) (w.extractLsb' 4 7))
  else
  if w.extractLsb' 0 4 = 1 then .ok (.shflUp (w.extractLsb' 18 7) (w.extractLsb' 11 7) (w.extractLsb' 4 7))
  else
  if w.extractLsb' 0 4 = 2 then .ok (.shflDown (w.extractLsb' 18 7) (w.extractLsb' 11 7) (w.extractLsb' 4 7))
  else
  if w.extractLsb' 0 4 = 3 then .ok (.shflXor (w.extractLsb' 18 7) (w.extractLsb' 11 7) (w.extractLsb' 4 7))
  else
  if w.extractLsb' 0 4 = 4 then .ok (.voteAny (w.extractLsb' 18 7) (w.extractLsb' 11 7) (w.extractLsb' 4 7))
  else
  if w.extractLsb' 0 4 = 5 then .ok (.voteAll (w.extractLsb' 18 7) (w.extractLsb' 11 7) (w.extractLsb' 4 7))
  else
  if w.extractLsb' 0 4 = 6 then .ok (.voteUni (w.extractLsb' 18 7) (w.extractLsb' 11 7) (w.extractLsb' 4 7))
  else
  if w.extractLsb' 0 4 = 7 then .ok (.ballot (w.extractLsb' 18 7) (w.extractLsb' 11 7) (w.extractLsb' 4 7))
  else
  if w.extractLsb' 0 4 = 8 then .ok (.matchLanes (w.extractLsb' 18 7) (w.extractLsb' 11 7) (w.extractLsb' 4 7))
  else .error (.unlistedForm 0x14)

/-- Major 0x15 (R87). -/
noncomputable def decode15 (w : Word) : Except Reject Instr :=
  if w.extractLsb' 0 4 = 0 then .ok (.shflIdxI (w.extractLsb' 18 7) (w.extractLsb' 11 7) (w.extractLsb' 4 7))
  else
  if w.extractLsb' 0 4 = 1 then .ok (.shflUpI (w.extractLsb' 18 7) (w.extractLsb' 11 7) (w.extractLsb' 4 7))
  else
  if w.extractLsb' 0 4 = 2 then .ok (.shflDownI (w.extractLsb' 18 7) (w.extractLsb' 11 7) (w.extractLsb' 4 7))
  else
  if w.extractLsb' 0 4 = 3 then .ok (.shflXorI (w.extractLsb' 18 7) (w.extractLsb' 11 7) (w.extractLsb' 4 7))
  else .error (.unlistedForm 0x15)

/-- Major 0x16 (R87). -/
noncomputable def decode16 (w : Word) : Except Reject Instr :=
  if w.extractLsb' 0 4 = 0 then .ok (.redAdd (w.extractLsb' 18 7) (w.extractLsb' 11 7) (w.extractLsb' 4 7))
  else
  if w.extractLsb' 0 4 = 1 then .ok (.redMin (w.extractLsb' 18 7) (w.extractLsb' 11 7) (w.extractLsb' 4 7))
  else
  if w.extractLsb' 0 4 = 2 then .ok (.redMax (w.extractLsb' 18 7) (w.extractLsb' 11 7) (w.extractLsb' 4 7))
  else
  if w.extractLsb' 0 4 = 3 then .ok (.redAnd (w.extractLsb' 18 7) (w.extractLsb' 11 7) (w.extractLsb' 4 7))
  else
  if w.extractLsb' 0 4 = 4 then .ok (.redOr (w.extractLsb' 18 7) (w.extractLsb' 11 7) (w.extractLsb' 4 7))
  else
  if w.extractLsb' 0 4 = 5 then .ok (.redXor (w.extractLsb' 18 7) (w.extractLsb' 11 7) (w.extractLsb' 4 7))
  else
  if w.extractLsb' 0 4 = 8 then .ok (.scanAdd (w.extractLsb' 18 7) (w.extractLsb' 11 7) (w.extractLsb' 4 7))
  else
  if w.extractLsb' 0 4 = 9 then .ok (.scanMin (w.extractLsb' 18 7) (w.extractLsb' 11 7) (w.extractLsb' 4 7))
  else
  if w.extractLsb' 0 4 = 10 then .ok (.scanMax (w.extractLsb' 18 7) (w.extractLsb' 11 7) (w.extractLsb' 4 7))
  else
  if w.extractLsb' 0 4 = 11 then .ok (.scanAnd (w.extractLsb' 18 7) (w.extractLsb' 11 7) (w.extractLsb' 4 7))
  else
  if w.extractLsb' 0 4 = 12 then .ok (.scanOr (w.extractLsb' 18 7) (w.extractLsb' 11 7) (w.extractLsb' 4 7))
  else
  if w.extractLsb' 0 4 = 13 then .ok (.scanXor (w.extractLsb' 18 7) (w.extractLsb' 11 7) (w.extractLsb' 4 7))
  else .error (.unlistedForm 0x16)

/-- Major 0x17 (R87). -/
noncomputable def decode17 (w : Word) : Except Reject Instr :=
  if w.extractLsb' 18 7 = 0 ∧ w.extractLsb' 0 4 = 0 then .ok (.resort (w.extractLsb' 11 7) (w.extractLsb' 4 7))
  else .error (.unlistedForm 0x17)

/-- Major 0x18 (R87). -/
noncomputable def decode18 (w : Word) : Except Reject Instr :=
  if w.extractLsb' 0 11 = 0 then .ok (.s2v (w.extractLsb' 18 7) (w.extractLsb' 11 7))
  else
  if w.extractLsb' 0 11 = 1 then .ok (.v2s (w.extractLsb' 18 7) (w.extractLsb' 11 7))
  else .error (.unlistedForm 0x18)

/-- Major 0x19 (R87). -/
noncomputable def decode19 (w : Word) : Except Reject Instr :=
  if w.extractLsb' 0 4 = 0 then .ok (.pand (w.extractLsb' 18 7) (w.extractLsb' 11 7) (w.extractLsb' 4 7))
  else
  if w.extractLsb' 0 4 = 1 then .ok (.por (w.extractLsb' 18 7) (w.extractLsb' 11 7) (w.extractLsb' 4 7))
  else
  if w.extractLsb' 0 4 = 2 then .ok (.pxor (w.extractLsb' 18 7) (w.extractLsb' 11 7) (w.extractLsb' 4 7))
  else
  if w.extractLsb' 0 11 = 3 then .ok (.pnot (w.extractLsb' 18 7) (w.extractLsb' 11 7))
  else
  if w.extractLsb' 0 11 = 4 then .ok (.pmov (w.extractLsb' 18 7) (w.extractLsb' 11 7))
  else .error (.unlistedForm 0x19)

/-- Major 0x1A (R87). -/
noncomputable def decode1A (w : Word) : Except Reject Instr :=
  if w.extractLsb' 0 4 = 0 then .ok (.addS (w.extractLsb' 18 7) (w.extractLsb' 11 7) (w.extractLsb' 4 7))
  else
  if w.extractLsb' 0 4 = 1 then .ok (.subS (w.extractLsb' 18 7) (w.extractLsb' 11 7) (w.extractLsb' 4 7))
  else
  if w.extractLsb' 0 4 = 4 then .ok (.mulS (w.extractLsb' 18 7) (w.extractLsb' 11 7) (w.extractLsb' 4 7))
  else
  if w.extractLsb' 0 4 = 5 then .ok (.mulhS (w.extractLsb' 18 7) (w.extractLsb' 11 7) (w.extractLsb' 4 7))
  else
  if w.extractLsb' 0 4 = 6 then .ok (.idivS (w.extractLsb' 18 7) (w.extractLsb' 11 7) (w.extractLsb' 4 7))
  else
  if w.extractLsb' 0 4 = 7 then .ok (.iremS (w.extractLsb' 18 7) (w.extractLsb' 11 7) (w.extractLsb' 4 7))
  else
  if w.extractLsb' 0 4 = 8 then .ok (.minS (w.extractLsb' 18 7) (w.extractLsb' 11 7) (w.extractLsb' 4 7))
  else
  if w.extractLsb' 0 4 = 9 then .ok (.maxS (w.extractLsb' 18 7) (w.extractLsb' 11 7) (w.extractLsb' 4 7))
  else .error (.unlistedForm 0x1A)

/-- Major 0x1B (R87). -/
noncomputable def decode1B (w : Word) : Except Reject Instr :=
  if w.extractLsb' 0 4 = 0 then .ok (.addSi (w.extractLsb' 18 7) (w.extractLsb' 11 7) (w.extractLsb' 4 7))
  else
  if w.extractLsb' 0 4 = 1 then .ok (.subSi (w.extractLsb' 18 7) (w.extractLsb' 11 7) (w.extractLsb' 4 7))
  else
  if w.extractLsb' 0 4 = 4 then .ok (.mulSi (w.extractLsb' 18 7) (w.extractLsb' 11 7) (w.extractLsb' 4 7))
  else
  if w.extractLsb' 0 4 = 5 then .ok (.mulhSi (w.extractLsb' 18 7) (w.extractLsb' 11 7) (w.extractLsb' 4 7))
  else
  if w.extractLsb' 0 4 = 6 then .ok (.idivSi (w.extractLsb' 18 7) (w.extractLsb' 11 7) (w.extractLsb' 4 7))
  else
  if w.extractLsb' 0 4 = 7 then .ok (.iremSi (w.extractLsb' 18 7) (w.extractLsb' 11 7) (w.extractLsb' 4 7))
  else
  if w.extractLsb' 0 4 = 8 then .ok (.minSi (w.extractLsb' 18 7) (w.extractLsb' 11 7) (w.extractLsb' 4 7))
  else
  if w.extractLsb' 0 4 = 9 then .ok (.maxSi (w.extractLsb' 18 7) (w.extractLsb' 11 7) (w.extractLsb' 4 7))
  else .error (.unlistedForm 0x1B)

/-- Major 0x1C (R87). -/
noncomputable def decode1C (w : Word) : Except Reject Instr :=
  if w.extractLsb' 0 4 = 0 then .ok (.andBitsS (w.extractLsb' 18 7) (w.extractLsb' 11 7) (w.extractLsb' 4 7))
  else
  if w.extractLsb' 0 4 = 1 then .ok (.orBitsS (w.extractLsb' 18 7) (w.extractLsb' 11 7) (w.extractLsb' 4 7))
  else
  if w.extractLsb' 0 4 = 2 then .ok (.xorBitsS (w.extractLsb' 18 7) (w.extractLsb' 11 7) (w.extractLsb' 4 7))
  else
  if w.extractLsb' 0 4 = 3 then .ok (.shlS (w.extractLsb' 18 7) (w.extractLsb' 11 7) (w.extractLsb' 4 7))
  else
  if w.extractLsb' 0 4 = 4 then .ok (.shrS (w.extractLsb' 18 7) (w.extractLsb' 11 7) (w.extractLsb' 4 7))
  else
  if w.extractLsb' 0 4 = 5 then .ok (.sarS (w.extractLsb' 18 7) (w.extractLsb' 11 7) (w.extractLsb' 4 7))
  else
  if w.extractLsb' 0 4 = 6 then .ok (.rotS (w.extractLsb' 18 7) (w.extractLsb' 11 7) (w.extractLsb' 4 7))
  else .error (.unlistedForm 0x1C)

/-- Major 0x1D (R87). -/
noncomputable def decode1D (w : Word) : Except Reject Instr :=
  if w.extractLsb' 0 4 = 0 then .ok (.andBitsSi (w.extractLsb' 18 7) (w.extractLsb' 11 7) (w.extractLsb' 4 7))
  else
  if w.extractLsb' 0 4 = 1 then .ok (.orBitsSi (w.extractLsb' 18 7) (w.extractLsb' 11 7) (w.extractLsb' 4 7))
  else
  if w.extractLsb' 0 4 = 2 then .ok (.xorBitsSi (w.extractLsb' 18 7) (w.extractLsb' 11 7) (w.extractLsb' 4 7))
  else
  if w.extractLsb' 0 4 = 3 then .ok (.shlSi (w.extractLsb' 18 7) (w.extractLsb' 11 7) (w.extractLsb' 4 7))
  else
  if w.extractLsb' 0 4 = 4 then .ok (.shrSi (w.extractLsb' 18 7) (w.extractLsb' 11 7) (w.extractLsb' 4 7))
  else
  if w.extractLsb' 0 4 = 5 then .ok (.sarSi (w.extractLsb' 18 7) (w.extractLsb' 11 7) (w.extractLsb' 4 7))
  else
  if w.extractLsb' 0 4 = 6 then .ok (.rotSi (w.extractLsb' 18 7) (w.extractLsb' 11 7) (w.extractLsb' 4 7))
  else .error (.unlistedForm 0x1D)

/-- Major 0x1E (R87). -/
noncomputable def decode1E (w : Word) : Except Reject Instr :=
  if w.extractLsb' 0 11 = 0 then .ok (.notBitsS (w.extractLsb' 18 7) (w.extractLsb' 11 7))
  else
  if w.extractLsb' 0 11 = 1 then .ok (.clzS (w.extractLsb' 18 7) (w.extractLsb' 11 7))
  else
  if w.extractLsb' 0 11 = 2 then .ok (.popcS (w.extractLsb' 18 7) (w.extractLsb' 11 7))
  else
  if w.extractLsb' 0 11 = 3 then .ok (.brevS (w.extractLsb' 18 7) (w.extractLsb' 11 7))
  else
  if w.extractLsb' 0 11 = 4 then .ok (.absS (w.extractLsb' 18 7) (w.extractLsb' 11 7))
  else
  if w.extractLsb' 0 11 = 5 then .ok (.movS (w.extractLsb' 18 7) (w.extractLsb' 11 7))
  else .error (.unlistedForm 0x1E)

/-- Major 0x1F (R87). -/
noncomputable def decode1F (w : Word) : Except Reject Instr :=
  if w.extractLsb' 11 7 = 0 ∧ w.extractLsb' 0 4 = 5 then .ok (.movSImm (w.extractLsb' 18 7) (w.extractLsb' 4 7))
  else .error (.unlistedForm 0x1F)

/-- Major 0x20 (R87). -/
noncomputable def decode20 (w : Word) : Except Reject Instr :=
  if w.extractLsb' 0 4 = 0 then .ok (.cmpEqS (w.extractLsb' 18 7) (w.extractLsb' 11 7) (w.extractLsb' 4 7))
  else
  if w.extractLsb' 0 4 = 1 then .ok (.cmpNeS (w.extractLsb' 18 7) (w.extractLsb' 11 7) (w.extractLsb' 4 7))
  else
  if w.extractLsb' 0 4 = 2 then .ok (.cmpLtS (w.extractLsb' 18 7) (w.extractLsb' 11 7) (w.extractLsb' 4 7))
  else
  if w.extractLsb' 0 4 = 3 then .ok (.cmpLeS (w.extractLsb' 18 7) (w.extractLsb' 11 7) (w.extractLsb' 4 7))
  else
  if w.extractLsb' 0 4 = 4 then .ok (.cmpGtS (w.extractLsb' 18 7) (w.extractLsb' 11 7) (w.extractLsb' 4 7))
  else
  if w.extractLsb' 0 4 = 5 then .ok (.cmpGeS (w.extractLsb' 18 7) (w.extractLsb' 11 7) (w.extractLsb' 4 7))
  else .error (.unlistedForm 0x20)

/-- Major 0x21 (R87). -/
noncomputable def decode21 (w : Word) : Except Reject Instr :=
  if w.extractLsb' 0 4 = 0 then .ok (.cmpEqSi (w.extractLsb' 18 7) (w.extractLsb' 11 7) (w.extractLsb' 4 7))
  else
  if w.extractLsb' 0 4 = 1 then .ok (.cmpNeSi (w.extractLsb' 18 7) (w.extractLsb' 11 7) (w.extractLsb' 4 7))
  else
  if w.extractLsb' 0 4 = 2 then .ok (.cmpLtSi (w.extractLsb' 18 7) (w.extractLsb' 11 7) (w.extractLsb' 4 7))
  else
  if w.extractLsb' 0 4 = 3 then .ok (.cmpLeSi (w.extractLsb' 18 7) (w.extractLsb' 11 7) (w.extractLsb' 4 7))
  else
  if w.extractLsb' 0 4 = 4 then .ok (.cmpGtSi (w.extractLsb' 18 7) (w.extractLsb' 11 7) (w.extractLsb' 4 7))
  else
  if w.extractLsb' 0 4 = 5 then .ok (.cmpGeSi (w.extractLsb' 18 7) (w.extractLsb' 11 7) (w.extractLsb' 4 7))
  else .error (.unlistedForm 0x21)

/-- Major 0x22 (R87). -/
noncomputable def decode22 (w : Word) : Except Reject Instr :=
  if w.extractLsb' 0 4 = 0 then .ok (.madS (w.extractLsb' 18 7) (w.extractLsb' 11 7) (w.extractLsb' 4 7))
  else .error (.unlistedForm 0x22)

/-- Major 0x23 (R87). -/
noncomputable def decode23 (w : Word) : Except Reject Instr :=
  if w.extractLsb' 0 4 = 0 then .ok (.bfeS (w.extractLsb' 18 7) (w.extractLsb' 11 7) (w.extractLsb' 4 7))
  else
  if w.extractLsb' 0 4 = 1 then .ok (.bfiS (w.extractLsb' 18 7) (w.extractLsb' 11 7) (w.extractLsb' 4 7))
  else .error (.unlistedForm 0x23)

/-- Major 0x28 (R87). -/
noncomputable def decode28 (w : Word) : Except Reject Instr :=
  if w.extractLsb' 0 4 = 0 then .ok (.fadd (w.extractLsb' 18 7) (w.extractLsb' 11 7) (w.extractLsb' 4 7))
  else
  if w.extractLsb' 0 4 = 1 then .ok (.fsub (w.extractLsb' 18 7) (w.extractLsb' 11 7) (w.extractLsb' 4 7))
  else
  if w.extractLsb' 0 4 = 2 then .ok (.fmul (w.extractLsb' 18 7) (w.extractLsb' 11 7) (w.extractLsb' 4 7))
  else
  if w.extractLsb' 0 4 = 3 then .ok (.fmin (w.extractLsb' 18 7) (w.extractLsb' 11 7) (w.extractLsb' 4 7))
  else
  if w.extractLsb' 0 4 = 4 then .ok (.fmax (w.extractLsb' 18 7) (w.extractLsb' 11 7) (w.extractLsb' 4 7))
  else
  if w.extractLsb' 0 4 = 5 then .ok (.fdiv (w.extractLsb' 18 7) (w.extractLsb' 11 7) (w.extractLsb' 4 7))
  else .error (.unlistedForm 0x28)

/-- Major 0x29 (R87). -/
noncomputable def decode29 (w : Word) : Except Reject Instr :=
  if w.extractLsb' 0 4 = 0 then .ok (.faddI (w.extractLsb' 18 7) (w.extractLsb' 11 7) (w.extractLsb' 4 7))
  else
  if w.extractLsb' 0 4 = 1 then .ok (.fsubI (w.extractLsb' 18 7) (w.extractLsb' 11 7) (w.extractLsb' 4 7))
  else
  if w.extractLsb' 0 4 = 2 then .ok (.fmulI (w.extractLsb' 18 7) (w.extractLsb' 11 7) (w.extractLsb' 4 7))
  else
  if w.extractLsb' 0 4 = 3 then .ok (.fminI (w.extractLsb' 18 7) (w.extractLsb' 11 7) (w.extractLsb' 4 7))
  else
  if w.extractLsb' 0 4 = 4 then .ok (.fmaxI (w.extractLsb' 18 7) (w.extractLsb' 11 7) (w.extractLsb' 4 7))
  else
  if w.extractLsb' 0 4 = 5 then .ok (.fdivI (w.extractLsb' 18 7) (w.extractLsb' 11 7) (w.extractLsb' 4 7))
  else .error (.unlistedForm 0x29)

/-- Major 0x2A (R87). -/
noncomputable def decode2A (w : Word) : Except Reject Instr :=
  if w.extractLsb' 0 4 = 0 then .ok (.ffma (w.extractLsb' 18 7) (w.extractLsb' 11 7) (w.extractLsb' 4 7))
  else .error (.unlistedForm 0x2A)

/-- Major 0x2B (R87). -/
noncomputable def decode2B (w : Word) : Except Reject Instr :=
  if w.extractLsb' 0 4 = 0 then .ok (.fcmpEq (w.extractLsb' 18 7) (w.extractLsb' 11 7) (w.extractLsb' 4 7))
  else
  if w.extractLsb' 0 4 = 1 then .ok (.fcmpNe (w.extractLsb' 18 7) (w.extractLsb' 11 7) (w.extractLsb' 4 7))
  else
  if w.extractLsb' 0 4 = 2 then .ok (.fcmpLt (w.extractLsb' 18 7) (w.extractLsb' 11 7) (w.extractLsb' 4 7))
  else
  if w.extractLsb' 0 4 = 3 then .ok (.fcmpLe (w.extractLsb' 18 7) (w.extractLsb' 11 7) (w.extractLsb' 4 7))
  else
  if w.extractLsb' 0 4 = 4 then .ok (.fcmpGt (w.extractLsb' 18 7) (w.extractLsb' 11 7) (w.extractLsb' 4 7))
  else
  if w.extractLsb' 0 4 = 5 then .ok (.fcmpGe (w.extractLsb' 18 7) (w.extractLsb' 11 7) (w.extractLsb' 4 7))
  else
  if w.extractLsb' 0 4 = 6 then .ok (.fcmpUn (w.extractLsb' 18 7) (w.extractLsb' 11 7) (w.extractLsb' 4 7))
  else
  if w.extractLsb' 0 4 = 7 then .ok (.fcmpOrd (w.extractLsb' 18 7) (w.extractLsb' 11 7) (w.extractLsb' 4 7))
  else .error (.unlistedForm 0x2B)

/-- Major 0x2C (R87). -/
noncomputable def decode2C (w : Word) : Except Reject Instr :=
  if w.extractLsb' 0 11 = 0 then .ok (.frcp (w.extractLsb' 18 7) (w.extractLsb' 11 7))
  else
  if w.extractLsb' 0 11 = 1 then .ok (.frsq (w.extractLsb' 18 7) (w.extractLsb' 11 7))
  else
  if w.extractLsb' 0 11 = 2 then .ok (.fsqrt (w.extractLsb' 18 7) (w.extractLsb' 11 7))
  else
  if w.extractLsb' 0 11 = 3 then .ok (.fexp2 (w.extractLsb' 18 7) (w.extractLsb' 11 7))
  else
  if w.extractLsb' 0 11 = 4 then .ok (.flog2 (w.extractLsb' 18 7) (w.extractLsb' 11 7))
  else
  if w.extractLsb' 0 11 = 5 then .ok (.fsin (w.extractLsb' 18 7) (w.extractLsb' 11 7))
  else
  if w.extractLsb' 0 11 = 6 then .ok (.fcos (w.extractLsb' 18 7) (w.extractLsb' 11 7))
  else
  if w.extractLsb' 0 11 = 7 then .ok (.ftanh (w.extractLsb' 18 7) (w.extractLsb' 11 7))
  else .error (.unlistedForm 0x2C)

/-- Major 0x2D (R87). -/
noncomputable def decode2D (w : Word) : Except Reject Instr :=
  if w.extractLsb' 4 7 = 0 then .ok (.fcvt (w.extractLsb' 18 7) (w.extractLsb' 11 7) (w.extractLsb' 0 4))
  else .error (.unlistedForm 0x2D)

/-- Major 0x2E (R87). -/
noncomputable def decode2E (w : Word) : Except Reject Instr :=
  if w.extractLsb' 0 11 = 0 then .ok (.fclass (w.extractLsb' 18 7) (w.extractLsb' 11 7))
  else .error (.unlistedForm 0x2E)

/-- Major 0x2F (R87). -/
noncomputable def decode2F (w : Word) : Except Reject Instr :=
  if w.extractLsb' 0 4 = 0 then .ok (.qcvt (w.extractLsb' 18 7) (w.extractLsb' 11 7) (w.extractLsb' 4 7))
  else
  if w.extractLsb' 0 4 = 1 then .ok (.dqcvt (w.extractLsb' 18 7) (w.extractLsb' 11 7) (w.extractLsb' 4 7))
  else
  if w.extractLsb' 0 4 = 2 then .ok (.bscale (w.extractLsb' 18 7) (w.extractLsb' 11 7) (w.extractLsb' 4 7))
  else .error (.unlistedForm 0x2F)

/-- Major 0x30 (R87). -/
noncomputable def decode30 (w : Word) : Except Reject Instr :=
  if w.extractLsb' 0 11 = 0 then .ok (.had32 (w.extractLsb' 18 7) (w.extractLsb' 11 7))
  else .error (.unlistedForm 0x30)

/-- Major 0x31 (R87). -/
noncomputable def decode31 (w : Word) : Except Reject Instr :=
  if w.extractLsb' 0 18 = 0 then .ok (.rng (w.extractLsb' 18 7))
  else
  if w.extractLsb' 18 7 = 0 ∧ w.extractLsb' 0 11 = 1 then .ok (.rngseed (w.extractLsb' 11 7))
  else .error (.unlistedForm 0x31)

/-- Major 0x32 (R87). -/
noncomputable def decode32 (w : Word) : Except Reject Instr :=
  if w.extractLsb' 0 4 = 0 then .ok (.pack (w.extractLsb' 18 7) (w.extractLsb' 11 7) (w.extractLsb' 4 7))
  else
  if w.extractLsb' 0 4 = 1 then .ok (.unpack (w.extractLsb' 18 7) (w.extractLsb' 11 7) (w.extractLsb' 4 7))
  else .error (.unlistedForm 0x32)

/-- Major 0x33 (R87). -/
noncomputable def decode33 (w : Word) : Except Reject Instr :=
  if w.extractLsb' 11 7 = 0 ∧ w.extractLsb' 0 4 = 0 then .ok (.rdflg (w.extractLsb' 18 7) (w.extractLsb' 4 7))
  else
  if w.extractLsb' 11 14 = 0 ∧ w.extractLsb' 0 4 = 1 then .ok (.clrflg (w.extractLsb' 4 7))
  else .error (.unlistedForm 0x33)

/-- Major 0x38 (R87). -/
noncomputable def decode38 (w : Word) : Except Reject Instr :=
  if w.extractLsb' 0 2 = 0 then .ok (.ld (w.extractLsb' 18 7) (w.extractLsb' 11 7) (w.extractLsb' 7 4) (w.extractLsb' 4 3) (w.extractLsb' 3 1) (w.extractLsb' 2 1))
  else
  if w.extractLsb' 0 2 = 1 then .ok (.ldn (w.extractLsb' 18 7) (w.extractLsb' 11 7) (w.extractLsb' 7 4) (w.extractLsb' 4 3) (w.extractLsb' 3 1) (w.extractLsb' 2 1))
  else
  if w.extractLsb' 4 3 = 0 ∧ w.extractLsb' 0 3 = 2 then .ok (.ldk (w.extractLsb' 18 7) (w.extractLsb' 11 7) (w.extractLsb' 7 4) (w.extractLsb' 3 1))
  else .error (.unlistedForm 0x38)

/-- Major 0x39 (R87). -/
noncomputable def decode39 (w : Word) : Except Reject Instr :=
  if w.extractLsb' 4 3 = 0 ∧ w.extractLsb' 0 3 = 0 then .ok (.st (w.extractLsb' 18 7) (w.extractLsb' 11 7) (w.extractLsb' 7 4) (w.extractLsb' 3 1))
  else
  if w.extractLsb' 4 3 = 0 ∧ w.extractLsb' 0 3 = 1 then .ok (.cstore (w.extractLsb' 18 7) (w.extractLsb' 11 7) (w.extractLsb' 7 4) (w.extractLsb' 3 1))
  else
  if w.extractLsb' 18 7 = 0 ∧ w.extractLsb' 4 3 = 0 ∧ w.extractLsb' 0 3 = 2 then .ok (.pref (w.extractLsb' 11 7) (w.extractLsb' 7 4) (w.extractLsb' 3 1))
  else
  if w.extractLsb' 18 7 = 0 ∧ w.extractLsb' 4 3 = 0 ∧ w.extractLsb' 0 3 = 3 then .ok (.pgreq (w.extractLsb' 11 7) (w.extractLsb' 7 4) (w.extractLsb' 3 1))
  else .error (.unlistedForm 0x39)

/-- Major 0x3A (R87). -/
noncomputable def decode3A (w : Word) : Except Reject Instr :=
  .ok (.ldAcq (w.extractLsb' 18 7) (w.extractLsb' 11 7) (w.extractLsb' 5 6) (w.extractLsb' 4 1) (w.extractLsb' 0 4))

/-- Major 0x3B (R87). -/
noncomputable def decode3B (w : Word) : Except Reject Instr :=
  .ok (.stRel (w.extractLsb' 18 7) (w.extractLsb' 11 7) (w.extractLsb' 5 6) (w.extractLsb' 4 1) (w.extractLsb' 0 4))

/-- Major 0x3C (R87). -/
noncomputable def decode3C (w : Word) : Except Reject Instr :=
  if w.extractLsb' 11 14 = 0 ∧ w.extractLsb' 0 5 = 0 then .ok (.fenceAcq (w.extractLsb' 5 6))
  else
  if w.extractLsb' 11 14 = 0 ∧ w.extractLsb' 0 5 = 1 then .ok (.fenceRel (w.extractLsb' 5 6))
  else
  if w.extractLsb' 11 14 = 0 ∧ w.extractLsb' 0 5 = 2 then .ok (.fenceAr (w.extractLsb' 5 6))
  else .error (.unlistedForm 0x3C)

/-- Major 0x3D (R87). -/
noncomputable def decode3D (w : Word) : Except Reject Instr :=
  if w.extractLsb' 0 25 = 0 then .ok (.bar)
  else
  if w.extractLsb' 0 7 = 1 then .ok (.abarInit (w.extractLsb' 18 7) (w.extractLsb' 11 7) (w.extractLsb' 7 4))
  else
  if w.extractLsb' 0 7 = 2 then .ok (.abarArr (w.extractLsb' 18 7) (w.extractLsb' 11 7) (w.extractLsb' 7 4))
  else
  if w.extractLsb' 0 7 = 3 then .ok (.abarWait (w.extractLsb' 18 7) (w.extractLsb' 11 7) (w.extractLsb' 7 4))
  else
  if w.extractLsb' 0 7 = 4 then .ok (.abarWd (w.extractLsb' 18 7) (w.extractLsb' 11 7) (w.extractLsb' 7 4))
  else .error (.unlistedForm 0x3D)

/-- Major 0x3E (R87). -/
noncomputable def decode3E (w : Word) : Except Reject Instr :=
  if w.extractLsb' 18 7 = 0 ∧ w.extractLsb' 0 7 = 0 then .ok (.tkacq (w.extractLsb' 11 7) (w.extractLsb' 7 4))
  else
  if w.extractLsb' 18 7 = 0 ∧ w.extractLsb' 0 7 = 1 then .ok (.tkrel (w.extractLsb' 11 7) (w.extractLsb' 7 4))
  else .error (.unlistedForm 0x3E)

/-- Major 0x3F (R87). -/
noncomputable def decode3F (w : Word) : Except Reject Instr :=
  if w.extractLsb' 0 11 = 0 then .ok (.bset (w.extractLsb' 18 7) (w.extractLsb' 11 7))
  else
  if w.extractLsb' 0 11 = 1 then .ok (.bget (w.extractLsb' 18 7) (w.extractLsb' 11 7))
  else .error (.unlistedForm 0x3F)

/-- Major 0x40 (R87). -/
noncomputable def decode40 (w : Word) : Except Reject Instr :=
  .ok (.atomAdd (w.extractLsb' 18 7) (w.extractLsb' 11 7) (w.extractLsb' 4 7) (w.extractLsb' 0 4))

/-- Major 0x41 (R87). -/
noncomputable def decode41 (w : Word) : Except Reject Instr :=
  .ok (.atomMin (w.extractLsb' 18 7) (w.extractLsb' 11 7) (w.extractLsb' 4 7) (w.extractLsb' 0 4))

/-- Major 0x42 (R87). -/
noncomputable def decode42 (w : Word) : Except Reject Instr :=
  .ok (.atomMax (w.extractLsb' 18 7) (w.extractLsb' 11 7) (w.extractLsb' 4 7) (w.extractLsb' 0 4))

/-- Major 0x43 (R87). -/
noncomputable def decode43 (w : Word) : Except Reject Instr :=
  .ok (.atomAnd (w.extractLsb' 18 7) (w.extractLsb' 11 7) (w.extractLsb' 4 7) (w.extractLsb' 0 4))

/-- Major 0x44 (R87). -/
noncomputable def decode44 (w : Word) : Except Reject Instr :=
  .ok (.atomOr (w.extractLsb' 18 7) (w.extractLsb' 11 7) (w.extractLsb' 4 7) (w.extractLsb' 0 4))

/-- Major 0x45 (R87). -/
noncomputable def decode45 (w : Word) : Except Reject Instr :=
  .ok (.atomXor (w.extractLsb' 18 7) (w.extractLsb' 11 7) (w.extractLsb' 4 7) (w.extractLsb' 0 4))

/-- Major 0x46 (R87). -/
noncomputable def decode46 (w : Word) : Except Reject Instr :=
  .ok (.atomExch (w.extractLsb' 18 7) (w.extractLsb' 11 7) (w.extractLsb' 4 7) (w.extractLsb' 0 4))

/-- Major 0x47 (R87). -/
noncomputable def decode47 (w : Word) : Except Reject Instr :=
  .ok (.cas (w.extractLsb' 18 7) (w.extractLsb' 11 7) (w.extractLsb' 4 7) (w.extractLsb' 0 4))

/-- Major 0x48 (R87). -/
noncomputable def decode48 (w : Word) : Except Reject Instr :=
  if w.extractLsb' 11 14 = 0 ∧ w.extractLsb' 3 1 = 0 then .ok (.waitc (w.extractLsb' 4 7) (w.extractLsb' 0 3))
  else
  if w.extractLsb' 3 1 = 1 then .ok (.yieldc (w.extractLsb' 11 14) (w.extractLsb' 4 7) (w.extractLsb' 0 3))
  else .error (.unlistedForm 0x48)

/-- Major 0x49 (R87). -/
noncomputable def decode49 (w : Word) : Except Reject Instr :=
  if w.extractLsb' 0 11 = 0 then .ok (.cpy (w.extractLsb' 21 4) (w.extractLsb' 17 4) (w.extractLsb' 11 6))
  else
  if w.extractLsb' 0 11 = 1 then .ok (.cpy2d (w.extractLsb' 21 4) (w.extractLsb' 17 4) (w.extractLsb' 11 6))
  else .error (.unlistedForm 0x49)

/-- Major 0x4A (R87). -/
noncomputable def decode4A (w : Word) : Except Reject Instr :=
  if w.extractLsb' 0 25 = 0 then .ok (.openw)
  else
  if w.extractLsb' 0 25 = 1 then .ok (.closew)
  else .error (.unlistedForm 0x4A)

/-- Major 0x4B (R87). -/
noncomputable def decode4B (w : Word) : Except Reject Instr :=
  if w.extractLsb' 0 25 = 0 then .ok (.l1inv)
  else
  if w.extractLsb' 0 25 = 1 then .ok (.l1wb)
  else .error (.unlistedForm 0x4B)

/-- Major 0x50 (R87). -/
noncomputable def decode50 (w : Word) : Except Reject Instr :=
  if w.extractLsb' 18 7 = 0 ∧ w.extractLsb' 0 11 = 0 then .ok (.arm (w.extractLsb' 11 7))
  else
  if w.extractLsb' 18 7 = 0 ∧ w.extractLsb' 0 11 = 1 then .ok (.disarm (w.extractLsb' 11 7))
  else .error (.unlistedForm 0x50)

/-- Major 0x51 (R87). -/
noncomputable def decode51 (w : Word) : Except Reject Instr :=
  if w.extractLsb' 0 4 = 0 then .ok (.mma (w.extractLsb' 18 7) (w.extractLsb' 11 7) (w.extractLsb' 4 7))
  else
  if w.extractLsb' 0 4 = 1 then .ok (.mmaQ (w.extractLsb' 18 7) (w.extractLsb' 11 7) (w.extractLsb' 4 7))
  else
  if w.extractLsb' 0 4 = 2 then .ok (.mmaG (w.extractLsb' 18 7) (w.extractLsb' 11 7) (w.extractLsb' 4 7))
  else .error (.unlistedForm 0x51)

/-- Major 0x52 (R87). -/
noncomputable def decode52 (w : Word) : Except Reject Instr :=
  if w.extractLsb' 0 4 = 0 then .ok (.drain (w.extractLsb' 18 7) (w.extractLsb' 11 7) (w.extractLsb' 4 7))
  else
  if w.extractLsb' 0 18 = 1 then .ok (.czero (w.extractLsb' 18 7))
  else
  if w.extractLsb' 0 7 = 2 then .ok (.cld (w.extractLsb' 18 7) (w.extractLsb' 11 7) (w.extractLsb' 7 4))
  else
  if w.extractLsb' 0 7 = 3 then .ok (.cst (w.extractLsb' 18 7) (w.extractLsb' 11 7) (w.extractLsb' 7 4))
  else .error (.unlistedForm 0x52)

/-- Major 0x53 (R87). -/
noncomputable def decode53 (w : Word) : Except Reject Instr :=
  if w.extractLsb' 0 18 = 0 then .ok (.mbatch (w.extractLsb' 18 7))
  else
  if w.extractLsb' 18 7 = 0 ∧ w.extractLsb' 0 11 = 1 then .ok (.waitb (w.extractLsb' 11 7))
  else .error (.unlistedForm 0x53)

/-- Major 0x54 (R87). -/
noncomputable def decode54 (w : Word) : Except Reject Instr :=
  if w.extractLsb' 0 4 = 0 then .ok (.wfwd (w.extractLsb' 18 7) (w.extractLsb' 11 7) (w.extractLsb' 4 7))
  else
  if w.extractLsb' 0 11 = 1 then .ok (.winv (w.extractLsb' 18 7) (w.extractLsb' 11 7))
  else
  if w.extractLsb' 11 14 = 0 ∧ w.extractLsb' 0 4 = 2 then .ok (.wthr (w.extractLsb' 4 7))
  else
  if w.extractLsb' 0 11 = 3 then .ok (.wtag (w.extractLsb' 18 7) (w.extractLsb' 11 7))
  else .error (.unlistedForm 0x54)

/-- Major 0x55 (R87). -/
noncomputable def decode55 (w : Word) : Except Reject Instr :=
  if w.extractLsb' 0 7 = 0 then .ok (.skinit (w.extractLsb' 18 7) (w.extractLsb' 11 7) (w.extractLsb' 7 4))
  else
  if w.extractLsb' 0 7 = 1 then .ok (.skmerge (w.extractLsb' 18 7) (w.extractLsb' 11 7) (w.extractLsb' 7 4))
  else
  if w.extractLsb' 18 7 = 0 ∧ w.extractLsb' 0 7 = 2 then .ok (.skfold (w.extractLsb' 11 7) (w.extractLsb' 7 4))
  else
  if w.extractLsb' 11 7 = 0 ∧ w.extractLsb' 0 4 = 3 then .ok (.skstat (w.extractLsb' 18 7) (w.extractLsb' 4 7))
  else
  if w.extractLsb' 5 2 = 0 ∧ w.extractLsb' 0 4 = 4 then .ok (.skdel (w.extractLsb' 18 7) (w.extractLsb' 11 7) (w.extractLsb' 7 4) (w.extractLsb' 4 1))
  else .error (.unlistedForm 0x55)

/-- Major 0x58 (R87). -/
noncomputable def decode58 (w : Word) : Except Reject Instr :=
  if w.extractLsb' 0 7 = 0 then .ok (.collSum (w.extractLsb' 18 7) (w.extractLsb' 11 7) (w.extractLsb' 7 4))
  else
  if w.extractLsb' 0 7 = 1 then .ok (.collMin (w.extractLsb' 18 7) (w.extractLsb' 11 7) (w.extractLsb' 7 4))
  else
  if w.extractLsb' 0 7 = 2 then .ok (.collMax (w.extractLsb' 18 7) (w.extractLsb' 11 7) (w.extractLsb' 7 4))
  else
  if w.extractLsb' 0 7 = 3 then .ok (.collNse (w.extractLsb' 18 7) (w.extractLsb' 11 7) (w.extractLsb' 7 4))
  else
  if w.extractLsb' 0 7 = 4 then .ok (.collNsb (w.extractLsb' 18 7) (w.extractLsb' 11 7) (w.extractLsb' 7 4))
  else
  if w.extractLsb' 0 7 = 5 then .ok (.collSkm (w.extractLsb' 18 7) (w.extractLsb' 11 7) (w.extractLsb' 7 4))
  else .error (.unlistedForm 0x58)

/-- Major 0x59 (R87). -/
noncomputable def decode59 (w : Word) : Except Reject Instr :=
  if w.extractLsb' 0 4 = 0 then .ok (.mcst (w.extractLsb' 18 7) (w.extractLsb' 11 7) (w.extractLsb' 4 7))
  else .error (.unlistedForm 0x59)

/-- Major 0x5A (R87). -/
noncomputable def decode5A (w : Word) : Except Reject Instr :=
  if w.extractLsb' 0 11 = 0 then .ok (.grpchg (w.extractLsb' 18 7) (w.extractLsb' 11 7))
  else .error (.unlistedForm 0x5A)

/-- Major 0x5B (R87). -/
noncomputable def decode5B (w : Word) : Except Reject Instr :=
  if w.extractLsb' 0 3 = 0 then .ok (.gredAdd (w.extractLsb' 18 7) (w.extractLsb' 11 7) (w.extractLsb' 7 4) (w.extractLsb' 4 3) (w.extractLsb' 3 1))
  else
  if w.extractLsb' 0 3 = 1 then .ok (.gredMin (w.extractLsb' 18 7) (w.extractLsb' 11 7) (w.extractLsb' 7 4) (w.extractLsb' 4 3) (w.extractLsb' 3 1))
  else
  if w.extractLsb' 0 3 = 2 then .ok (.gredMax (w.extractLsb' 18 7) (w.extractLsb' 11 7) (w.extractLsb' 7 4) (w.extractLsb' 4 3) (w.extractLsb' 3 1))
  else .error (.unlistedForm 0x5B)

/-- Major 0x5C (R87). -/
noncomputable def decode5C (w : Word) : Except Reject Instr :=
  if w.extractLsb' 0 4 = 0 then .ok (.stopeLoad (w.extractLsb' 18 7) (w.extractLsb' 11 7) (w.extractLsb' 4 7))
  else
  if w.extractLsb' 18 7 = 0 ∧ w.extractLsb' 0 11 = 1 then .ok (.stopeRun (w.extractLsb' 11 7))
  else
  if w.extractLsb' 0 11 = 2 then .ok (.stopeWait (w.extractLsb' 18 7) (w.extractLsb' 11 7))
  else .error (.unlistedForm 0x5C)

/-- Major 0x5D (R87). -/
noncomputable def decode5D (w : Word) : Except Reject Instr :=
  if w.extractLsb' 0 7 = 0 then .ok (.launch (w.extractLsb' 18 7) (w.extractLsb' 11 7) (w.extractLsb' 7 4))
  else .error (.unlistedForm 0x5D)

/-- Major 0x5E (R87). -/
noncomputable def decode5E (w : Word) : Except Reject Instr :=
  if w.extractLsb' 11 14 = 0 ∧ w.extractLsb' 0 4 = 0 then .ok (.trap (w.extractLsb' 4 7))
  else
  if w.extractLsb' 0 25 = 1 then .ok (.rtt)
  else .error (.unlistedForm 0x5E)

/-- Major 0x5F (R87). -/
noncomputable def decode5F (w : Word) : Except Reject Instr :=
  if w.extractLsb' 0 4 = 0 then .ok (.sys (w.extractLsb' 18 7) (w.extractLsb' 11 7) (w.extractLsb' 4 7))
  else .error (.unlistedForm 0x5F)

/-- Major 0x60 (R87). -/
noncomputable def decode60 (w : Word) : Except Reject Instr :=
  if w.extractLsb' 18 7 = 0 ∧ w.extractLsb' 0 11 = 0 then .ok (.settmr (w.extractLsb' 11 7))
  else
  if w.extractLsb' 18 7 = 0 ∧ w.extractLsb' 0 11 = 1 then .ok (.settmrRel (w.extractLsb' 11 7))
  else .error (.unlistedForm 0x60)

/-- Major 0x61 (R87). -/
noncomputable def decode61 (w : Word) : Except Reject Instr :=
  if w.extractLsb' 0 11 = 0 then .ok (.snap (w.extractLsb' 18 7) (w.extractLsb' 11 7))
  else .error (.unlistedForm 0x61)

/-- Major 0x62 (R87). -/
noncomputable def decode62 (w : Word) : Except Reject Instr :=
  if w.extractLsb' 0 25 = 0 then .ok (.bkpt)
  else .error (.unlistedForm 0x62)

/-- Major 0x63 (R87). -/
noncomputable def decode63 (w : Word) : Except Reject Instr :=
  if w.extractLsb' 18 7 = 0 ∧ w.extractLsb' 0 11 = 0 then .ok (.replayTok (w.extractLsb' 11 7))
  else
  if w.extractLsb' 18 7 = 0 ∧ w.extractLsb' 0 11 = 1 then .ok (.replayPg (w.extractLsb' 11 7))
  else .error (.unlistedForm 0x63)

/-- Major 0x7F (R87). -/
noncomputable def decode7F (w : Word) : Except Reject Instr :=
  .ok (.clauseHeader (w.extractLsb' 13 12) (w.extractLsb' 9 4) (w.extractLsb' 5 4) (w.extractLsb' 2 3) (w.extractLsb' 1 1) (w.extractLsb' 0 1))

/-- The instruction that a 32-bit word holds, or why it holds none (R86, R88). -/
noncomputable def decode (w : Word) : Except Reject Instr :=
  match (w.extractLsb' 25 7).toNat with
  | 0x01 => decode01 w
  | 0x02 => decode02 w
  | 0x03 => decode03 w
  | 0x04 => decode04 w
  | 0x05 => decode05 w
  | 0x06 => decode06 w
  | 0x07 => decode07 w
  | 0x08 => decode08 w
  | 0x09 => decode09 w
  | 0x0A => decode0A w
  | 0x0B => decode0B w
  | 0x0C => decode0C w
  | 0x0D => decode0D w
  | 0x0E => decode0E w
  | 0x0F => decode0F w
  | 0x10 => decode10 w
  | 0x11 => decode11 w
  | 0x12 => decode12 w
  | 0x13 => decode13 w
  | 0x14 => decode14 w
  | 0x15 => decode15 w
  | 0x16 => decode16 w
  | 0x17 => decode17 w
  | 0x18 => decode18 w
  | 0x19 => decode19 w
  | 0x1A => decode1A w
  | 0x1B => decode1B w
  | 0x1C => decode1C w
  | 0x1D => decode1D w
  | 0x1E => decode1E w
  | 0x1F => decode1F w
  | 0x20 => decode20 w
  | 0x21 => decode21 w
  | 0x22 => decode22 w
  | 0x23 => decode23 w
  | 0x28 => decode28 w
  | 0x29 => decode29 w
  | 0x2A => decode2A w
  | 0x2B => decode2B w
  | 0x2C => decode2C w
  | 0x2D => decode2D w
  | 0x2E => decode2E w
  | 0x2F => decode2F w
  | 0x30 => decode30 w
  | 0x31 => decode31 w
  | 0x32 => decode32 w
  | 0x33 => decode33 w
  | 0x38 => decode38 w
  | 0x39 => decode39 w
  | 0x3A => decode3A w
  | 0x3B => decode3B w
  | 0x3C => decode3C w
  | 0x3D => decode3D w
  | 0x3E => decode3E w
  | 0x3F => decode3F w
  | 0x40 => decode40 w
  | 0x41 => decode41 w
  | 0x42 => decode42 w
  | 0x43 => decode43 w
  | 0x44 => decode44 w
  | 0x45 => decode45 w
  | 0x46 => decode46 w
  | 0x47 => decode47 w
  | 0x48 => decode48 w
  | 0x49 => decode49 w
  | 0x4A => decode4A w
  | 0x4B => decode4B w
  | 0x50 => decode50 w
  | 0x51 => decode51 w
  | 0x52 => decode52 w
  | 0x53 => decode53 w
  | 0x54 => decode54 w
  | 0x55 => decode55 w
  | 0x58 => decode58 w
  | 0x59 => decode59 w
  | 0x5A => decode5A w
  | 0x5B => decode5B w
  | 0x5C => decode5C w
  | 0x5D => decode5D w
  | 0x5E => decode5E w
  | 0x5F => decode5F w
  | 0x60 => decode60 w
  | 0x61 => decode61 w
  | 0x62 => decode62 w
  | 0x63 => decode63 w
  | 0x7F => decode7F w
  | op => .error (.unassignedMajor op)

/-- The word that encodes an instruction; 0, an unassigned word, for the steps that have no word. -/
def encode (i : Instr) : Word :=
  match i with
  | .clauseHeader w a b l e y => 0x7F#7 ++ w ++ a ++ b ++ l ++ e ++ y
  | .bra p n c o => 0x01#7 ++ p ++ n ++ c ++ o ++ 0#4
  | .brs p n o => 0x01#7 ++ p ++ n ++ 1#1 ++ o ++ 1#4
  | .call o => 0x01#7 ++ 0#5 ++ o ++ 2#4
  | .ret p n c => 0x01#7 ++ p ++ n ++ c ++ 3#20
  | .ifThen p n o => 0x01#7 ++ p ++ n ++ 1#1 ++ o ++ 4#4
  | .elseThen o => 0x01#7 ++ 0#5 ++ o ++ 5#4
  | .loop o => 0x01#7 ++ 0#5 ++ o ++ 6#4
  | .endloop o => 0x01#7 ++ 0#5 ++ o ++ 7#4
  | .mark o => 0x01#7 ++ 0#5 ++ o ++ 8#4
  | .rptImm c l => 0x02#7 ++ c ++ l ++ 0#4
  | .rptReg k l => 0x02#7 ++ 0#7 ++ k ++ l ++ 8#4
  | .nop => 0x03#7 ++ 0#25
  | .endif => 0x03#7 ++ 1#25
  | .brk => 0x03#7 ++ 2#25
  | .cont => 0x03#7 ++ 3#25
  | .exit => 0x03#7 ++ 4#25
  | .join => 0x03#7 ++ 5#25
  | .yield => 0x03#7 ++ 6#25
  | .regang m => 0x03#7 ++ m ++ 7#17
  | .setm m => 0x04#7 ++ m ++ 0#9
  | .setmReg a => 0x04#7 ++ 0#7 ++ a ++ 1#11
  | .lim l => 0x05#7 ++ l
  | .limh h => 0x06#7 ++ 0#18 ++ h
  | .rdsr d a => 0x07#7 ++ d ++ a ++ 0#11
  | .rdsrS d a => 0x07#7 ++ d ++ a ++ 1#11
  | .wrsr a b => 0x07#7 ++ 0#7 ++ a ++ b ++ 2#4
  | .add d a b => 0x08#7 ++ d ++ a ++ b ++ 0#4
  | .addI d a i => 0x09#7 ++ d ++ a ++ i ++ 0#4
  | .addS d a b => 0x1A#7 ++ d ++ a ++ b ++ 0#4
  | .addSi d a i => 0x1B#7 ++ d ++ a ++ i ++ 0#4
  | .sub d a b => 0x08#7 ++ d ++ a ++ b ++ 1#4
  | .subI d a i => 0x09#7 ++ d ++ a ++ i ++ 1#4
  | .subS d a b => 0x1A#7 ++ d ++ a ++ b ++ 1#4
  | .subSi d a i => 0x1B#7 ++ d ++ a ++ i ++ 1#4
  | .addc d a b => 0x08#7 ++ d ++ a ++ b ++ 2#4
  | .addcI d a i => 0x09#7 ++ d ++ a ++ i ++ 2#4
  | .subb d a b => 0x08#7 ++ d ++ a ++ b ++ 3#4
  | .subbI d a i => 0x09#7 ++ d ++ a ++ i ++ 3#4
  | .mul d a b => 0x08#7 ++ d ++ a ++ b ++ 4#4
  | .mulI d a i => 0x09#7 ++ d ++ a ++ i ++ 4#4
  | .mulS d a b => 0x1A#7 ++ d ++ a ++ b ++ 4#4
  | .mulSi d a i => 0x1B#7 ++ d ++ a ++ i ++ 4#4
  | .mulh d a b => 0x08#7 ++ d ++ a ++ b ++ 5#4
  | .mulhI d a i => 0x09#7 ++ d ++ a ++ i ++ 5#4
  | .mulhS d a b => 0x1A#7 ++ d ++ a ++ b ++ 5#4
  | .mulhSi d a i => 0x1B#7 ++ d ++ a ++ i ++ 5#4
  | .idiv d a b => 0x08#7 ++ d ++ a ++ b ++ 6#4
  | .idivI d a i => 0x09#7 ++ d ++ a ++ i ++ 6#4
  | .idivS d a b => 0x1A#7 ++ d ++ a ++ b ++ 6#4
  | .idivSi d a i => 0x1B#7 ++ d ++ a ++ i ++ 6#4
  | .irem d a b => 0x08#7 ++ d ++ a ++ b ++ 7#4
  | .iremI d a i => 0x09#7 ++ d ++ a ++ i ++ 7#4
  | .iremS d a b => 0x1A#7 ++ d ++ a ++ b ++ 7#4
  | .iremSi d a i => 0x1B#7 ++ d ++ a ++ i ++ 7#4
  | .min d a b => 0x08#7 ++ d ++ a ++ b ++ 8#4
  | .minI d a i => 0x09#7 ++ d ++ a ++ i ++ 8#4
  | .minS d a b => 0x1A#7 ++ d ++ a ++ b ++ 8#4
  | .minSi d a i => 0x1B#7 ++ d ++ a ++ i ++ 8#4
  | .max d a b => 0x08#7 ++ d ++ a ++ b ++ 9#4
  | .maxI d a i => 0x09#7 ++ d ++ a ++ i ++ 9#4
  | .maxS d a b => 0x1A#7 ++ d ++ a ++ b ++ 9#4
  | .maxSi d a i => 0x1B#7 ++ d ++ a ++ i ++ 9#4
  | .andBits d a b => 0x0A#7 ++ d ++ a ++ b ++ 0#4
  | .andBitsI d a i => 0x0B#7 ++ d ++ a ++ i ++ 0#4
  | .andBitsS d a b => 0x1C#7 ++ d ++ a ++ b ++ 0#4
  | .andBitsSi d a i => 0x1D#7 ++ d ++ a ++ i ++ 0#4
  | .orBits d a b => 0x0A#7 ++ d ++ a ++ b ++ 1#4
  | .orBitsI d a i => 0x0B#7 ++ d ++ a ++ i ++ 1#4
  | .orBitsS d a b => 0x1C#7 ++ d ++ a ++ b ++ 1#4
  | .orBitsSi d a i => 0x1D#7 ++ d ++ a ++ i ++ 1#4
  | .xorBits d a b => 0x0A#7 ++ d ++ a ++ b ++ 2#4
  | .xorBitsI d a i => 0x0B#7 ++ d ++ a ++ i ++ 2#4
  | .xorBitsS d a b => 0x1C#7 ++ d ++ a ++ b ++ 2#4
  | .xorBitsSi d a i => 0x1D#7 ++ d ++ a ++ i ++ 2#4
  | .shl d a b => 0x0A#7 ++ d ++ a ++ b ++ 3#4
  | .shlI d a i => 0x0B#7 ++ d ++ a ++ i ++ 3#4
  | .shlS d a b => 0x1C#7 ++ d ++ a ++ b ++ 3#4
  | .shlSi d a i => 0x1D#7 ++ d ++ a ++ i ++ 3#4
  | .shr d a b => 0x0A#7 ++ d ++ a ++ b ++ 4#4
  | .shrI d a i => 0x0B#7 ++ d ++ a ++ i ++ 4#4
  | .shrS d a b => 0x1C#7 ++ d ++ a ++ b ++ 4#4
  | .shrSi d a i => 0x1D#7 ++ d ++ a ++ i ++ 4#4
  | .sar d a b => 0x0A#7 ++ d ++ a ++ b ++ 5#4
  | .sarI d a i => 0x0B#7 ++ d ++ a ++ i ++ 5#4
  | .sarS d a b => 0x1C#7 ++ d ++ a ++ b ++ 5#4
  | .sarSi d a i => 0x1D#7 ++ d ++ a ++ i ++ 5#4
  | .rot d a b => 0x0A#7 ++ d ++ a ++ b ++ 6#4
  | .rotI d a i => 0x0B#7 ++ d ++ a ++ i ++ 6#4
  | .rotS d a b => 0x1C#7 ++ d ++ a ++ b ++ 6#4
  | .rotSi d a i => 0x1D#7 ++ d ++ a ++ i ++ 6#4
  | .notBits d a => 0x0C#7 ++ d ++ a ++ 0#11
  | .notBitsS d a => 0x1E#7 ++ d ++ a ++ 0#11
  | .clz d a => 0x0C#7 ++ d ++ a ++ 1#11
  | .clzS d a => 0x1E#7 ++ d ++ a ++ 1#11
  | .popc d a => 0x0C#7 ++ d ++ a ++ 2#11
  | .popcS d a => 0x1E#7 ++ d ++ a ++ 2#11
  | .brev d a => 0x0C#7 ++ d ++ a ++ 3#11
  | .brevS d a => 0x1E#7 ++ d ++ a ++ 3#11
  | .abs d a => 0x0C#7 ++ d ++ a ++ 4#11
  | .absS d a => 0x1E#7 ++ d ++ a ++ 4#11
  | .mov d a => 0x0C#7 ++ d ++ a ++ 5#11
  | .movS d a => 0x1E#7 ++ d ++ a ++ 5#11
  | .movImm d i => 0x0D#7 ++ d ++ 0#7 ++ i ++ 5#4
  | .movSImm d i => 0x1F#7 ++ d ++ 0#7 ++ i ++ 5#4
  | .cmpEq d a b => 0x0E#7 ++ d ++ a ++ b ++ 0#4
  | .cmpEqI d a i => 0x0F#7 ++ d ++ a ++ i ++ 0#4
  | .cmpEqS d a b => 0x20#7 ++ d ++ a ++ b ++ 0#4
  | .cmpEqSi d a i => 0x21#7 ++ d ++ a ++ i ++ 0#4
  | .cmpNe d a b => 0x0E#7 ++ d ++ a ++ b ++ 1#4
  | .cmpNeI d a i => 0x0F#7 ++ d ++ a ++ i ++ 1#4
  | .cmpNeS d a b => 0x20#7 ++ d ++ a ++ b ++ 1#4
  | .cmpNeSi d a i => 0x21#7 ++ d ++ a ++ i ++ 1#4
  | .cmpLt d a b => 0x0E#7 ++ d ++ a ++ b ++ 2#4
  | .cmpLtI d a i => 0x0F#7 ++ d ++ a ++ i ++ 2#4
  | .cmpLtS d a b => 0x20#7 ++ d ++ a ++ b ++ 2#4
  | .cmpLtSi d a i => 0x21#7 ++ d ++ a ++ i ++ 2#4
  | .cmpLe d a b => 0x0E#7 ++ d ++ a ++ b ++ 3#4
  | .cmpLeI d a i => 0x0F#7 ++ d ++ a ++ i ++ 3#4
  | .cmpLeS d a b => 0x20#7 ++ d ++ a ++ b ++ 3#4
  | .cmpLeSi d a i => 0x21#7 ++ d ++ a ++ i ++ 3#4
  | .cmpGt d a b => 0x0E#7 ++ d ++ a ++ b ++ 4#4
  | .cmpGtI d a i => 0x0F#7 ++ d ++ a ++ i ++ 4#4
  | .cmpGtS d a b => 0x20#7 ++ d ++ a ++ b ++ 4#4
  | .cmpGtSi d a i => 0x21#7 ++ d ++ a ++ i ++ 4#4
  | .cmpGe d a b => 0x0E#7 ++ d ++ a ++ b ++ 5#4
  | .cmpGeI d a i => 0x0F#7 ++ d ++ a ++ i ++ 5#4
  | .cmpGeS d a b => 0x20#7 ++ d ++ a ++ b ++ 5#4
  | .cmpGeSi d a i => 0x21#7 ++ d ++ a ++ i ++ 5#4
  | .mad d a b => 0x10#7 ++ d ++ a ++ b ++ 0#4
  | .madS d a b => 0x22#7 ++ d ++ a ++ b ++ 0#4
  | .bfe d a b => 0x11#7 ++ d ++ a ++ b ++ 0#4
  | .bfeS d a b => 0x23#7 ++ d ++ a ++ b ++ 0#4
  | .bfi d a b => 0x11#7 ++ d ++ a ++ b ++ 1#4
  | .bfiS d a b => 0x23#7 ++ d ++ a ++ b ++ 1#4
  | .sel d a b n p => 0x12#7 ++ d ++ a ++ b ++ n ++ p
  | .laneLt d => 0x13#7 ++ d ++ 0#18
  | .laneLe d => 0x13#7 ++ d ++ 1#18
  | .laneGt d => 0x13#7 ++ d ++ 2#18
  | .laneGe d => 0x13#7 ++ d ++ 3#18
  | .laneEq d => 0x13#7 ++ d ++ 4#18
  | .shflIdx d m s => 0x14#7 ++ d ++ m ++ s ++ 0#4
  | .shflUp d m s => 0x14#7 ++ d ++ m ++ s ++ 1#4
  | .shflDown d m s => 0x14#7 ++ d ++ m ++ s ++ 2#4
  | .shflXor d m s => 0x14#7 ++ d ++ m ++ s ++ 3#4
  | .shflIdxI d m i => 0x15#7 ++ d ++ m ++ i ++ 0#4
  | .shflUpI d m i => 0x15#7 ++ d ++ m ++ i ++ 1#4
  | .shflDownI d m i => 0x15#7 ++ d ++ m ++ i ++ 2#4
  | .shflXorI d m i => 0x15#7 ++ d ++ m ++ i ++ 3#4
  | .voteAny d a m => 0x14#7 ++ d ++ a ++ m ++ 4#4
  | .voteAll d a m => 0x14#7 ++ d ++ a ++ m ++ 5#4
  | .voteUni d a m => 0x14#7 ++ d ++ a ++ m ++ 6#4
  | .ballot d a m => 0x14#7 ++ d ++ a ++ m ++ 7#4
  | .matchLanes d a m => 0x14#7 ++ d ++ a ++ m ++ 8#4
  | .redAdd d a m => 0x16#7 ++ d ++ a ++ m ++ 0#4
  | .redMin d a m => 0x16#7 ++ d ++ a ++ m ++ 1#4
  | .redMax d a m => 0x16#7 ++ d ++ a ++ m ++ 2#4
  | .redAnd d a m => 0x16#7 ++ d ++ a ++ m ++ 3#4
  | .redOr d a m => 0x16#7 ++ d ++ a ++ m ++ 4#4
  | .redXor d a m => 0x16#7 ++ d ++ a ++ m ++ 5#4
  | .scanAdd d a m => 0x16#7 ++ d ++ a ++ m ++ 8#4
  | .scanMin d a m => 0x16#7 ++ d ++ a ++ m ++ 9#4
  | .scanMax d a m => 0x16#7 ++ d ++ a ++ m ++ 10#4
  | .scanAnd d a m => 0x16#7 ++ d ++ a ++ m ++ 11#4
  | .scanOr d a m => 0x16#7 ++ d ++ a ++ m ++ 12#4
  | .scanXor d a m => 0x16#7 ++ d ++ a ++ m ++ 13#4
  | .resort a b => 0x17#7 ++ 0#7 ++ a ++ b ++ 0#4
  | .s2v d a => 0x18#7 ++ d ++ a ++ 0#11
  | .v2s d a => 0x18#7 ++ d ++ a ++ 1#11
  | .pand d a b => 0x19#7 ++ d ++ a ++ b ++ 0#4
  | .por d a b => 0x19#7 ++ d ++ a ++ b ++ 1#4
  | .pxor d a b => 0x19#7 ++ d ++ a ++ b ++ 2#4
  | .pnot d a => 0x19#7 ++ d ++ a ++ 3#11
  | .pmov d a => 0x19#7 ++ d ++ a ++ 4#11
  | .fadd d a b => 0x28#7 ++ d ++ a ++ b ++ 0#4
  | .fsub d a b => 0x28#7 ++ d ++ a ++ b ++ 1#4
  | .fmul d a b => 0x28#7 ++ d ++ a ++ b ++ 2#4
  | .fmin d a b => 0x28#7 ++ d ++ a ++ b ++ 3#4
  | .fmax d a b => 0x28#7 ++ d ++ a ++ b ++ 4#4
  | .fdiv d a b => 0x28#7 ++ d ++ a ++ b ++ 5#4
  | .faddI d a i => 0x29#7 ++ d ++ a ++ i ++ 0#4
  | .fsubI d a i => 0x29#7 ++ d ++ a ++ i ++ 1#4
  | .fmulI d a i => 0x29#7 ++ d ++ a ++ i ++ 2#4
  | .fminI d a i => 0x29#7 ++ d ++ a ++ i ++ 3#4
  | .fmaxI d a i => 0x29#7 ++ d ++ a ++ i ++ 4#4
  | .fdivI d a i => 0x29#7 ++ d ++ a ++ i ++ 5#4
  | .ffma d a b => 0x2A#7 ++ d ++ a ++ b ++ 0#4
  | .fcmpEq d a b => 0x2B#7 ++ d ++ a ++ b ++ 0#4
  | .fcmpNe d a b => 0x2B#7 ++ d ++ a ++ b ++ 1#4
  | .fcmpLt d a b => 0x2B#7 ++ d ++ a ++ b ++ 2#4
  | .fcmpLe d a b => 0x2B#7 ++ d ++ a ++ b ++ 3#4
  | .fcmpGt d a b => 0x2B#7 ++ d ++ a ++ b ++ 4#4
  | .fcmpGe d a b => 0x2B#7 ++ d ++ a ++ b ++ 5#4
  | .fcmpUn d a b => 0x2B#7 ++ d ++ a ++ b ++ 6#4
  | .fcmpOrd d a b => 0x2B#7 ++ d ++ a ++ b ++ 7#4
  | .frcp d a => 0x2C#7 ++ d ++ a ++ 0#11
  | .frsq d a => 0x2C#7 ++ d ++ a ++ 1#11
  | .fsqrt d a => 0x2C#7 ++ d ++ a ++ 2#11
  | .fexp2 d a => 0x2C#7 ++ d ++ a ++ 3#11
  | .flog2 d a => 0x2C#7 ++ d ++ a ++ 4#11
  | .fsin d a => 0x2C#7 ++ d ++ a ++ 5#11
  | .fcos d a => 0x2C#7 ++ d ++ a ++ 6#11
  | .ftanh d a => 0x2C#7 ++ d ++ a ++ 7#11
  | .fcvt d a s => 0x2D#7 ++ d ++ a ++ 0#7 ++ s
  | .fclass d a => 0x2E#7 ++ d ++ a ++ 0#11
  | .qcvt d a b => 0x2F#7 ++ d ++ a ++ b ++ 0#4
  | .dqcvt d a b => 0x2F#7 ++ d ++ a ++ b ++ 1#4
  | .bscale d a b => 0x2F#7 ++ d ++ a ++ b ++ 2#4
  | .had32 d a => 0x30#7 ++ d ++ a ++ 0#11
  | .rng d => 0x31#7 ++ d ++ 0#18
  | .rngseed a => 0x31#7 ++ 0#7 ++ a ++ 1#11
  | .pack d a i => 0x32#7 ++ d ++ a ++ i ++ 0#4
  | .unpack d a i => 0x32#7 ++ d ++ a ++ i ++ 1#4
  | .rdflg d n => 0x33#7 ++ d ++ 0#7 ++ n ++ 0#4
  | .clrflg m => 0x33#7 ++ 0#14 ++ m ++ 1#4
  | .ld d a b p u q => 0x38#7 ++ d ++ a ++ b ++ p ++ u ++ q ++ 0#2
  | .ldn d a b p u q => 0x38#7 ++ d ++ a ++ b ++ p ++ u ++ q ++ 1#2
  | .ldk d a b u => 0x38#7 ++ d ++ a ++ b ++ 0#3 ++ u ++ 2#3
  | .st d a b u => 0x39#7 ++ d ++ a ++ b ++ 0#3 ++ u ++ 0#3
  | .cstore d a b u => 0x39#7 ++ d ++ a ++ b ++ 0#3 ++ u ++ 1#3
  | .pref a b u => 0x39#7 ++ 0#7 ++ a ++ b ++ 0#3 ++ u ++ 2#3
  | .pgreq a b u => 0x39#7 ++ 0#7 ++ a ++ b ++ 0#3 ++ u ++ 3#3
  | .ldAcq d a o u b => 0x3A#7 ++ d ++ a ++ o ++ u ++ b
  | .stRel d a o u b => 0x3B#7 ++ d ++ a ++ o ++ u ++ b
  | .fenceAcq o => 0x3C#7 ++ 0#14 ++ o ++ 0#5
  | .fenceRel o => 0x3C#7 ++ 0#14 ++ o ++ 1#5
  | .fenceAr o => 0x3C#7 ++ 0#14 ++ o ++ 2#5
  | .bar => 0x3D#7 ++ 0#25
  | .abarInit d a b => 0x3D#7 ++ d ++ a ++ b ++ 1#7
  | .abarArr d a b => 0x3D#7 ++ d ++ a ++ b ++ 2#7
  | .abarWait d a b => 0x3D#7 ++ d ++ a ++ b ++ 3#7
  | .abarWd d a b => 0x3D#7 ++ d ++ a ++ b ++ 4#7
  | .tkacq a b => 0x3E#7 ++ 0#7 ++ a ++ b ++ 0#7
  | .tkrel a b => 0x3E#7 ++ 0#7 ++ a ++ b ++ 1#7
  | .bset d a => 0x3F#7 ++ d ++ a ++ 0#11
  | .bget d a => 0x3F#7 ++ d ++ a ++ 1#11
  | .atomAdd d a b n => 0x40#7 ++ d ++ a ++ b ++ n
  | .atomMin d a b n => 0x41#7 ++ d ++ a ++ b ++ n
  | .atomMax d a b n => 0x42#7 ++ d ++ a ++ b ++ n
  | .atomAnd d a b n => 0x43#7 ++ d ++ a ++ b ++ n
  | .atomOr d a b n => 0x44#7 ++ d ++ a ++ b ++ n
  | .atomXor d a b n => 0x45#7 ++ d ++ a ++ b ++ n
  | .atomExch d a b n => 0x46#7 ++ d ++ a ++ b ++ n
  | .cas d a b n => 0x47#7 ++ d ++ a ++ b ++ n
  | .waitc n c => 0x48#7 ++ 0#14 ++ n ++ 0#1 ++ c
  | .yieldc o n c => 0x48#7 ++ o ++ n ++ 1#1 ++ c
  | .cpy d s k => 0x49#7 ++ d ++ s ++ k ++ 0#11
  | .cpy2d d s k => 0x49#7 ++ d ++ s ++ k ++ 1#11
  | .openw => 0x4A#7 ++ 0#25
  | .closew => 0x4A#7 ++ 1#25
  | .l1inv => 0x4B#7 ++ 0#25
  | .l1wb => 0x4B#7 ++ 1#25
  | .arm a => 0x50#7 ++ 0#7 ++ a ++ 0#11
  | .disarm a => 0x50#7 ++ 0#7 ++ a ++ 1#11
  | .mma d a b => 0x51#7 ++ d ++ a ++ b ++ 0#4
  | .mmaQ d a b => 0x51#7 ++ d ++ a ++ b ++ 1#4
  | .mmaG d a b => 0x51#7 ++ d ++ a ++ b ++ 2#4
  | .drain d a b => 0x52#7 ++ d ++ a ++ b ++ 0#4
  | .czero d => 0x52#7 ++ d ++ 1#18
  | .cld d a b => 0x52#7 ++ d ++ a ++ b ++ 2#7
  | .cst d a b => 0x52#7 ++ d ++ a ++ b ++ 3#7
  | .mbatch d => 0x53#7 ++ d ++ 0#18
  | .waitb a => 0x53#7 ++ 0#7 ++ a ++ 1#11
  | .wfwd d a l => 0x54#7 ++ d ++ a ++ l ++ 0#4
  | .winv d a => 0x54#7 ++ d ++ a ++ 1#11
  | .wthr n => 0x54#7 ++ 0#14 ++ n ++ 2#4
  | .wtag d a => 0x54#7 ++ d ++ a ++ 3#11
  | .skinit d a b => 0x55#7 ++ d ++ a ++ b ++ 0#7
  | .skmerge d a b => 0x55#7 ++ d ++ a ++ b ++ 1#7
  | .skfold a b => 0x55#7 ++ 0#7 ++ a ++ b ++ 2#7
  | .skstat d n => 0x55#7 ++ d ++ 0#7 ++ n ++ 3#4
  | .skdel d a b u => 0x55#7 ++ d ++ a ++ b ++ 0#2 ++ u ++ 4#4
  | .collSum d a b => 0x58#7 ++ d ++ a ++ b ++ 0#7
  | .collMin d a b => 0x58#7 ++ d ++ a ++ b ++ 1#7
  | .collMax d a b => 0x58#7 ++ d ++ a ++ b ++ 2#7
  | .collNse d a b => 0x58#7 ++ d ++ a ++ b ++ 3#7
  | .collNsb d a b => 0x58#7 ++ d ++ a ++ b ++ 4#7
  | .collSkm d a b => 0x58#7 ++ d ++ a ++ b ++ 5#7
  | .mcst d a n => 0x59#7 ++ d ++ a ++ n ++ 0#4
  | .grpchg d a => 0x5A#7 ++ d ++ a ++ 0#11
  | .gredAdd d a b p u => 0x5B#7 ++ d ++ a ++ b ++ p ++ u ++ 0#3
  | .gredMin d a b p u => 0x5B#7 ++ d ++ a ++ b ++ p ++ u ++ 1#3
  | .gredMax d a b p u => 0x5B#7 ++ d ++ a ++ b ++ p ++ u ++ 2#3
  | .stopeLoad d a n => 0x5C#7 ++ d ++ a ++ n ++ 0#4
  | .stopeRun a => 0x5C#7 ++ 0#7 ++ a ++ 1#11
  | .stopeWait d a => 0x5C#7 ++ d ++ a ++ 2#11
  | .launch d a b => 0x5D#7 ++ d ++ a ++ b ++ 0#7
  | .trap n => 0x5E#7 ++ 0#14 ++ n ++ 0#4
  | .rtt => 0x5E#7 ++ 1#25
  | .sys d a n => 0x5F#7 ++ d ++ a ++ n ++ 0#4
  | .settmr a => 0x60#7 ++ 0#7 ++ a ++ 0#11
  | .settmrRel a => 0x60#7 ++ 0#7 ++ a ++ 1#11
  | .snap d a => 0x61#7 ++ d ++ a ++ 0#11
  | .bkpt => 0x62#7 ++ 0#25
  | .replayTok a => 0x63#7 ++ 0#7 ++ a ++ 0#11
  | .replayPg a => 0x63#7 ++ 0#7 ++ a ++ 1#11
  | .resortCompletion _ => 0
  | .barCompletion _ => 0
  | .abarPerform _ => 0
  | .abarWaitSatisfied _ => 0
  | .atomicPerform _ => 0
  | .copyEarlyEnd _ => 0
  | .engineRetire _ => 0
  | .armMacroConfigured _ _ => 0
  | .mmaQSetForm _ => 0
  | .matrixPass _ _ => 0
  | .passReplay _ _ => 0
  | .batchRetire _ => 0
  | .filtInsert _ => 0
  | .freqInsert _ => 0
  | .freqDelete _ => 0
  | .distInsert _ => 0
  | .quanInsert _ => 0
  | .quanDelete _ => 0
  | .filtQuery _ => 0
  | .freqQuery _ => 0
  | .distEstimate _ => 0
  | .quanQuery _ => 0
  | .sketchMergePerform _ => 0
  | .sketchFoldPerform _ => 0
  | .sketchInitPerform _ => 0
  | .collRequestAtRoot _ _ => 0
  | .collStepGrant _ => 0
  | .collStepResult _ => 0
  | .stepTimerExpiry _ => 0
  | .rankPark _ _ => 0
  | .rankUnpark _ _ => 0
  | .mcstSwitchReplicate _ => 0
  | .mcstMemberDelivery _ _ _ => 0
  | .mcstReplyCombine _ => 0
  | .mcstCompletionWrite _ => 0
  | .groupChangeApply _ => 0
  | .gredRetire _ => 0
  | .stopeLoadPerform _ => 0
  | .stopeRunStart _ => 0
  | .stopeUnitEnd _ _ => 0
  | .stopeRunRetire _ => 0
  | .stopeFault _ _ => 0
  | .leaseAbort _ _ => 0
  | .galleryReplay _ _ _ => 0
  | .clauseStart _ _ => 0
  | .ageThreshold _ _ => 0
  | .yieldHintExpiry _ _ => 0
  | .operationCompletion _ => 0
  | .trapEntry _ _ => 0
  | .timerTrap _ _ => 0
  | .faultRecordWrite _ => 0
  | .regangMerge _ _ => 0
  | .warpRetire _ => 0
  | .queueConfig _ _ _ _ => 0
  | .hostLaunchSubmit _ _ => 0
  | .contextQueuesSet _ _ _ _ _ => 0
  | .queueDispatch _ => 0
  | .crewPlacement _ => 0
  | .launchCompletion _ => 0
  | .contextStop _ => 0
  | .contextResume _ => 0
  | .cageReservationChange _ _ => 0
  | .partialEviction _ => 0
  | .evictedRestore _ => 0
  | .driftSwap _ => 0
  | .imageMove _ => 0
  | .contextMigrateResume _ _ => 0
  | .shootdown _ _ => 0
  | .l1Eviction _ _ => 0
  | .hwPrefetch _ _ => 0
  | .loadFillReturn _ => 0
  | .storePerformHome _ => 0
  | .fp4sStorePerform _ => 0
  | .missEntryGrant _ => 0
  | .tokenGrant _ _ => 0
  | .tokenPass _ _ => 0
  | .mapAccessPerform _ => 0
  | .fabAccessTarget _ _ => 0
  | .hostCxlAccess _ _ => 0
  | .windowRevoke _ _ => 0
  | .remapInstall _ _ _ _ => 0
  | .remapDrain _ _ => 0
  | .remapRetire _ _ => 0
  | .governorWindowEnd _ _ => 0
  | .timingCalibration _ _ => 0
  | .scrub _ => 0
  | .l2EvictUncorrectable _ => 0
  | .telemetryRecord _ => 0
  | .powerWindow _ => 0
  | .ceilingRaise _ => 0
  | .plimSet _ => 0
  | .sysEcho _ => 0
  | .sysRegisterTokenRegion _ => 0
  | .sysRemoveTokenRegion _ => 0
  | .sysMapWindow _ => 0
  | .sysRevokeWindow _ => 0
  | .sysClaimStopeChannel _ => 0
  | .sysReleaseStopeChannel _ => 0
  | .sysAnswer _ => 0
  | .boot _ _ => 0
  | .recoveryImage _ _ => 0
  | .msExtend _ _ => 0
  | .attestationReport _ => 0
  | .keySlotAssign _ _ => 0
  | .contextDestroy _ => 0
  | .shotPermission _ _ => 0
  | .debugEnableSet _ _ => 0
  | .shotTrigger _ => 0
  | .fabricShotMessage _ => 0
  | .shotRelease => 0
  | .spareRemap _ _ _ => 0
  | .linkLoss _ => 0
  | .controlClusterAccess _ _ => 0
  | .stopeClauseIssue _ _ => 0
  | .fabricReplyLimit _ _ => 0
  | .homeShareWriteback _ => 0
  | .memoryError _ _ => 0
  | .cxlCacheSnoop _ => 0
  | .groupTableWrite _ _ => 0
  | .contextSettings _ _ => 0
  | .snapshotExportGate _ => 0

/-- The four bytes of a word, lowest address first: code is stored little-endian (05_encoding). -/
def wordBytes (w : Word) : List (BitVec 8) :=
  [w.extractLsb' 0 8, w.extractLsb' 8 8, w.extractLsb' 16 8, w.extractLsb' 24 8]

/-- The word that four bytes hold, lowest address first. -/
def wordOfBytes (bs : List (BitVec 8)) : Word :=
  bs.getD 3 0 ++ bs.getD 2 0 ++ bs.getD 1 0 ++ bs.getD 0 0

/-- The decoder on bytes as they stand in memory: the instruction and the bytes after it. -/
noncomputable def decodeBytes (bs : List (BitVec 8)) : Except Reject (Instr × List (BitVec 8)) :=
  match decode (wordOfBytes bs) with
  | .ok i => .ok (i, bs.drop 4)
  | .error r => .error r

/-- The instruction read from an instruction whose bits are `w`, numbered as the opcode table numbers them. -/
noncomputable def decodeTableWord (_nbits w : Nat) : Option Instr :=
  match decodeBytes (wordBytes (BitVec.ofNat 32 w)) with
  | .ok (i, _) => some i
  | .error _ => none

end Sys2Proof
end

