-- ==== Sys2Proof/Config.lean ====
section
/-! DEFINITION. What one implementation fixes and what the manual leaves free.  A constant without a body is a free
value: nothing can be proved about which value it has (notes/assumptions/2). -/

namespace Sys2Proof.Config

/-- Core cycles that pass in the n-th step of the machine, beyond the one of the step itself (R47, R69: the
manual fixes no duration). -/
opaque cycles : Nat → Nat
/-- Ticks of device time that pass in the n-th step of the machine (R69). -/
opaque ticks : Nat → Nat
/-- The n-th byte whose value the manual leaves open (R71: bytes of a copy from the first failing granule on). -/
opaque byte : Nat → BitVec 8
/-- The n-th 64-bit value that the manual leaves open. -/
opaque word : Nat → BitVec 64
/-- Which of several comes next, at the n-th choice, where the manual fixes no order (R190, R199, R203, R310). -/
opaque pick : Nat → Nat
/-- Does Headframe's policy permit a context (first) the register windows of another (second) (R243, R374: no step of the table
sets the policy)? -/
opaque windowAllowed : Nat → Nat → Bool
/-- log₂ of the size of an ECC granule: the manual gives no figure (R71). -/
opaque granuleLog : Nat
/-- Does the operand stage still hold a row that it has read, at the n-th look (R213: only what discards it is stated)? -/
opaque stageKeeps : Nat → Bool
/-- The highest step of the periphery's supply (R296: the manual gives no figure). -/
opaque supplySteps : Nat
/-- Does Headframe's policy, set at verification, allow a request of Gallery's: of a kind (0 extension of a measurement slot, 1
attestation report, 2 key slot, 3 export), for a slot or a context (R374: the manual gives no policy)? -/
opaque allows : Nat → Nat → Bool
/-- Has Gallery added a service beyond those of R368 under a number (R384: no step of the table adds one)? -/
opaque service : Nat → Bool
/-- The fabric port that the packets of a request use, given its number (R1: 24 ports; the manual gives no layout). -/
opaque portOf : Nat → Nat
/-- The second-tier channel that holds a physical address beyond the first tier (R1: 24 channels; the manual gives no layout). -/
opaque channelOf : Nat → Nat
/-- Is a physical address in a range that Gallery exposes to the host (R346: no step of the table sets the ranges)? -/
opaque hostVisible : Nat → Bool
/-- Is a physical address host memory (R346: the manual gives no range)? -/
opaque hostMemory : Nat → Bool
/-- The module's serial number (R376). -/
opaque serial : BitVec 64
/-- The signature of Headframe over a message, with a key that the manual does not give (R376). -/
opaque sign : List (BitVec 8) → BitVec 768

end Sys2Proof.Config
end

