-- ==== Sys2Proof/Machine/State.lean ====
section
/-! DEFINITION. The state of one D81 module, as plain data, and the state after power-on.  Sparse parts are tables
(`Tab`): a number that a table does not list reads as the value its comment names. -/

namespace Sys2Proof.Machine

/-- Why the machine stops.  Raised by every instruction word's meaning when no fragment is issuing, so that there is
no fragment whose word it could be.  Safe: the hardware issues a word only from a fragment, and `step` never asks. -/
inductive Fault where
  /-- raised by the meaning of an instruction word in a state where no fragment is issuing (R47); safe -/
  | noIssuingFragment
  deriving DecidableEq, Repr

/-- Why the machine refuses. -/
inductive Refusal where
  /-- raised by an arm of `exec` whose instruction has no meaning yet; safe -/
  | notModelled (mnemonic : String)
  deriving DecidableEq, Repr

/-! ## Fragments and slices -/

/-- The states of a fragment (R27). -/
inductive FragState where
  | ready | flagWait | regang | barrier | held | yielded | parked | trapped | done
  deriving DecidableEq, Repr

/-- KIND of a control-stack entry (R17). -/
inductive EntryKind where
  | ifEntry | loopEntry | rptEntry | callEntry | markEntry
  deriving DecidableEq, Repr

/-- A control-stack entry (R17). -/
structure StackEntry where
  kind : EntryKind
  mask : BitVec 4
  aux : BitVec 8
  target : Word
  count : Word
  deriving DecidableEq, Repr

/-- What a trap slot holds (R16, R52). -/
structure TrapSlot where
  pc : Addr
  cm : BitVec 4
  cause : Nat
  value : Word
  deriving DecidableEq, Repr

/-- What a slice owns (R16, R28). -/
structure Slice where
  cm : BitVec 4
  xm : BitVec 4
  /-- innermost entry first, at most 16 -/
  stack : List StackEntry
  /-- the loop-end registers in use, innermost first, at most 4 -/
  loopEnds : List Addr
  trap : Option TrapSlot
  flags : BitVec 12
  deriving DecidableEq, Repr

/-- The mark that an open region keeps of one slice (R58). -/
structure RegionSlice where
  slice : Nat
  cm : BitVec 4
  depth : Nat
  loopEnds : List Addr
  deriving DecidableEq, Repr

/-- An open idempotent region (R58). -/
structure Region where
  entry : Addr
  slices : List RegionSlice
  /-- the number of the first request that the region made -/
  since : Nat
  deriving DecidableEq, Repr

/-- A class-T cause that was raised and not yet taken (R52), and whether a slot of the fragment was filled then (R53). -/
structure Waiting where
  cause : Nat
  value : Word
  lanes : LaneMask
  inTrap : Bool
  deriving DecidableEq, Repr

/-- A clause in progress (R47, R80, R84): its words as fetched, the next word's position, the flags it ties, the
number of long-latency words it has and has issued, a long immediate that waits for its consumer, and the number of the
first request that it made. -/
structure Clause where
  header : Addr
  words : List Word
  pos : Nat
  setA : Nat
  setB : Nat
  longWords : Nat
  issued : Nat
  long : Option Word
  since : Nat
  deriving DecidableEq, Repr

/-- Where a parked fragment resumes (R52, R59). -/
inductive Restart where
  /-- at the open region's entry, or at the faulting clause's header when no region is open -/
  | replay
  /-- at the clause that the fragment would have started next (a trap handled as a fault) -/
  | boundary
  deriving DecidableEq, Repr

/-- A fragment of a warp: an entry of the split table (R23).  Its number is its lowest slice. -/
structure Frag where
  mask : SliceMask
  pc : Addr
  mode : Word
  state : FragState
  /-- a clause in progress, or suspended by a hold (R223) -/
  clause : Option Clause
  /-- is the clause suspended: a hold began, and no word of it has issued since (R223)? -/
  suspended : Bool
  region : Option Region
  age : Nat
  /-- passed over under rule 2 of R48 -/
  passed : Bool
  /-- class-T causes raised since the last boundary, in order -/
  raised : List Waiting
  /-- class-T causes that wait to be taken, lowest code first -/
  waiting : List Waiting
  /-- the request that the word it is held at waits for -/
  waitOp : Option Nat
  /-- address and slice mask of the `regang` it waits at (R25) -/
  gang : Option (Addr × SliceMask)
  /-- wait-table entry it is parked under (0: overflow), and where it resumes -/
  park : Option (Nat × Restart)
  deriving DecidableEq, Repr

/-! ## Warps -/

/-- The tags of a tile register (R76, R300): element-type code, level (0 SPATIAL) and survival map. -/
structure Tag where
  fmt : Nat
  level : Nat
  survival : Word
  deriving DecidableEq, Repr

/-- A register as an operand (R75); `sr` is a special register. -/
inductive Reg where
  | v (n : Nat) | p (n : Nat) | s (n : Nat) | b (n : Nat) | sr (n : Nat)
  deriving DecidableEq, Repr

/-- A pending register write of a long-latency word (R85), and the slices in which it is not yet covered. -/
structure Pending where
  op : Nat
  regs : List Reg
  flag : Nat
  slices : SliceMask
  deriving DecidableEq, Repr

/-- The counts of the outstanding-operation classes: cp, gr, co, st, fb (R75). -/
structure Counters where
  cp : Nat
  gr : Nat
  co : Nat
  st : Nat
  fb : Nat
  deriving DecidableEq, Repr

/-- How often each of NV, DZ, OF, UF, NX, SA was raised, in FLAGS bit order (R78, R158). -/
structure Exc where
  nv : Nat
  dz : Nat
  ov : Nat
  uf : Nat
  nx : Nat
  sa : Nat
  deriving DecidableEq, Repr

/-- A warp (R14, R28, R38, R77).  Unlisted: lane registers read as zero in every lane, uniform registers, buffer
records as 0, tile tags as fp32 and SPATIAL. -/
structure Warp where
  crew : Nat
  id : Nat
  lanes : Nat
  nregs : Nat
  v : Tab Lanes
  p : Tab LaneMask
  s : Tab DWord
  b : Tab (BitVec 128)
  tags : Tab Tag
  slices : List Slice
  frags : List Frag
  origLane : Lanes
  rdraw : Lanes
  rseed : Word
  recCount : Word
  status : Word
  flags : Word
  xc : Exc
  wtimer : DWord
  tmrthr : DWord
  /-- the fragment that the timer trap falls to, once one has reached a clause boundary with the timer due (R369) -/
  timerFor : Option Nat
  tvec : DWord
  wt : List Word
  wsel : Nat
  haarcnt : Word
  oc : Counters
  pending : List Pending
  batch : Word
  closedBatches : List Word
  window : Bool
  /-- a `closew` has let the window take no further access (R243) -/
  closing : Bool
  stopeMasks : Tab Word
  /-- the registers that hold an uncorrectable error (R71) -/
  bad : List Reg
  evicted : Bool
  retired : Bool
  deriving DecidableEq, Repr

/-! ## Records, queues and the wait table -/

/-- A queue in a context's memory (R57, R258, R324, R367): base, number of slots, next slot, records held back. -/
structure RecordQueue where
  base : Nat
  slots : Nat
  next : Nat
  held : List (List Word)
  deriving DecidableEq, Repr

/-- An entry of the wait table (R61). -/
inductive WaitEntry where
  /-- `emptied`: the moment of its last release, as a number that only grows -/
  | page (ctx granule : Nat) (released : Bool) (emptied : Nat)
  | token (ctx warp frag : Nat)
  deriving DecidableEq, Repr

/-! ## Requests in flight -/

/-- Where the bytes of an access stand: physical memory, the on-chip map (R193) or the fabric (R328). -/
inductive Place where
  | pa (a : Nat)
  | map (a : Addr)
  | fab (a : Addr)
  deriving DecidableEq, Repr

/-- Region types of pages (R192). -/
inductive PageType where
  | plain | fp4s | fp8e4 | fp8e5 | bf16 | haar | sketch
  deriving DecidableEq, Repr

/-- The page that an access reached (R192, R195, R196): the type it has for the access, physical base, log₂ size,
geometry word. -/
structure Page where
  type : PageType
  base : Nat
  log : Nat
  geom : Nat
  deriving DecidableEq, Repr

/-- The generator state that a word which rounds took at its issue (R84, R149): RSEED and every lane's RDRAW. -/
structure Draws where
  seed : Word
  counts : Lanes
  deriving DecidableEq, Repr

/-- One lane's part of an access (R187, R189): its address as formed, where it stands, its bytes when it writes; once a target in
this module has taken it as an access of its own, `addr` is its address there and `via` the fabric address (R330). -/
structure Access where
  lane : Nat
  addr : Addr
  place : Place
  size : Nat
  data : List (BitVec 8)
  via : Option Addr := none
  deriving DecidableEq, Repr

/-- What a request keeps of the word that made it (R56, R84). -/
structure Src where
  ctx : Nat
  warp : Nat
  slices : SliceMask
  header : Addr
  pos : Nat
  mode : Word
  lanes : LaneMask
  flag : Nat
  /-- the region that was open (R58, R59) -/
  region : Option Region
  /-- the number of the first request that a restart makes again: of the region's entry, or of the clause -/
  since : Nat
  recCount : Word
  /-- the index of the first element, of a `cstore` (R227) -/
  first : Option Nat
  /-- its word ended in a class-W fault that left other lanes their effect, so that it raises no flags (R157, R226) -/
  faulted : Bool
  deriving DecidableEq, Repr

/-- A write of a register that a long-latency word makes when it completes. -/
inductive RegWrite where
  | v (n : Nat) (m : LaneMask) (x : Lanes)
  | p (n : Nat) (m : LaneMask) (x : LaneMask)
  | s (n : Nat) (x : DWord)
  | tag (n : Nat) (t : Tag)
  /-- one more automatic reconstruction is counted (R303) -/
  | haarcnt
  deriving DecidableEq, Repr

/-- What the line requests of one load have in common (R54, R84, R189): the number of the first of them, destination, access
size, the draws, what the word writes besides the values of its lanes, and whether it is an ordinary `ld` (R179, R184). -/
structure LoadWord where
  first : Nat
  dest : Nat
  size : Nat
  draws : Draws
  also : List RegWrite
  ordinary : Bool
  deriving DecidableEq, Repr

/-- What one lane of a load has got: lane, bits, whether they fill a pair, what decoding raised, and whether they are elements
that the target of a fabric access showed to be typed (R330). -/
structure LaneValue where
  lane : Nat
  bits : Nat
  wide : Bool
  exc : Exc
  typed : Bool := false
  deriving DecidableEq, Repr

/-- The forms of `abar` (R236). -/
inductive AbarForm where
  | init | arr | wait | wd
  deriving DecidableEq, Repr

/-- The atomic operations (R230). -/
inductive AtomOp where
  | add | min | max | and | or | xor | exch | cas
  deriving DecidableEq, Repr

/-- One piece of a copy (R241): where it stands among the bytes of the copy, its length, where it is written and read,
and its destination address as formed. -/
structure CopyRow where
  pos : Nat
  len : Nat
  dst : Place
  src : Place
  addr : Addr
  deriving DecidableEq, Repr

/-- A unit of a stope run (R347): its registers as those of a warp of eight lanes whose code addresses count bytes of the
instruction store, whether it has ended, and its fault (kind, 7 for an abort; store word, address, lanes). -/
structure StopeUnit where
  w : Warp
  ended : Bool
  bad : Option (Nat × Nat × Addr × Nat)
  deriving DecidableEq, Repr

/-- What a stope run asks for (R353): channel (32 × stack + channel), banks, first store word, region and argument, and
the pages of the region as translated at issue: virtual address, physical address, bytes. -/
structure StopeRun where
  chan : Nat
  banks : Word
  entry : Nat
  base : Nat
  lines : Nat
  arg : DWord
  pages : List (Nat × Nat × Nat)
  deriving DecidableEq, Repr

/-- A multicast (R322 to R325): what is sent, the generation and members it is sent to (ascending), whether the
switches have replicated it, the replies (rank, cause, 0 for an ack), and whether they are combined at the port, at
which time. -/
structure Multicast where
  tag : Nat
  group : Nat
  window : Nat
  line : Nat
  data : List (BitVec 8)
  sent : Bool
  gen : Nat
  members : List Nat
  replicated : Bool
  replies : List (Nat × Nat)
  combined : Option DWord
  deriving DecidableEq, Repr

/-- A collective of one warp (R335, R336): the two words of the descriptor (group, elements, barrier index, sketch object),
operation, type and step, what its tile held, the tile, the barrier object, whether NaNs are skipped, and whether its
request has gone to the root. -/
structure Collective where
  desc : DWord
  object : DWord
  operation : Nat
  type : Nat
  step : Nat
  data : List (BitVec 64)
  tile : Nat
  bar : Access
  skip : Bool
  requested : Bool
  deriving DecidableEq, Repr

/-- What a request in flight does. -/
inductive OpKind where
  /-- a lane-arithmetic result that is written when the word completes (R84) -/
  | result (ws : List RegWrite) (exc : Exc)
  /-- one line request of a load (R189): page, whether the first-level cache serves and fills it, the accesses still to be
  performed, and what the others have got -/
  | load (word : LoadWord) (page : Page) (cached : Bool) (accs : List Access) (got : List LaneValue)
  /-- one line request of a store (R189), its bytes as encoded, with what encoding raised; `release` holds the
  observers of a `st.rel`.  A lane of a store to the fabric carries, until its target has accepted it, what the target needs to
  encode it (R330): see `fabBytes` -/
  | store (release : Option (BitVec 6)) (exc : Exc) (accs : List Access)
  /-- one line request of a store to an FP4S page (R198); the lanes' data are elements of MODE.TYPE -/
  | fp4s (page : Page) (draws : Draws) (accs : List Access)
  /-- one line request of a tile load (R189, R276, R306): page, whether the first-level cache serves and fills it, the start of
  the slot, the lanes that read it, the words still to be read (offset in the slot), and those read -/
  | tile (word : LoadWord) (page : Page) (cached : Bool) (slot : Access) (lanes : LaneMask) (words : List Nat) (got : List (Nat × Word))
  /-- inserts into sketch objects, or deletions: key size, cell steps done of the first lane, lanes left (R248, R260) -/
  | insert (delete : Bool) (esz step : Nat) (accs : List (Access × Page))
  /-- queries of sketch objects (R225): destination, key size, cells read for the first lane and the answer so far, lanes
  left, answers, lanes that fail with their causes, addresses and refusal codes -/
  | query (d esz step part : Nat) (accs : List (Access × Page)) (ans : List (Nat × Nat)) (bad : List (Nat × Nat × Addr × Nat))
  /-- a new sketch object: header words d0, d1 and the seeds (R315) -/
  | skinit (acc : Access) (page : Page) (hdr : List DWord)
  /-- a merge: destination and source (R316) -/
  | skmerge (dst src : Access) (dpage spage : Page)
  /-- a fold (R317) -/
  | skfold (acc : Access) (page : Page)
  /-- an atomic or `cas`: lanes still to be performed, ascending (R230) -/
  | atomic (aop : AtomOp) (d esz : Nat) (cmp : List (BitVec 64)) (accs : List Access)
  /-- an operation on a barrier object (R236) -/
  | abar (form : AbarForm) (value : Word) (acc : Access)
  /-- the arrival of a warp at `resort`: its lanes' keys and its live mask (R33) -/
  | resort (keys : Lanes) (live : DWord)
  /-- the core's token of a region is to leave it (R238): context and region number -/
  | tokenRelease (ctx region : Nat)
  /-- a `tkacq` is held until its core has the token of a region (R238): context and base of the region -/
  | tokenAcquire (ctx base : Nat)
  /-- macros are to be configured (R277) -/
  | arm (crew : Nat) (desc : DWord)
  /-- macros are to lose their configuration (R289) -/
  | disarm (crew : Nat) (desc : DWord)
  /-- a `drain` in the matrix engine (R292) -/
  | drain
  /-- a warp's register window is to close (R243) -/
  | closeWindow
  /-- sectors to be filled for `pref` (R228) -/
  | prefetch (sectors : List Nat)
  /-- records of a `pgreq` that the fault queue is still to accept (R229) -/
  | pageRequest (records : List (List Word))
  /-- a copy (R241): whether it counts in oc.fb, whether the destination's record is RAW, the 64 KiB granules of both ranges, whose
  translations it holds until it retires, and the pieces still to be written -/
  | copy (fb raw : Bool) (granules : List Nat) (rows : List CopyRow)
  /-- a gather-reduce (R355): operation, destination, predicate, lanes not exited, elements still to be read, and what
  was read: 32 × bank key + lane, and the value -/
  | gred (gop d p : Nat) (alive : LaneMask) (left : List Access) (got : List (Nat × Nat))
  /-- a stope program to be loaded (R353): channel, first store word, virtual address, and the places of the words not yet
  loaded -/
  | stopeLoad (chan off va : Nat) (places : List Nat)
  /-- a stope run (R353): whether it has started, and its units by bank -/
  | stopeRun (run : StopeRun) (started : Bool) (units : Tab StopeUnit)
  /-- a multicast (R322) -/
  | mcst (m : Multicast)
  /-- a collective (R336) -/
  | coll (c : Collective)
  /-- a change of a group's membership (R342) -/
  | grpchg (d group rank : Nat) (remove : Bool)
  /-- a request to Gallery (R366): service, argument, destination, sequence number, and the answer once it is known -/
  | sys (svc : Nat) (arg : DWord) (d : Nat) (seq : Word) (answer : Option DWord)
  deriving DecidableEq, Repr

/-- A request in flight.  Requests stand in issue order. -/
structure Op where
  id : Nat
  kind : OpKind
  src : Src
  /-- it holds the miss-status entries or the write-buffer slot that it needs (R190) -/
  granted : Bool
  /-- completed in the sense of R84: its flag no longer waits for it -/
  completed : Bool
  /-- when it completed before it was performed: what issues from this request number on is performed after it (R181) -/
  doneAt : Nat
  /-- the number of the first of the requests that its word made at once (R189) -/
  word : Nat
  deriving DecidableEq, Repr

/-- A sector of a first-level cache (R199): its 64 bytes, which of its bytes are dirty (R200), for each warp those of them that
it wrote (R207, R208), and whether the sector holds an uncorrectable error (R71). -/
structure Sector where
  bytes : List (BitVec 8)
  dirty : BitVec 64
  writers : Tab (BitVec 64)
  bad : Bool
  deriving DecidableEq, Repr

/-- A sharer of a line (R201, R202): a near slice, a peer module or the host's cache. -/
inductive SharerId where
  | near (slice : Nat) | peer (module : Nat) | host
  deriving DecidableEq, Repr

/-- A sharer record of a line (R202): the span and the words that are valid there. -/
structure Sharer where
  who : SharerId
  first : Nat
  last : Nat
  valid : BitVec 64
  deriving DecidableEq, Repr

/-- The lease of a stope kernel over a region (R206, R354): the operation, its context and the physical ranges. -/
structure Lease where
  op : Nat
  ctx : Nat
  ranges : List (Nat × Nat)
  deriving DecidableEq, Repr

/-- A cached translation (R191): context, base and log₂ size of the page, and the two words of its leaf. -/
structure Translation where
  ctx : Nat
  base : Nat
  log : Nat
  w0 : DWord
  w1 : DWord
  deriving DecidableEq, Repr

/-- A token region of a context (R205): its holder, those that ask for the token, oldest first (a core by its number, another agent
as `outsider` numbers it), the warps of the holder that took it by `tkacq` and have not given it up (R220), and, once the holder is
to give it up, the number of the first request that it no longer makes under the token. -/
structure TokenRegion where
  base : Nat
  log : Nat
  holder : Option Nat
  asking : List Nat
  keepers : List Nat
  leaving : Option Nat
  deriving DecidableEq, Repr

/-- A write of an agent outside this module's cores that waits at the home for a token or the end of a lease (R205, R206): a line's
bytes, or a peer's access at the virtual address that its window gave. -/
inductive OutsideWrite where
  | line (pa : Nat) (data : List (BitVec 8))
  | peer (x : PeerAccess) (va : Nat)
  deriving DecidableEq, Repr

/-! ## The matrix engine -/

/-- An accumulator tile (R278, R295): 64 rows of 32 words, level (0 SPATIAL), kind, empty mark, uncorrectable mark. -/
structure Acc where
  words : List Word
  level : Nat
  int : Bool
  empty : Bool
  bad : Bool
  deriving DecidableEq, Repr

/-- A tile as the engine read it at issue (R85, R288): its tags, its eight registers, and three registers of scales. -/
structure TileCopy where
  tag : Tag
  regs : List Lanes
  scales : List Lanes
  deriving DecidableEq, Repr

/-- What a `drain` asks for (R280). -/
structure DrainSpec where
  dest : Nat
  row : Nat
  rcon : Bool
  gate : Nat
  drop : Bool
  res : Option TileCopy
  p32 : Word
  row0 : Word
  col0 : Word
  seed : Word
  step : Word
  scale : Word
  thr : Word
  deriving DecidableEq, Repr

/-- A row of a tile in memory or scratchpad (R309), with the columns whose elements have still to be moved. -/
structure TileRow where
  acc : Access
  left : LaneMask
  deriving DecidableEq, Repr

/-- What an operation of the engine does (R277 to R280, R290, R309). -/
inductive MatKind where
  | czero
  /-- `mma`, and `mma.g` with a gate (1 ReLU, 2 THR) and threshold -/
  | mma (desc : DWord) (rb kb : Nat) (b : TileCopy) (gate : Nat) (thr : Word)
  /-- a member of a set of `mma.q`: the four tiles once the set is formed, and whether they agree -/
  | mmaq (desc : DWord) (rb kb : Nat) (b : TileCopy) (set : List TileCopy) (agree : Bool)
  | drain (op : Nat) (spec : DrainSpec) (draws : Draws)
  /-- a load of a tile, its 64 rows in order, with the elements that it has got (32 × row + column) -/
  | cld (level : Nat) (int : Bool) (rows : List TileRow) (got : List (Nat × Word))
  /-- a store of a tile -/
  | cst (rows : List TileRow)
  deriving DecidableEq, Repr

/-- An operation of the engine: whose it is, its batch and tile, whether it has been performed, what it raised, planes
skipped, failures of its passes, reconstructions. -/
structure MatOp where
  id : Nat
  src : Src
  batch : Word
  quad : Nat
  tile : Nat
  kind : MatKind
  done : Bool
  exc : Exc
  planes : Nat
  fails : Nat
  haar : Nat
  deriving DecidableEq, Repr

/-! ## Crews, cores, launches, contexts -/

/-- The governor of a quadrant (R296): passes and replays of the window, windows in a row with few replays, supply in
steps of 5 mV above its lowest, clock in MHz. -/
structure Governor where
  passes : Nat
  replays : Nat
  quiet : Nat
  supply : Nat
  clock : Nat
  deriving DecidableEq, Repr

/-- A core (R2, R77, R199, R213).  The operand stage holds 128-byte rows of scratchpad; a quadrant that `gov` does not
list has the governor of reset. -/
structure Core where
  l1 : Tab Sector
  stage : Tab (List (BitVec 8))
  gatecnt : DWord
  replaycnt : DWord
  /-- credit of each context with a resident warp (R49) -/
  credit : Tab Int
  gov : Tab Governor
  deriving DecidableEq, Repr

/-- Where a crew stands (R34, R35, R44, R65). -/
inductive CrewState where
  | resident | evicted | exited
  deriving DecidableEq, Repr

/-- A crew that has started (R34, R38). -/
structure Crew where
  ctx : Nat
  launch : Nat
  group : Nat
  idx : Nat
  row : Nat
  col : Nat
  cls : Nat
  /-- the core that it stands on; in a saved image, the virtual core (R4, R68) -/
  core : Nat
  /-- order of placement on cores, the later the greater -/
  placed : Nat
  state : CrewState
  spadMacros : Nat
  spad : Tab (BitVec 8)
  /-- granules of the scratchpad with an uncorrectable error (R71) -/
  spadBad : List Nat
  /-- the descriptor under which each armed macro is armed (R277) -/
  macros : Tab DWord
  /-- macros still to be configured, in `arm` issue order (R286) -/
  arming : List Nat
  /-- the accumulator tiles: 8 × quadrant + tile -/
  acc : Tab Acc
  /-- the operations of the matrix engine, in issue order (R284) -/
  engine : List MatOp
  /-- the next step of each warp in each group (R334): 64 × group + WARPID -/
  steps : Tab Nat
  /-- the saved image that holds it (R65, R66) -/
  image : Option Nat
  deriving DecidableEq, Repr

/-- A launch (R37): the words of its record as copied, the UREG and BREC values, its status and where it stands. -/
structure Launch where
  ctx : Nat
  record : Nat
  words : List Word
  ureg : List DWord
  brec : List (BitVec 128)
  status : Nat
  cls : Nat
  /-- its place in the order of dispatch -/
  dispatched : Option Nat
  drift : Tab Nat
  deriving DecidableEq, Repr

/-- A hardware launch queue (R41): launches waiting, in order of arrival. -/
structure LaunchQueue where
  owner : Option Nat
  cls : Nat
  enabled : Bool
  waiting : List Nat
  deriving DecidableEq, Repr

/-- How a context stands (R51). -/
inductive CtxState where
  | running | descheduled | stopped
  deriving DecidableEq, Repr

/-- A window of a context (R329): base in the owner's space, log₂ size, permissions, and whether it is revoked. -/
structure Window where
  base : Nat
  log : Nat
  rd : Bool
  wr : Bool
  revoked : Bool
  deriving DecidableEq, Repr

/-- A remap entry of a rank (R331): module, generation, the first request that uses it, and whether packets under the
entry before it have been sent again. -/
structure Remap where
  field : Nat
  module : Nat
  gen : Nat
  since : Nat
  drained : Bool
  deriving DecidableEq, Repr

/-- A context (R41, R44, R49, R188, R191, R364, R370, R386). -/
structure Context where
  state : CtxState
  root : Nat
  privileged : Bool
  debug : Bool
  shots : Bool
  weight : Nat
  drifts : List Nat
  rank : Nat
  faultQ : Option RecordQueue
  eventQ : Option RecordQueue
  statusQ : Option RecordQueue
  requestQ : Option RecordQueue
  seq : Word
  tokens : List TokenRegion
  /-- SATREP, RANGEREP, CLAMPREP, EVDROP (R259) -/
  skstats : List Word
  windows : Tab Window
  /-- per rank, the live entries, oldest first, at most two -/
  remap : Tab (List Remap)
  /-- the physical core behind a virtual one, where it is not the core at that place (R4, R68, R382) -/
  cores : Tab Nat
  /-- the physical bank (32: the spare) behind a bank of a channel, numbered 32 × channel + bank, where the table names one (R4, R382) -/
  banks : Tab Nat
  deriving DecidableEq, Repr

/-! ## Stope channels, images, fabric, trust, shots, power -/

/-- A stope channel (R349, R353, R382): its owner, its instruction store, and the bank that its spare stands in for. -/
structure Channel where
  owner : Option Nat
  store : Tab Word
  spare : Option Nat
  deriving DecidableEq, Repr

/-- A saved image (R65 to R68): die, size in bytes, whether it lies in shadow storage, the drift of a whole-drift swap, which of
the images of 16 cores that it consists of holds each crew, and whether it holds an uncorrectable error (R71). -/
structure Image where
  die : Nat
  size : Nat
  shadow : Bool
  drift : Option Nat
  slots : Tab Nat
  bad : Bool
  deriving DecidableEq, Repr

/-- How a step stands at the root of its group (R340): the outcomes of a failed one are given when they are told; a merge of
sketch objects that has been moving is `merged` once the objects stand in their places (R339). -/
inductive StepState where
  | opened | moving | merged | failed
  deriving DecidableEq, Repr

/-- A step of a group at its root (R340): its generation, its members, and its requests in order of arrival. -/
structure CollStep where
  no : Nat
  state : StepState
  gen : Nat
  members : List Nat
  requests : List CollRequest
  deriving DecidableEq, Repr

/-- The root of a group (R340, R343): steps that are OPEN, MOVING or FAILED, the lowest step not yet granted, and the
steps at which ranks joined. -/
structure CollRoot where
  next : Nat
  steps : List CollStep
  joined : Tab Nat
  deriving DecidableEq, Repr

/-- What the fabric holds for this module (R1, R321, R331, R340, R345, R377, R383): its own field and module number, the group
table, the groups' roots, parked ranks by context, what step timers reported, lost ranks, and of its 24 ports those whose links
are lost and the nacks that each has counted. -/
structure Fabric where
  me : Nat × Nat
  groups : Tab GroupSetting
  roots : Tab CollRoot
  parked : List (Nat × Nat)
  reports : List (Nat × Nat × List Nat)
  lost : List Nat
  down : List Nat
  nackCounts : Tab Nat
  deriving DecidableEq, Repr

/-- How a root port stands (R384): in reset, driven by Headframe on its read-only path to the Gallery image, or by Gallery. -/
inductive RootPort where
  | inReset | headframe | gallery
  deriving DecidableEq, Repr

/-- What Headframe holds (R373, R375, R376, R384): BOOTST's fields, the measurement slots, the contexts of key slots, how often
each slot has been cleared, the last attestation report, what went through the export gate (context and image, or none for its
snapshot registers, and the number of the key under which it left), and the two root ports. -/
structure Trust where
  degraded : Bool
  fail : Nat
  stage : Nat
  code : Nat
  ms : List (BitVec 384)
  keys : Tab Nat
  cleared : Tab Nat
  report : List (BitVec 8)
  exports : List ((Nat × Option Nat) × Nat)
  rootPorts : RootPort × RootPort
  deriving DecidableEq, Repr

/-- What a shot latches of a warp (R377): number, PCs of its fragments, REC, STATUS, FLAGS, counters, WTIMER. -/
structure WarpShot where
  warp : Nat
  pcs : List Addr
  recCount : Word
  status : Word
  flags : Word
  oc : Counters
  wtimer : DWord
  deriving DecidableEq, Repr

/-- A memory controller: of one of the eight first-tier stacks (0 to 7) or of the 24 second-tier channels (8 to 31): corrected
errors, uncorrectable granules found, and the position of the scrubber (R1, R377, R379). -/
structure Controller where
  corrected : Nat
  uncorrectable : Nat
  scrubAt : Nat
  deriving DecidableEq, Repr

/-- What a shot latches (R377): why and when, the tag, warps, GATECNT and REPLAYCNT of cores, token holders, occupancy
of the translation caches, corrected and uncorrectable counts, sharers per home slice, scrub position, the memory controllers,
owners, running banks and depths of stope channels, generations in use, packets outstanding and nacks counted at each port, hits and misses of the slices,
queue heads with their STATUS, placement lists, the cage reservation. -/
structure Shot where
  source : ShotSource
  tag : Option Word
  time : DWord
  warps : List WarpShot
  cores : Tab (DWord × DWord)
  holders : List (Nat × List (Option Nat))
  tlb : Tab Nat
  corrected : Nat
  uncorrectable : Nat
  sharers : Tab Nat
  scrubAt : Nat
  controllers : Tab Controller
  channels : Tab (Option Nat × List Nat × Nat)
  ports : Tab (List (Nat × Nat))
  packets : Tab Nat
  slices : List (DWord × DWord)
  nackCounts : Tab Nat
  queues : Tab (Option (Nat × Nat))
  placement : List (List (Nat × Nat))
  cage : List Nat
  deriving DecidableEq, Repr

/-- A window of a governor that has ended (R296, R380): core, quadrant, replays and passes. -/
structure GovWindow where
  core : Nat
  quad : Nat
  replays : Nat
  passes : Nat
  deriving DecidableEq, Repr

/-- A telemetry record (R380): core, quadrant, clock and supply of every quadrant, the governor windows that have ended since the
record before it, temperatures of the dies, power, corrected errors in all and by block. -/
structure Telemetry where
  time : DWord
  quads : List (Nat × Nat × Nat × Nat)
  windows : List GovWindow
  temps : List DWord
  watts : Nat
  corrected : Nat
  blocks : Tab Nat
  controllers : Tab Controller
  deriving DecidableEq, Repr

/-- Power, telemetry, errors and spares (R71, R373, R378, R380 to R382): limit in watts, ceiling in MHz, records, governor windows
not yet recorded, granules with a soft error, corrected errors in all, those of blocks other than memory (a core by its number, the
shadow storage of a die after them, then the L2 slices), scrub position, the memory controllers, those of stacks and channels that
failed training and are left unused, the error events that Gallery masks as sources of a shot (double trap 0, failed pass 1,
scrubber 2, link 3, stope 4), and the spare of its die that stands in for a core. -/
structure Plant where
  plim : Nat
  ceiling : Nat
  telemetry : List Telemetry
  windows : List GovWindow
  soft : List Nat
  corrected : Nat
  blockErrors : Tab Nat
  scrubAt : Nat
  controllers : Tab Controller
  unused : List Nat
  shotMask : BitVec 5
  spares : Tab Nat
  deriving DecidableEq, Repr

/-- Whose turn it is: a step of some agent, or the next word of a fragment (notes/assumptions/3). -/
inductive Turn where
  | event (i : Instr)
  | issue (warp frag : Nat)
  deriving DecidableEq, Repr

/-- One D81 module. -/
structure State where
  agenda : List Turn
  cur : Option (Nat × Nat)
  freeCtr : Nat
  nextId : Nat
  time : DWord
  mem : Tab (BitVec 8)
  dram : Tab (BitVec 8)
  unflushed : Tab (List Nat)
  bad : List Nat
  directory : Tab (List Sharer)
  leases : List Lease
  outside : List (Nat × OutsideWrite)
  tlb : Tab (List Translation)
  ops : List Op
  waits : Tab WaitEntry
  crews : Tab Crew
  warps : Tab Warp
  cores : Tab Core
  launches : Tab Launch
  queues : Tab LaunchQueue
  placement : List (List (Nat × Nat))
  cage : List Nat
  cageGoal : List Nat
  ctxs : Tab Context
  channels : Tab Channel
  images : Tab Image
  fabric : Fabric
  trust : Trust
  shot : Option Shot
  shotAt : List DWord
  plant : Plant
  deriving DecidableEq, Repr

/-- A core with nothing in it. -/
def Core.empty : Core := ⟨[], [], 0, 0, [], []⟩

/-- A hardware queue that no context owns (notes/assumptions/9). -/
def LaunchQueue.free : LaunchQueue := ⟨none, 0, false, []⟩

/-- A channel that no context owns, its store clear (notes/assumptions/9). -/
def Channel.free : Channel := ⟨none, [], none⟩

/-- A context as Gallery creates it (R49, R364; notes/assumptions/9). -/
def Context.fresh : Context :=
  ⟨.running, 0, false, false, false, 1, [], 0, none, none, none, none, 0, [], [0, 0, 0, 0], [], [], [], []⟩

/-- A warp with nothing in it. -/
def Warp.blank : Warp where
  crew := 0
  id := 0
  lanes := 0
  nregs := 16
  v := []
  p := []
  s := []
  b := []
  tags := []
  slices := []
  frags := []
  origLane := Lanes.zero
  rdraw := Lanes.zero
  rseed := 0
  recCount := 0
  status := 0
  flags := 0
  xc := ⟨0, 0, 0, 0, 0, 0⟩
  wtimer := 0
  tmrthr := 0
  timerFor := none
  tvec := 0
  wt := [0, 0, 0, 0]
  wsel := 0
  haarcnt := 0
  oc := ⟨0, 0, 0, 0, 0⟩
  pending := []
  batch := 0
  closedBatches := []
  window := false
  closing := false
  stopeMasks := []
  bad := []
  evicted := false
  retired := false

/-- A fragment that is ready to start a clause. -/
def Frag.start (mask : SliceMask) (pc : Addr) (mode : Word) : Frag :=
  ⟨mask, pc, mode, .ready, none, false, none, 0, false, [], [], none, none, none⟩

/-- A crew with nothing in it. -/
def Crew.blank : Crew := ⟨0, 0, 0, 0, 0, 0, 0, 0, 0, .resident, 0, [], [], [], [], [], [], [], none⟩

/-- The module right after power-on (R46, R373; notes/assumptions/9). -/
def State.reset : State where
  agenda := []
  cur := none
  freeCtr := 0
  nextId := 0
  time := 0
  mem := []
  dram := []
  unflushed := []
  bad := []
  directory := []
  leases := []
  outside := []
  tlb := []
  ops := []
  waits := []
  crews := []
  warps := []
  cores := []
  launches := []
  queues := []
  placement := [[], [], [], []]
  cage := [1, 1, 1, 1]
  cageGoal := [1, 1, 1, 1]
  ctxs := []
  channels := []
  images := []
  fabric := ⟨(0, 0), [], [], [], [], [], [], []⟩
  trust := ⟨false, 0, 1, 0xFF, List.replicate 16 0, [], [], [], [], (.inReset, .inReset)⟩
  shot := none
  shotAt := []
  plant := ⟨2200, 1800, [], [], [], 0, [], 0, [], [], 0, []⟩

end Sys2Proof.Machine
end

