-- ==== Sys2Proof/Machine/Ops.lean ====
section
/-! DEFINITION. The named operations over memory and registers, faults and traps, and the course that every
instruction word takes from issue to the next clause. -/

namespace Sys2Proof.Machine

/-! ## Bytes -/

/-- The least of a list of numbers, 0 for the empty list. -/
def leastOf (l : List Nat) : Nat :=
  match l with
  | [] => 0
  | x :: xs => xs.foldl Nat.min x

/-- The number that bytes hold, lowest address first (05_encoding: little-endian). -/
def leNat : List (BitVec 8) → Nat
  | [] => 0
  | b :: bs => b.toNat + 256 * leNat bs

/-- The `n` bytes of a number, lowest address first. -/
def leBytes (x : Nat) : Nat → List (BitVec 8)
  | 0 => []
  | n + 1 => BitVec.ofNat 8 x :: leBytes (x / 256) n

/-- One byte of memory, in the home copy of its line (R201; unlisted bytes: notes/assumptions/1). -/
def State.byte (s : State) (a : Nat) : BitVec 8 := Tab.get 0 s.mem a

/-- `n` bytes of memory from `a` upward. -/
def State.bytes (s : State) (a n : Nat) : List (BitVec 8) := (List.range n).map fun i => s.byte (a + i)

/-- A table of bytes with `bs` written from `a` upward. -/
def putBytes (m : Tab (BitVec 8)) (a : Nat) : List (BitVec 8) → Tab (BitVec 8)
  | [] => m
  | b :: bs => putBytes (Tab.set 0 m a b) (a + 1) bs

/-- The canonical form of memory: addresses rising, and no listed byte equal to an unlisted one. -/
def Memory.wf (m : Tab (BitVec 8)) : Bool := Tab.sorted m && Tab.noneIs 0 m

/-- The 52 bits of a physical address: an address carries above them the number of the key under which its page is mapped (R192,
R375), so that what was written under one key is not read under another (notes/assumptions/46). -/
def frameOf (a : Nat) : Nat := a % 2 ^ 52

/-- The ECC granule of a physical address (R71). -/
def granuleOf (pa : Nat) : Nat := frameOf pa / 2 ^ Config.granuleLog

/-- Is the granule at `g` written whole by `n` bytes from `a` upward (R71)? -/
def granuleCovered (a n g : Nat) : Bool :=
  decide (frameOf a ≤ g * 2 ^ Config.granuleLog ∧ (g + 1) * 2 ^ Config.granuleLog ≤ frameOf a + n)

/-- The words of a line that `n` bytes from offset `o` of it touch. -/
def wordMask (o n : Nat) : BitVec 64 :=
  if n = 0 then 0 else BitVec.ofNat 64 ((2 ^ ((o + n - 1) / 4 + 1) - 1) - (2 ^ (o / 4) - 1))

/-- A write of words clears them in every sharer whose span covers them; the host's sharer loses whole 64-byte lines
(R202). -/
def Sharer.clear (m : BitVec 64) (x : Sharer) : Sharer :=
  let span : BitVec 64 := BitVec.ofNat 64 ((2 ^ (x.last + 1) - 1) - (2 ^ x.first - 1))
  let m := m &&& span
  match x.who with
  | .host => { x with valid := x.valid &&& ~~~ (BitVec.ofNat 64 ((List.range 4).foldl (fun n k =>
      if m.extractLsb' (16 * k) 16 == 0 then n else n + (2 ^ 16 - 1) * 2 ^ (16 * k)) 0)) }
  | _ => { x with valid := x.valid &&& ~~~ m }

/-- A read by a sharer adds or widens its record; a ninth sharer puts the oldest out (R202). -/
def addSharer (who : SharerId) (first last : Nat) (l : List Sharer) : List Sharer :=
  let m := wordMask (4 * first) (4 * (last - first) + 4)
  if l.any fun x => x.who == who then
    l.map fun x => if x.who == who then { x with first := Nat.min x.first first, last := Nat.max x.last last, valid := x.valid ||| m }
      else x
  else (if l.length < 8 then l else l.drop 1) ++ [⟨who, first, last, m⟩]

/-- A write performed at the home (R202, R207): the bytes, the sharers' words, the granules it heals (R71), and the
line that DRAM does not hold yet, with the warps whose writes these are.  The bytes lie in one line. -/
def State.homeWrites (s : State) (writers : List Nat) (a : Nat) (bs : List (BitVec 8)) : State :=
  if bs.isEmpty then s else
  { s with
    mem := putBytes s.mem a bs
    directory := s.directory.map fun e => if e.1 = a / 256 then (e.1, e.2.map (Sharer.clear (wordMask (a % 256) bs.length))) else e
    bad := s.bad.filter fun g => !granuleCovered a bs.length g
    unflushed := Tab.put (a / 256) ((Tab.get [] s.unflushed (a / 256)).filter (fun k => !writers.contains k) ++ writers)
      s.unflushed }

/-- A write of one warp, or of another agent, at the home. -/
def State.homeWrite (s : State) (writer a : Nat) (bs : List (BitVec 8)) : State := s.homeWrites [writer] a bs

/-- Does any of `n` bytes from `a` upward lie in a granule with an uncorrectable error (R71)? -/
def State.uncorrectable (s : State) (a n : Nat) : Bool :=
  s.bad.any fun g => decide (frameOf a < (g + 1) * 2 ^ Config.granuleLog ∧ g * 2 ^ Config.granuleLog < frameOf a + n)

/-- A 64-bit word of memory, little-endian. -/
def State.dword (s : State) (a : Nat) : Nat := leNat (s.bytes a 8)

/-- A 32-bit word of memory, little-endian. -/
def State.word (s : State) (a : Nat) : Word := BitVec.ofNat 32 (leNat (s.bytes a 4))

/-! ## Homes (R201) -/

/-- The home slice of a physical address. -/
def homeSlice (pa : Nat) : Nat :=
  let n := pa / 256
  (bitsOf n 0 6 ^^^ bitsOf n 6 6 ^^^ bitsOf n 12 6 ^^^ bitsOf n 18 6 ^^^ bitsOf n 24 6 ^^^ bitsOf n 30 6 ^^^
    bitsOf n 36 6 ^^^ bitsOf n 42 2)

/-- The die of a core.  The cores of the module are those of its 1,024 places, 0 to 1,023, and after them the spares, 16 a die
(R2, R382). -/
def dieOf (core : Nat) : Nat := if core < 1024 then core / 256 else (core - 1024) / 16

/-- The slice through which a core reads a line that is homed on another die (R201). -/
def nearSlice (core pa : Nat) : Nat := 16 * dieOf core + homeSlice pa % 16

/-! ## Translation (R191, R192) -/

/-- The levels of the table, outermost first: level, first index bit, index width. -/
def tableLevels : List (Nat × Nat × Nat) := [(0, 48, 9), (1, 39, 9), (2, 30, 9), (3, 21, 9), (4, 16, 5)]

/-- The two 64-bit words of a table entry. -/
structure Pte where
  w0 : Nat
  w1 : Nat
  deriving DecidableEq, Repr

def Pte.valid (p : Pte) : Bool := p.w0 % 2 == 1
def Pte.leaf (p : Pte) : Bool := bitsOf p.w0 1 1 == 1
def Pte.rd (p : Pte) : Bool := bitsOf p.w0 2 1 == 1
def Pte.wr (p : Pte) : Bool := bitsOf p.w0 3 1 == 1
def Pte.resident (p : Pte) : Bool := bitsOf p.w0 4 1 == 1
def Pte.key (p : Pte) : Nat := bitsOf p.w0 8 8
def Pte.frame (p : Pte) : Nat := bitsOf p.w0 16 36 * 65536
def Pte.typeCode (p : Pte) : Nat := bitsOf p.w0 60 4

/-- The region type that a leaf's TYPE names. -/
def Pte.pageType (p : Pte) : Option PageType :=
  match p.typeCode with
  | 0 => some .plain | 1 => some .fp4s | 2 => some .fp8e4 | 3 => some .fp8e5 | 4 => some .bf16 | 5 => some .haar
  | 6 => some .sketch | _ => none

/-- Elements per row and rows of an FP4S page (R196). -/
def fp4sGeom (w1 : Nat) : Nat × Nat := (bitsOf w1 0 16, bitsOf w1 16 16)

/-- Does R196 accept the geometry word of a leaf that maps 2^log bytes? -/
def geomOk (t : PageType) (w1 log : Nat) : Bool :=
  match t with
  | .plain | .fp8e4 | .fp8e5 | .bf16 => w1 == 0
  | .fp4s =>
    let (len, rows) := fp4sGeom w1
    decide (w1 < 2 ^ 32 ∧ 8 ≤ len ∧ len ≤ 65528 ∧ len % 8 = 0 ∧ 64 ≤ rows ∧ rows ≤ 65472 ∧ rows % 64 = 0 ∧
      rows * len / 2 + rows * len / 8 + rows / 64 * 2 ≤ 2 ^ log)
  | .haar => decide (1 ≤ w1 ∧ w1 ≤ 5)
  | .sketch => decide (7 ≤ w1 ∧ w1 ≤ log)

/-- May a leaf be used at all: assigned TYPE, zero reserved fields, accepted GEOM (R192)? -/
def Pte.leafOk (p : Pte) (log : Nat) : Bool :=
  bitsOf p.w0 52 8 == 0 && bitsOf p.w0 5 3 == 0 &&
  match p.pageType with
  | some t => geomOk t p.w1 log
  | none => false

/-- Is a valid non-leaf well formed, with NEXT aligned to the table it names (R192)?  TYPE is 0 in a non-leaf, and for another the
spec names no cause: the model's choice is type-mismatch, as for the other malformed entries (notes/assumptions/42). -/
def Pte.nodeOk (p : Pte) (level : Nat) : Bool :=
  p.typeCode == 0 && bitsOf p.w0 16 36 == 0 && bitsOf p.w1 0 9 == 0 && decide (p.w1 < 2 ^ 52) &&
  (decide (level = 3) || p.w1 % 8192 == 0)

/-- Walk the table of a context: the page's leaf with the log₂ of its size, or the cause (R191, R192). -/
def State.walk (s : State) (va : Nat) : List (Nat × Nat × Nat) → Nat → Except Nat (Pte × Nat)
  | [], _ => .error 0x12
  | (level, lo, n) :: ls, table =>
    let e := table + 16 * bitsOf va lo n
    let p : Pte := ⟨s.dword e, s.dword (e + 8)⟩
    if !p.valid then .error 0x12
    else if p.leaf then
      if level < 2 then .error 0x12
      else if !p.resident then .error 0x12
      else .ok (p, lo)
    else if level = 4 then .error 0x12
    else if !p.nodeOk level then .error 0x14
    else s.walk va ls p.w1

/-- What translation answers: the physical address, the leaf, and the base and log₂ size of the page. -/
structure Xlat where
  pa : Nat
  leaf : Pte
  base : Nat
  log : Nat
  deriving DecidableEq, Repr

/-- The number of the key that stands in a slot: a slot that has been cleared holds another key afterwards (R375). -/
def State.keyNo (s : State) (slot : Nat) : Nat := slot + 256 * Tab.get 0 s.trust.cleared slot

/-- The translation that a leaf gives: its frame under its key (R192, R375). -/
def State.xlat (s : State) (va : Nat) (p : Pte) (log : Nat) : Xlat :=
  ⟨2 ^ 52 * s.keyNo p.key + (p.frame - p.frame % 2 ^ log) + va % 2 ^ log, p, va - va % 2 ^ log, log⟩

/-- The drift of a core (R2). -/
def driftOf (core : Nat) : Nat := core / 16

/-- The seam of a core: the 128 cores that share one memory stack, whose number it is (R2). -/
def seamOf (core : Nat) : Nat := core / 128

/-- The core that stands at a place: the spare of its die that was put there, or the place's own (R382). -/
def State.coreAt (s : State) (place : Nat) : Nat :=
  match Tab.lookup place s.plant.spares with
  | some i => 1024 + 16 * (place / 256) + i
  | none => place

/-- The place at which a core stands: none, as 1,024, of a spare that stands for no core. -/
def State.placeOf (s : State) (core : Nat) : Nat :=
  if core < 1024 then core
  else ((s.plant.spares.find? fun e => 1024 + 16 * (e.1 / 256) + e.2 == core).map (·.1)).getD 1024

/-- The drift of a core: that of its place. -/
def State.driftAt (s : State) (core : Nat) : Nat := driftOf (s.placeOf core)

/-- Look a virtual address up: in the drift's translation cache, then in the context's table (R191). -/
def State.lookup (s : State) (ctx core va : Nat) : Except Nat Xlat :=
  match (Tab.get [] s.tlb (s.driftAt core)).find? fun t => t.ctx == ctx && t.base == va - va % 2 ^ t.log with
  | some t => .ok (s.xlat va ⟨t.w0.toNat, t.w1.toNat⟩ t.log)
  | none =>
    match Tab.lookup ctx s.ctxs with
    | none => .error 0x12
    | some c =>
      match s.walk va tableLevels c.root with
      | .error e => .error e
      | .ok (p, log) => .ok (s.xlat va p log)

/-- Keep a translation in the drift's cache of 16,384 entries, the oldest leaving when it is full (R191). -/
def State.remember (s : State) (ctx core va : Nat) : State :=
  let d := s.driftAt core
  let l := Tab.get [] s.tlb d
  if l.any fun t => t.ctx == ctx && t.base == va - va % 2 ^ t.log then s
  else
    match s.lookup ctx core va with
    | .error _ => s
    | .ok x =>
      let l := if l.length < 16384 then l else l.drop 1
      { s with tlb := Tab.put d (l ++ [⟨ctx, x.base, x.log, BitVec.ofNat 64 x.leaf.w0, BitVec.ofNat 64 x.leaf.w1⟩]) s.tlb }

/-- The lowest of the causes that a translated access meets: permission, then type-mismatch of a malformed leaf. -/
def Xlat.cause (x : Xlat) (read write : Bool) : Option Nat :=
  if (read && !x.leaf.rd) || (write && !x.leaf.wr) then some 0x13
  else if !x.leaf.leafOk x.log then some 0x14
  else none

/-- The key slot of a context that is confidential (R375). -/
def State.slotOf (s : State) (ctx : Nat) : Option Nat := (s.trust.keys.find? fun e => e.2 == ctx).map (·.1)

/-- May a context use a key slot: one that Headframe has assigned to it, or, when it is not confidential, slot 0 (R375)? -/
def State.keyOk (s : State) (ctx key : Nat) : Bool :=
  if key = 0 then (s.slotOf ctx).isNone else Tab.lookup key s.trust.keys == some ctx

/-- Translate for a read or a write (R191, R192, R375). -/
def State.translate (s : State) (ctx core va : Nat) (read write : Bool) : Except Nat Xlat :=
  match s.lookup ctx core va with
  | .error e => .error e
  | .ok x =>
    if !s.keyOk ctx x.leaf.key then .error 0x13 else
    match x.cause read write with
    | some c => .error c
    | none => .ok x

/-- Was a cause raised by translating (R61)?  Only not-present and permission park under a page entry. -/
def pageCause (c : Nat) : Bool := c == 0x12 || c == 0x13

/-! ## Warps, fragments, slices -/

/-- The number of a fragment: its lowest slice (R23). -/
def fragNo (m : SliceMask) : Nat := ((List.range 8).find? fun k => m.getLsbD k).getD 0

/-- The slices of a mask, ascending. -/
def sliceList (m : SliceMask) : List Nat := (List.range 8).filter fun k => m.getLsbD k

/-- The slice mask with the listed slices. -/
def sliceMaskOf (f : Nat → Bool) : SliceMask :=
  (List.range 8).foldl (fun m k => if f k then m ||| BitVec.ofNat 8 (2 ^ k) else m) 0

/-- KIND of an entry of the control stack, as its 96 bits hold it (R17). -/
def EntryKind.code : EntryKind → BitVec 3
  | .ifEntry => 0 | .loopEntry => 1 | .rptEntry => 2 | .callEntry => 3 | .markEntry => 4

/-- The 96 bits of a control-stack entry as debug and snapshot reads see it (R17). -/
def StackEntry.layout (e : StackEntry) : BitVec 96 := e.kind.code ++ e.mask ++ e.aux ++ 0#17 ++ e.target ++ e.count

/-- The 96 bits of the TRAP entry in a trap slot: KIND 5, its CM, and where it returns to (R17, R30). -/
def TrapSlot.layout (x : TrapSlot) : BitVec 96 := 5#3 ++ x.cm ++ 0#8 ++ 0#17 ++ x.pc.extractLsb' 0 32 ++ 0#32

/-- The code address that a TARGET names: its upper half is that of the clause at work (R17; notes/assumptions/41). -/
def codeNear (pc : Addr) (target : Word) : Addr := pc.extractLsb' 32 32 ++ target

/-- An unused slice: every lane exited (R14). -/
def Slice.gone : Slice := ⟨0, 0xF, [], [], none, 0⟩

def Warp.slice (w : Warp) (k : Nat) : Slice := w.slices.getD k Slice.gone

/-- Change one slice. -/
def Warp.setSlice (w : Warp) (k : Nat) (x : Slice) : Warp := { w with slices := w.slices.set k x }

/-- Change every slice of a mask by a function of the slice's number and content. -/
def Warp.mapSlices (w : Warp) (m : SliceMask) (f : Nat → Slice → Slice) : Warp :=
  (sliceList m).foldl (fun w k => w.setSlice k (f k (w.slice k))) w

/-- A slice all of whose lanes are exited is finished (R14). -/
def Slice.finished (x : Slice) : Bool := x.xm == 0xF

/-- The lanes given by a 4-bit mask per slice. -/
def lanesOf (m : SliceMask) (f : Nat → BitVec 4) : LaneMask :=
  maskOf fun n => m.getLsbD (n / 4) && (f (n / 4)).getLsbD (n % 4)

/-- The part of a lane mask that lies in slice k. -/
def partOf (m : LaneMask) (k : Nat) : BitVec 4 := m.extractLsb' (4 * k) 4

/-- GUARD, TYPE, RND and the option bits of a MODE value (R73). -/
def modeGuard (m : Word) : Nat := bitsOf m.toNat 0 5
def modeType (m : Word) : Nat := bitsOf m.toNat 5 4
def modeRnd (m : Word) : Nat := bitsOf m.toNat 9 3
def modeSat (m : Word) : Bool := m.getLsbD 12
def modeFtz (m : Word) : Bool := m.getLsbD 13
def modeMat (m : Word) : Bool := m.getLsbD 14
def modeNskip (m : Word) : Bool := m.getLsbD 15

/-- A predicate register, as the mask of the lanes where it is set. -/
def Warp.pred (w : Warp) (n : Nat) : LaneMask := Tab.get 0 w.p n

/-- The lanes that pass a GUARD value (R74). -/
def Warp.guarded (w : Warp) (g : Nat) : LaneMask :=
  if g < 8 then BitVec.allOnes 32
  else if g < 16 then w.pred (g % 8)
  else ~~~ w.pred (g % 8)

/-- The lanes of the fragment's slices that are in CM and not exited. -/
def Warp.current (w : Warp) (m : SliceMask) : LaneMask :=
  lanesOf m fun k => (w.slice k).cm &&& ~~~ (w.slice k).xm

/-- The lanes of the fragment's slices that are not exited. -/
def Warp.unexited (w : Warp) (m : SliceMask) : LaneMask := lanesOf m fun k => ~~~ (w.slice k).xm

/-- `Active()` (R17). -/
def Warp.active (w : Warp) (f : Frag) : LaneMask := w.current f.mask &&& w.guarded (modeGuard f.mode)

/-- The lowest lane of a mask. -/
def lowestLane (m : LaneMask) : Option Nat := (List.range 32).find? fun n => m.getLsbD n

/-- A lane register: zero in every lane unless listed. -/
def Warp.vreg (w : Warp) (n : Nat) : Lanes := Tab.get Lanes.zero w.v n
/-- A uniform register. -/
def Warp.sreg (w : Warp) (n : Nat) : DWord := Tab.get 0 w.s n
/-- A buffer record. -/
def Warp.breg (w : Warp) (n : Nat) : BitVec 128 := Tab.get 0 w.b n

/-- The tag that every tile has at launch: fp32 (8), SPATIAL (R76). -/
def Tag.launch : Tag := ⟨8, 0, 0⟩
def Warp.tag (w : Warp) (n : Nat) : Tag := Tab.get Tag.launch w.tags n

/-- New values in the lanes of a mask, old ones elsewhere (R17). -/
def Lanes.merge (m : LaneMask) (new old : Lanes) : Lanes :=
  Lanes.ofFn fun n => if m.getLsbD n then new.get n else old.get n

/-- A write of a whole register mends an uncorrectable error in it (R71; notes/assumptions/44). -/
def Warp.mend (w : Warp) (r : Reg) : Warp := { w with bad := w.bad.filter (· != r) }

/-- Write lanes of a lane register and leave its tile's tag alone. -/
def Warp.putV (w : Warp) (n : Nat) (m : LaneMask) (x : Lanes) : Warp :=
  { w with v := Tab.set Lanes.zero w.v n (Lanes.merge m x (w.vreg n))
           bad := if m = BitVec.allOnes 32 then w.bad.filter (· != .v n) else w.bad }

/-- Write lanes of a lane register; the tile that it aliases is tagged with the type given, SPATIAL (R76).  The spec does
not say whether a write with no active lane tags it: the model's choice is that it does not (notes/assumptions/42). -/
def Warp.setV (w : Warp) (ty n : Nat) (m : LaneMask) (x : Lanes) : Warp :=
  if m = 0 then w
  else { w.putV n m x with tags := Tab.set Tag.launch w.tags (n / 8) ⟨ty, 0, 0⟩ }

/-- Write lanes of a predicate. -/
def Warp.setP (w : Warp) (n : Nat) (m x : LaneMask) : Warp :=
  { w with p := Tab.set 0 w.p n ((w.pred n &&& ~~~ m) ||| (x &&& m))
           bad := if m = BitVec.allOnes 32 then w.bad.filter (· != .p n) else w.bad }

/-- Write a uniform register. -/
def Warp.setS (w : Warp) (n : Nat) (x : DWord) : Warp := { w.mend (.s n) with s := Tab.set 0 w.s n x }

/-- Write a buffer record. -/
def Warp.setB (w : Warp) (n : Nat) (x : BitVec 128) : Warp := { w.mend (.b n) with b := Tab.set 0 w.b n x }

/-- Put a warp back into the state. -/
def State.setWarp (s : State) (k : Nat) (w : Warp) : State := { s with warps := Tab.put k w s.warps }

/-- The fragment with a number. -/
def Warp.frag (w : Warp) (n : Nat) : Option Frag := w.frags.find? fun f => fragNo f.mask == n

/-- Replace the fragment of a number, if the warp has it. -/
def Warp.putFrag (w : Warp) (n : Nat) (f : Frag) : Warp :=
  { w with frags := w.frags.map fun g => if fragNo g.mask == n then f else g }

/-- Change a fragment of a warp of the state. -/
def State.mapFrag (s : State) (k n : Nat) (g : Frag → Frag) : State :=
  match Tab.lookup k s.warps with
  | none => s
  | some w => s.setWarp k { w with frags := w.frags.map fun f => if fragNo f.mask == n then g f else f }

/-- Change a warp of the state. -/
def State.mapWarp (s : State) (k : Nat) (g : Warp → Warp) : State :=
  match Tab.lookup k s.warps with
  | none => s
  | some w => s.setWarp k (g w)

/-- Change a context. -/
def State.mapCtx (s : State) (k : Nat) (g : Context → Context) : State :=
  match Tab.lookup k s.ctxs with
  | none => s
  | some c => { s with ctxs := Tab.put k (g c) s.ctxs }

/-- Change a crew. -/
def State.mapCrew (s : State) (k : Nat) (g : Crew → Crew) : State :=
  match Tab.lookup k s.crews with
  | none => s
  | some c => { s with crews := Tab.put k (g c) s.crews }

/-- A core; one that the table does not list is empty. -/
def State.core (s : State) (n : Nat) : Core := Tab.get Core.empty s.cores n

/-- Change a core. -/
def State.mapCore (s : State) (n : Nat) (g : Core → Core) : State :=
  { s with cores := Tab.set Core.empty s.cores n (g (s.core n)) }

/-- Is a request one that a release or an acquire of its warp waits for (R209): a load or a write that is no engine
operation? -/
def OpKind.relaxed : OpKind → Bool
  | .load .. | .store .. | .atomic .. | .fp4s .. | .tile .. | .insert .. | .query .. | .skinit .. | .skmerge .. |
    .skfold .. => true
  | .abar form _ _ => form != .wait
  | _ => false

/-- Is a request a load (R183)? -/
def OpKind.isLoad : OpKind → Bool
  | .load .. | .tile .. | .query .. => true
  | _ => false

/-- May a request still raise flags (R178)? -/
def OpKind.raises : OpKind → Bool
  | .result .. | .load .. | .store .. | .fp4s .. | .tile .. => true
  | _ => false

/-- Does a request raise its flags only when the last of it is done, whatever has completed: an engine operation when it retires
(R337, R353, R359), a store to an FP4S page where it is encoded (R198)? -/
def OpKind.raisesLate : OpKind → Bool
  | .coll .. | .gred .. | .stopeRun .. | .fp4s .. => true
  | _ => false

/-- Does an operation of the matrix engine still have flags to raise (R154, R178, R291)? -/
def MatOp.raises (m : MatOp) : Bool :=
  (match m.kind with
    | .mma .. | .mmaq .. | .drain .. => !m.done
    | _ => false) || m.exc.nv != 0

/-- Is a flag-raising operation of a warp still to complete (R178)? -/
def State.raisersLeft (s : State) (k : Nat) : Bool :=
  (s.ops.any fun o => o.src.warp == k && ((o.kind.raises && !o.completed) || o.kind.raisesLate)) ||
    s.crews.any fun c => c.2.engine.any fun m => m.src.warp == k && m.raises

/-- The state in which a fragment goes on issuing: TRAPPED while a slice's trap slot is filled (R27, R52). -/
def Warp.goingState (w : Warp) (m : SliceMask) : FragState :=
  if (sliceList m).any fun k => (w.slice k).trap.isSome then .trapped else .ready

/-! ## Completion flags (R84) -/

/-- Is a flag of a slice still tied to a request of the warp that has not completed? -/
def State.flagTied (s : State) (k slice flag : Nat) : Bool :=
  s.ops.any fun o => o.src.warp == k && o.src.slices.getLsbD slice && o.src.flag == flag && !o.completed

/-- Does the clause in progress still hold the flag: a long-latency word of it is to be tied to it, or the flag has
no word and the last word has not issued? -/
def Clause.holds (c : Clause) (flag : Nat) : Bool :=
  (c.setA == flag && (c.issued == 0)) || (c.setB == flag && c.issued < 2 && !(c.setA == flag && c.longWords == 1 && c.issued == 1))

/-- Clear the completion flags of a warp to which nothing is tied any more. -/
def State.settleFlags (s : State) (k : Nat) : State :=
  s.mapWarp k fun w =>
    { w with slices := w.slices.mapIdx fun i x =>
        { x with flags := BitVec.ofBoolListLE ((List.range 12).map fun n =>
            x.flags.getLsbD n && (s.flagTied k i n ||
              w.frags.any fun f => f.mask.getLsbD i && match f.clause with
                | some c => c.holds n
                | none => false)) |>.setWidth 12 } }

/-! ## Records (R56, R57) -/

/-- The codes of R51 that the operations below raise. -/
def causeIllegal : Nat := 0x01
def causeBadTarget : Nat := 0x02
def causeHazard : Nat := 0x03
def causeStackOverflow : Nat := 0x04
def causeStackMismatch : Nat := 0x05
def causeLoopOverflow : Nat := 0x06
def causeDivergence : Nat := 0x07
def causeRegang : Nat := 0x08
def causeResort : Nat := 0x09
def causeDoubleTrap : Nat := 0x0A
def causeBounds : Nat := 0x10
def causeMisaligned : Nat := 0x11
def causeNotPresent : Nat := 0x12
def causePermission : Nat := 0x13
def causeType : Nat := 0x14
def causeData : Nat := 0x15
def causeArmed : Nat := 0x16
def causeRemote : Nat := 0x17
def causeCoordinate : Nat := 0x18
def causeWindow : Nat := 0x19
def causeHeader : Nat := 0x1A
def causeMerge : Nat := 0x1B
def causeNoWindow : Nat := 0x1C
def causeMember : Nat := 0x20
def causeTimer : Nat := 0x21
def causeTrap : Nat := 0x22
def causeBreak : Nat := 0x23
def causeCollective : Nat := 0x28
def causeStope : Nat := 0x29
def causeLease : Nat := 0x2A
def causeDep : Nat := 0x2B
def causePageRequest : Nat := 0x30

/-- The fields of a fault record (R56). -/
structure FaultRecord where
  cause : Nat
  noRegion : Bool := false
  page : Bool := false
  frag : SliceMask := 0
  word : Nat := 0
  lanes : LaneMask := 0
  other : LaneMask := 0
  ocause : Nat := 0
  addr : Addr := 0
  recCount : Word := 0
  warp : Nat := 63
  token : Nat := 0
  origin : Nat := 0
  epc : Addr := 0
  row : Nat := 0
  col : Nat := 0
  info : Word := 0
  time : DWord := 0
  fpc : Addr := 0
  deriving DecidableEq, Repr

/-- The low and the high word of a 64-bit value. -/
def loWord (x : DWord) : Word := x.extractLsb' 0 32
def hiWord (x : DWord) : Word := x.extractLsb' 32 32

/-- The sixteen words of a record, with V = 1 (R56). -/
def FaultRecord.words (r : FaultRecord) : List Word :=
  [field 24 r.cause ||| field 23 1 ||| field 22 r.noRegion.toNat ||| field 21 r.page.toNat |||
      field 8 r.frag.toNat ||| field 0 r.word,
    r.lanes, r.other, field 24 r.ocause, loWord r.addr, hiWord r.addr, r.recCount,
    field 26 r.warp ||| field 14 r.token ||| field 10 r.origin,
    loWord r.epc, hiWord r.epc, field 16 r.row ||| field 0 r.col, r.info,
    loWord r.time, hiWord r.time, loWord r.fpc, hiWord r.fpc]

/-- Hand a record to a queue: it is held until the queue's next slot is free (R57). -/
def RecordQueue.post (q : RecordQueue) (r : List Word) : RecordQueue := { q with held := q.held ++ [r] }

/-- A record for the fault queue of a context. -/
def State.postFault (s : State) (ctx : Nat) (r : FaultRecord) : State :=
  s.mapCtx ctx fun c => { c with faultQ := c.faultQ.map fun q => q.post r.words }

/-- The bytes of words in memory, lowest address first. -/
def wordsBytes (ws : List Word) : List (BitVec 8) := ws.flatMap fun w => leBytes w.toNat 4

/-- Translate an address of a context in its own table alone (Gallery's and the scheduler's own accesses). -/
def State.walkCtx (s : State) (ctx va : Nat) : Option Xlat :=
  match Tab.lookup ctx s.ctxs with
  | none => none
  | some c =>
    match s.walk va tableLevels c.root with
    | .error _ => none
    | .ok (p, log) => some (s.xlat va p log)

/-- Write the oldest held record of a queue into its next slot, when the slot's V bit (bit `v` of its first word) is
clear: the other words first, then the first with V = 1 (R57).  `none`: nothing held, or the slot is full, or the
queue's memory is not mapped. -/
def State.writeRecord (s : State) (ctx v : Nat) (q : RecordQueue) : Option (State × RecordQueue) :=
  match q.held with
  | [] => none
  | r :: rs =>
    match s.walkCtx ctx (q.base + 4 * r.length * (q.next % q.slots)) with
    | none => none
    | some x =>
      if (s.word x.pa).getLsbD v then none
      else some ((s.homeWrite 0 (x.pa + 4) (wordsBytes (r.drop 1))).homeWrite 0 x.pa (wordsBytes (r.take 1)),
        { q with next := (q.next + 1) % q.slots, held := rs })

/-! ## The wait table (R61) -/

/-- The entry that stands for a page of a context. -/
def State.pageEntry (s : State) (ctx granule : Nat) : Option (Nat × Bool) :=
  s.waits.findSome? fun e =>
    match e.2 with
    | .page c g r _ => if c == ctx && g == granule then some (e.1, r) else none
    | .token .. => none

/-- Is a fragment parked under entry n? -/
def State.parkedUnder (s : State) (n : Nat) : Bool :=
  s.warps.any fun e => e.2.frags.any fun f =>
    match f.park with
    | some (m, _) => f.state == .parked && m == n
    | none => false

/-- The released page entry without a fragment that has stood empty longest. -/
def State.reclaimable (s : State) : Option Nat :=
  (s.waits.foldl (fun (b : Option (Nat × Nat)) e =>
    match e.2 with
    | .page _ _ true t =>
      if s.parkedUnder e.1 then b
      else match b with
        | none => some (t, e.1)
        | some (u, m) => if t < u then some (t, e.1) else some (u, m)
    | _ => b) none).map (·.2)

/-- A free entry other than entry 0 (notes/assumptions/5: the lowest), else a reclaimed one, else the overflow
entry 0. -/
def State.freeEntry (s : State) : Nat :=
  match (List.range 4095).find? fun n => (Tab.lookup (n + 1) s.waits).isNone with
  | some n => n + 1
  | none => (s.reclaimable).getD 0

/-- Allocate an entry. -/
def State.allocEntry (s : State) (e : WaitEntry) : Nat × State :=
  let n := s.freeEntry
  if n = 0 then (0, s) else (n, { s with waits := Tab.put n e s.waits })

/-! ## Resumption (R59) -/

/-- Are all slices of a mask finished? -/
def Warp.over (w : Warp) (m : SliceMask) : Bool := (sliceList m).all fun k => (w.slice k).finished

/-- Put a woken fragment back: at the clause that follows (a trap handled as a fault), at its region's entry with the control state
of the entry, or at the header of the faulting clause.  When its slices are finished it has ended (R14, R19). -/
def Warp.resume (w : Warp) (n : Nat) : Warp :=
  match w.frag n with
  | none => w
  | some f =>
    let back : Frag :=
      { f with state := if w.over f.mask then .done else w.goingState f.mask, park := none, clause := none, suspended := false,
               waitOp := none }
    match f.park, f.region with
    | some (_, .replay), some r =>
      let w1 := w.mapSlices f.mask fun k x =>
        match r.slices.find? fun q => q.slice == k with
        | some q => { x with cm := q.cm, stack := x.stack.drop (x.stack.length - q.depth), loopEnds := q.loopEnds }
        | none => x
      w1.putFrag n { back with pc := r.entry }
    | _, _ => w.putFrag n back

/-- Wake one parked fragment; its token entry is freed (R61). -/
def State.wake (s : State) (k n : Nat) : State :=
  match Tab.lookup k s.warps with
  | none => s
  | some w =>
    match w.frag n with
    | none => s
    | some f =>
      if f.state != .parked then s else
      let s1 := s.setWarp k (w.resume n)
      match f.park with
      | some (m, _) =>
        match Tab.lookup m s.waits with
        | some (.token ..) => { s1 with waits := Tab.erase m s1.waits }
        | _ => s1
      | none => s1

/-- Wake every fragment that is parked under an entry and satisfies a test of its warp. -/
def State.wakeAll (s : State) (entry : Nat) (test : Warp → Bool) : State :=
  s.warps.foldl (fun s e => e.2.frags.foldl (fun s f =>
    match f.park with
    | some (m, _) => if f.state == .parked && m == entry && test e.2 then s.wake e.1 (fragNo f.mask) else s
    | none => s) s) s

/-- The context of a crew. -/
def State.ctxOfCrew (s : State) (crew : Nat) : Nat := ((Tab.lookup crew s.crews).map (·.ctx)).getD 0

/-- A targeted replay that names an entry (R12, R61, R371): the entry's fragments and the context's overflow
fragments wake; a page entry stays released. -/
def State.replayEntry (s : State) (ctx entry : Nat) : State :=
  let mine := fun (w : Warp) => s.ctxOfCrew w.crew == ctx
  let s1 :=
    match Tab.lookup entry s.waits with
    | some (.page c g released _) =>
      if entry ≠ 0 ∧ c = ctx then
        if released then s.wakeAll entry mine
        else
          { (s.wakeAll entry mine) with
            waits := Tab.put entry (.page c g true s.nextId) s.waits
            nextId := s.nextId + 1 }
      else s
    | some (.token c _ _) => if entry ≠ 0 ∧ c = ctx then s.wakeAll entry mine else s
    | none => s
  s1.wakeAll 0 mine

/-- A page replay: the entry of the page, or none (R371). -/
def State.replayPage (s : State) (ctx va : Nat) : State :=
  match s.pageEntry ctx (va / 65536) with
  | some (n, _) => s.replayEntry ctx n
  | none => s.replayEntry ctx 0

/-! ## Shots (R370, R377, R378) -/

/-- The channel, if any, and the banks at work of a stope command. -/
def OpKind.stopeAt : OpKind → Option (Nat × List Nat)
  | .stopeLoad c _ _ _ => some (c, [])
  | .stopeRun r _ us => some (r.chan, (us.filter fun u => !u.2.ended).map (·.1))
  | _ => none

/-- Is a warp's crew on a core? -/
def State.resident (s : State) (w : Warp) : Bool := ((Tab.lookup w.crew s.crews).map fun c => c.state == .resident).getD false

/-- A 4-byte word of what an access names, by its offset. -/
def Access.part (x : Access) (i : Nat) : Access :=
  match x.place with
  | .pa a => { x with place := .pa (a + i), size := 4 }
  | _ => { x with size := 4 }

/-- The accesses of a request that are still to be performed. -/
def OpKind.accs : OpKind → List Access
  | .load _ _ _ l _ | .store _ _ l | .fp4s _ _ l | .atomic _ _ _ _ l => l
  | .tile _ _ _ x _ l _ => l.map x.part
  | .insert _ _ _ l | .query _ _ _ _ l _ _ => l.map (·.1)
  | .skinit x _ _ | .skfold x _ => [x]
  | .skmerge x y _ _ => [x, y]
  | .abar _ _ x => [x]
  | _ => []

/-- The packets of a request that are outstanding at the fabric ports: a multicast, a piece of a copy, or the access of a lane. -/
def OpKind.packets : OpKind → Nat
  | .mcst _ => 1
  | .copy _ _ _ rows => rows.countP fun r => match r.src, r.dst with
      | .fab _, _ | _, .fab _ => true
      | _, _ => false
  | k => k.accs.countP fun x => match x.place with
      | .fab _ => true
      | _ => false

/-- The fabric ports of a module (R1). -/
def fabricPorts : Nat := 24

/-- The port that the packets of a request use: one whose links are not lost (R1, R383). -/
def State.portOf (s : State) (o : Op) : Nat :=
  let l := (List.range fabricPorts).filter fun p => !s.fabric.down.contains p
  l.getD (Config.portOf o.id % l.length) 0

/-- The physical bank of a channel (32: its spare) that stands for a bank in a context's table (R4, R382). -/
def State.bankOf (s : State) (ctx chan bank : Nat) : Nat :=
  ((Tab.lookup ctx s.ctxs).bind fun c => Tab.lookup (32 * chan + bank) c.banks).getD
    (if (Tab.get Channel.free s.channels chan).spare = some bank then 32 else bank)

/-- The controllers of the stacks and channels in use: one whose stack or channel failed training is absent from every count
(R373). -/
def Plant.working (p : Plant) : Tab Controller := p.controllers.filter fun e => !p.unused.contains e.1

/-- What a shot latches now.  What counts as a hit of a slice no rule says, so that its hits and misses are free. -/
def State.latch (s : State) (source : ShotSource) (tag : Option Word) : Shot where
  source := source
  tag := tag
  time := s.time
  warps := (s.warps.filter fun e => !e.2.evicted && !e.2.retired && s.resident e.2).map fun e =>
    ⟨e.1, e.2.frags.map (·.pc), e.2.recCount, e.2.status, e.2.flags, e.2.oc, e.2.wtimer⟩
  cores := Tab.mapVals (fun _ c => (c.gatecnt, c.replaycnt)) s.cores
  holders := s.ctxs.map fun e => (e.1, e.2.tokens.map (·.holder))
  tlb := Tab.mapVals (fun _ l => l.length) s.tlb
  corrected := s.plant.corrected
  uncorrectable := s.bad.length
  sharers := s.directory.foldl (fun t e => Tab.set 0 t (homeSlice (256 * e.1)) (Tab.get 0 t (homeSlice (256 * e.1)) + e.2.length)) []
  scrubAt := s.plant.scrubAt
  controllers := s.plant.working
  channels := Tab.mapVals (fun k c =>
    let l := s.ops.filterMap fun o => o.kind.stopeAt.map fun x => (x.1, x.2.map (s.bankOf o.src.ctx x.1))
    let mine := l.filter fun x => x.1 == k
    (c.owner, mine.flatMap (·.2), mine.length)) s.channels
  ports := Tab.mapVals (fun _ c => c.remap.map fun e => (e.1, (e.2.getLast?.map (·.gen)).getD 0)) s.ctxs
  packets := (List.range fabricPorts).map fun p => (p, ((s.ops.filter fun o => s.portOf o == p).map fun o => o.kind.packets).sum)
  slices := (List.range 64).map fun i => (Config.word (1024 * s.freeCtr + 2 * i), Config.word (1024 * s.freeCtr + 2 * i + 1))
  nackCounts := s.fabric.nackCounts
  queues := Tab.mapVals (fun _ q => q.waiting.head?.map fun l => (l, ((Tab.lookup l s.launches).map (·.status)).getD 0)) s.queues
  placement := s.placement
  cage := s.cage

/-- A trigger: every block latches, unless a shot is in progress, which the trigger then joins (R377). -/
def State.takeShot (s : State) (source : ShotSource) (tag : Option Word) : State :=
  if s.shot.isSome then s else { s with shot := some (s.latch source tag) }

/-- A shot that the device triggers on an error event of R378, unless Gallery has masked it. -/
def State.errorShot (s : State) (event : Nat) : State :=
  if s.plant.shotMask.getLsbD event then s else s.takeShot .errorEvent none

/-! ## What an engine reports -/

/-- The crew of a request. -/
def State.crewOf (s : State) (o : Op) : Option Crew := (Tab.lookup o.src.warp s.warps).bind fun w => Tab.lookup w.crew s.crews

/-- The record of an event that an engine reports of an operation (R56). -/
def State.engineRecord (s : State) (o : Op) (cause origin : Nat) (addr : Addr) (lanes : LaneMask) (info : Word) :
    FaultRecord :=
  let w := Tab.lookup o.src.warp s.warps
  let c := s.crewOf o
  { cause := cause, noRegion := true, origin := origin, lanes := lanes, addr := addr, info := info,
    recCount := o.src.recCount, warp := (w.map (·.id)).getD 63, row := (c.map (·.row)).getD 0,
    col := (c.map (·.col)).getD 0, time := s.time }

/-- INFO of a stope record (R356). -/
def stopeInfo (sub chan bank pcw : Nat) : Word := field 28 sub ||| field 20 chan ||| field 15 bank ||| field 0 pcw

/-- The record and the shot of a unit that met a fault: kind, store word, address, lanes (R356, R378). -/
def State.unitRecord (s : State) (o : Op) (chan bank : Nat) (x : Nat × Nat × Addr × Nat) : State :=
  (s.postFault o.src.ctx
    (s.engineRecord o causeStope 2 x.2.2.1 (BitVec.ofNat 32 x.2.2.2) (stopeInfo x.1 chan bank x.2.1))).errorShot 4

/-- The records of the units of a context that met a fault and whose records are still due. -/
def State.dueRecords (s : State) (ctx : Nat) : State :=
  s.ops.foldl (fun s o =>
    match o.kind with
    | .stopeRun r true us =>
      if o.src.ctx != ctx then s
      else us.foldl (fun s u => match u.2.bad with
        | some x => if u.2.ended then s else s.unitRecord o r.chan u.1 x
        | none => s) s
    | _ => s) s

/-! ## Launch status and stopping a context -/

/-- Write a launch's STATUS, in the launch and in its record in memory (R37, R39).  Where the record's page is no longer
mapped the spec is silent: the model's choice is that the launch alone changes (notes/assumptions/42). -/
def State.writeStatus (s : State) (l code : Nat) : State :=
  match Tab.lookup l s.launches with
  | none => s
  | some x =>
    let s1 := { s with launches := Tab.put l { x with status := code } s.launches }
    match s1.walkCtx x.ctx (x.record + 2) with
    | none => s1
    | some y => s1.homeWrite 0 y.pa (leBytes code 2)

/-- Stop a context (R50, R51): its launches that have not ended get ABORTED and leave queues and placement lists, its
crews leave their cores and its warps issue nothing more; its stope runs end with their leases, once the records that faults of
their units made due are written (R356); its wait-table entries are freed, and its fragments stand under none. -/
def State.stopContext (s : State) (ctx : Nat) : State :=
  let mine := (s.launches.filter fun e => e.2.ctx == ctx && decide (e.2.status < 3)).map (·.1)
  let s1 := mine.foldl (fun s l => s.writeStatus l 0x8008) (s.dueRecords ctx)
  let ofCtx := fun (w : Warp) => s.ctxOfCrew w.crew == ctx
  let stope := fun (o : Op) => o.src.ctx == ctx && o.kind.stopeAt.isSome
  { s1 with
    ctxs := (match Tab.lookup ctx s1.ctxs with
      | some c => Tab.put ctx { c with state := .stopped } s1.ctxs
      | none => s1.ctxs)
    ops := s1.ops.filter fun o => !stope o
    leases := s1.leases.filter fun l => l.ctx != ctx
    queues := Tab.mapVals (fun _ q => { q with waiting := q.waiting.filter fun l => !mine.contains l }) s1.queues
    placement := s1.placement.map fun l => l.filter fun g => !mine.contains g.1
    crews := Tab.mapVals (fun _ c => if c.ctx == ctx then { c with state := .exited } else c) s1.crews
    warps := Tab.mapVals (fun _ w => if ofCtx w then { w with retired := true, frags := w.frags.map fun f => { f with park := none } } else w) s1.warps
    waits := s1.waits.filter fun e =>
      match e.2 with
      | .page c _ _ _ => c != ctx
      | .token c _ _ => c != ctx
    cur := match s1.cur with
      | some (k, n) =>
        if ((Tab.lookup k s1.warps).map ofCtx).getD false then none else some (k, n)
      | none => none }

/-- The members of sets that a quadrant has and that belong to none yet. -/
def Crew.members (c : Crew) (quad : Nat) : List Nat :=
  c.engine.filterMap fun m => match m.kind with
    | .mmaq _ _ _ _ [] _ => if m.quad == quad && !m.done then some m.id else none
    | _ => none

/-- At the exit of a crew the members of sets that can no longer come to have four are discarded, with nothing written (R292). -/
def Crew.discardPending (c : Crew) : Crew :=
  let sets := Nat.min (Nat.min (c.members 0).length (c.members 1).length) (Nat.min (c.members 2).length (c.members 3).length)
  let lost := (List.range 4).flatMap fun q => (c.members q).drop sets
  { c with engine := c.engine.filter fun m => !lost.contains m.id }

/-! ## What a word is, by its bits -/

def majorOf (w : Word) : Nat := bitsOf w.toNat 25 7
def subOf (w : Word) : Nat := bitsOf w.toNat 0 4
def fieldB (w : Word) : Nat := bitsOf w.toNat 4 7

/-- The control words (R83). -/
def isControl (w : Word) : Bool :=
  match majorOf w with
  | 0x01 | 0x02 => true
  | 0x03 => [1, 2, 3, 4, 5, 7].contains (subOf w)
  | 0x48 => decide (8 ≤ subOf w)
  | 0x5E => subOf w == 1
  | _ => false

/-- The control words that stand alone in their clause (R83). -/
def standsAlone (w : Word) : Bool :=
  match majorOf w with
  | 0x01 => subOf w == 5 || subOf w == 7
  | 0x03 => subOf w == 1 || subOf w == 5 || subOf w == 7
  | _ => false

/-- The long-latency words (R84, R87 and the entries).  A word of such a major with an unlisted X, or with a reserved bit set,
counts as one: the model's choice, where the spec does not say (notes/assumptions/42). -/
def isLong (w : Word) : Bool :=
  match majorOf w with
  | 0x08 | 0x09 | 0x1A | 0x1B => subOf w == 6 || subOf w == 7
  | 0x17 | 0x2C => true
  | 0x28 | 0x29 => subOf w == 5
  | 0x2F => subOf w < 2
  | 0x38 | 0x39 | 0x3A | 0x3B | 0x3D | 0x3E => true
  | 0x40 | 0x41 | 0x42 | 0x43 | 0x44 | 0x45 | 0x46 | 0x47 | 0x49 | 0x4A | 0x4B => true
  | 0x50 | 0x51 | 0x52 => true
  | 0x54 => subOf w < 2
  | 0x55 => subOf w != 3
  | 0x58 | 0x59 | 0x5A | 0x5B => true
  | 0x5C => subOf w < 2
  | 0x5D | 0x5F | 0x61 => true
  | _ => false

/-- A format-I word whose B field is zero: a consumer of a long immediate (R80).  A word of such a major with an unlisted X, or with
an A that must be 0 and is not, is none, so that the `lim` before it is illegal; so is a `lim` before a `limh` with a reserved bit
set: the model's choice, where the spec does not say (R111; notes/assumptions/42). -/
def takesLong (w : Word) : Bool :=
  fieldB w == 0 &&
  match majorOf w with
  | 0x09 | 0x1B => decide (subOf w ≤ 9)
  | 0x0B | 0x1D => decide (subOf w ≤ 6)
  | 0x0D | 0x1F => subOf w == 5 && bitsOf w.toNat 11 7 == 0
  | 0x0F | 0x21 | 0x29 => decide (subOf w ≤ 5)
  | 0x15 => decide (subOf w ≤ 3)
  | _ => false

/-- The flag to which the issuing long-latency word is tied (R84). -/
def Clause.flag (c : Clause) : Nat := if c.issued = 0 then c.setA else c.setB

/-- The fragment of a number and its warp. -/
def State.fragOf (s : State) (k n : Nat) : Option (Warp × Frag) :=
  match Tab.lookup k s.warps with
  | none => none
  | some w => (w.frag n).map fun f => (w, f)

/-- Fetch the word at a code address of a context, or the cause and whether translation raised it (R387): code lies
on PLAIN pages that permit reads.  An address of the on-chip map or beyond raises type-mismatch under a token entry: the
model's choice, where the spec names no cause (notes/assumptions/42). -/
def State.fetchWord (s : State) (ctx core : Nat) (a : Addr) : Except (Nat × Bool) Word :=
  if 2 ^ 56 ≤ a.toNat then .error (causeType, false)
  else
    match s.translate ctx core a.toNat true false with
    | .error c => .error (c, pageCause c)
    | .ok x =>
      if x.leaf.typeCode ≠ 0 then .error (causeType, false)
      else if s.uncorrectable x.pa 4 then .error (causeData, false)
      else .ok (s.word x.pa)

/-- The word at a code address, when it can be fetched. -/
def State.fetch (s : State) (ctx core : Nat) (a : Addr) : Option Word :=
  match s.fetchWord ctx core a with
  | .ok w => some w
  | .error _ => none

/-- Is the word at a code address one that can be fetched and is no header (R82, R387)? -/
def State.badHeader (s : State) (ctx core : Nat) (a : Addr) : Bool :=
  match s.fetch ctx core a with
  | some w => majorOf w != 0x7F
  | none => false

/-! ## A word at issue -/

/-- The word that issues: its warp and fragment, the clause in progress, the crew, and `Active()` (R17). -/
structure View where
  key : Nat
  no : Nat
  w : Warp
  f : Frag
  c : Clause
  crew : Crew
  act : LaneMask
  deriving DecidableEq, Repr

/-- The issuing fragment, when a clause of it is in progress. -/
def State.view (s : State) : Option View :=
  match s.cur with
  | none => none
  | some (k, n) =>
    match Tab.lookup k s.warps with
    | none => none
    | some w =>
      match w.frag n, Tab.lookup w.crew s.crews with
      | some f, some crew =>
        match f.clause with
        | some c => some ⟨k, n, w, f, c, crew, w.active f⟩
        | none => none
      | _, _ => none

/-- The address of the word that issues. -/
def View.addr (v : View) : Addr := v.c.header + BitVec.ofNat 64 (4 * (v.c.pos + 1))

/-- The word that issues. -/
def View.word (v : View) : Word := v.c.words.getD v.c.pos 0

/-- The address of the header after the clause in progress. -/
def Clause.after (c : Clause) : Addr := c.header + BitVec.ofNat 64 (4 * (c.words.length + 1))

/-- MODE.TYPE of the issuing fragment. -/
def View.type (v : View) : Nat := modeType v.f.mode

/-- What a class-W fault of a word reports (R54, R55): causes and lanes, ADDR, INFO; when translation raised the
cause, the granule of the page and whether the access reads and writes. -/
structure FaultInfo where
  cause : Nat
  lanes : LaneMask
  other : LaneMask := 0
  ocause : Nat := 0
  addr : Addr := 0
  info : Word := 0
  granule : Option Nat := none
  read : Bool := true
  write : Bool := false
  deriving DecidableEq, Repr

/-- A cause of the instruction, not of a lane: LANES holds every active lane (R55). -/
def View.cause (v : View) (c : Nat) : FaultInfo := { cause := c, lanes := v.act }

/-- Illegal-instruction: INFO holds the word (R56). -/
def View.illegal (v : View) : FaultInfo := { cause := causeIllegal, lanes := v.act, info := v.word }

/-- The record of a fault or event of a fragment at word `pos` of the clause at `fpc` (R56). -/
def State.recordOf (s : State) (w : Warp) (f : Frag) (x : FaultInfo) (pos : Nat) (fpc : Addr) (noRegion : Bool)
    (token : Nat) (page : Bool) : FaultRecord :=
  let crew := Tab.lookup w.crew s.crews
  { cause := x.cause, noRegion := noRegion, page := page, frag := f.mask, word := pos, lanes := x.lanes,
    other := x.other, ocause := x.ocause, addr := x.addr, recCount := w.recCount, warp := w.id, token := token,
    epc := if noRegion then fpc else (f.region.map (·.entry)).getD fpc,
    row := (crew.map (·.row)).getD 0, col := (crew.map (·.col)).getD 0, info := x.info, time := s.time, fpc := fpc }

/-- Does a slice of the fragment hold a filled trap slot? -/
def Warp.inTrap (w : Warp) (m : SliceMask) : Bool := (sliceList m).any fun k => (w.slice k).trap.isSome

/-- A double trap of a fragment: its record, and the context stops (R53).  Its cause belongs to no lane's access, so that its
record has ADDR, OTHER, OCAUSE and INFO 0 (R56); LANES holds the lanes active then (notes/assumptions/43). -/
def State.doubleTrap (s : State) (w : Warp) (f : Frag) (pos : Nat) (fpc : Addr) (noRegion : Bool) : State :=
  let ctx := s.ctxOfCrew w.crew
  ((s.postFault ctx (s.recordOf w f { cause := causeDoubleTrap, lanes := w.active f } pos fpc noRegion 0 false)).errorShot
    0).stopContext ctx

/-- What a parked fragment leaves behind (R11, R59, R60): the completion flag of the aborted operation is clear, and the
writes that it will make again are no longer pending.  `other` says of a request that it is in flight for another fragment. -/
def Warp.abandon (w : Warp) (m : SliceMask) (flag : Option Nat) (since : Nat) (other : Nat → Bool) : Warp :=
  let keep : BitVec 12 := match flag with
    | some n => if n < 12 then ~~~ BitVec.ofNat 12 (2 ^ n) else BitVec.allOnes 12
    | none => BitVec.allOnes 12
  { (w.mapSlices m fun _ x => { x with flags := x.flags &&& keep }) with
    pending := (w.pending.map fun q => if since ≤ q.op && !other q.op then { q with slices := q.slices &&& ~~~ m } else q).filter fun q =>
      q.slices != 0 }

/-- The token entry that a fragment is parked under is freed (R61). -/
def State.freeToken (s : State) (f : Frag) : State :=
  match f.park with
  | some (m, _) =>
    match f.state, Tab.lookup m s.waits with
    | .parked, some (.token ..) => { s with waits := Tab.erase m s.waits }
    | _, _ => s
  | none => s

/-- Is a request in flight that slices outside a mask issued? -/
def State.issuedBeside (s : State) (m : SliceMask) (id : Nat) : Bool := s.ops.any fun o => o.id == id && o.src.slices &&& m == 0

/-- Park a fragment with a class-W fault (R53 to R57, R59, R61): with a filled trap slot it is a double trap and the
context stops; otherwise the fragment parks under an entry of the wait table and its record goes to the context's
fault queue.  Under a released page entry, or when a second translation succeeds, it resumes at once (R12).  `flag` is that
of the aborted operation (R11), `since` the number of the first request that the restart makes again (R60). -/
def State.park (s : State) (k n : Nat) (x : FaultInfo) (pos : Nat) (fpc : Addr) (back : Restart) (flag : Option Nat)
    (since : Nat) : State :=
  match Tab.lookup k s.warps with
  | none => s
  | some w =>
    match w.frag n with
    | none => s
    | some f =>
      let ctx := s.ctxOfCrew w.crew
      let core := ((Tab.lookup w.crew s.crews).map (·.core)).getD 0
      let noRegion := back == .boundary || f.region.isNone
      if w.inTrap f.mask then s.doubleTrap w f pos fpc noRegion
      else
        let parked : Nat → Frag := fun e =>
          { f with state := .parked, clause := none, suspended := false, waitOp := none, pc := fpc, park := some (e, back),
                   raised := if back == .replay then [] else f.raised }
        let at' := fun (s : State) (e : Nat) (pg : Bool) =>
          let w1 := if back == .replay then w.abandon f.mask flag since (s.issuedBeside f.mask) else w
          let s1 := (s.setWarp k (w1.putFrag n (parked e))).settleFlags k
          let s2 := s1.postFault ctx (s.recordOf w f x pos fpc noRegion e pg)
          { s2 with cur := if s2.cur == some (k, n) then none else s2.cur }
        let s := s.freeToken f
        match x.granule with
        | some g =>
          match s.pageEntry ctx g with
          | some (e, true) => (at' s e true).wake k n
          | some (e, false) => at' s e true
          | none =>
            match s.translate ctx core x.addr.toNat x.read x.write with
            | .ok _ => (at' s 0 false).wake k n
            | .error _ =>
              let (e, s1) := s.allocEntry (.page ctx g false 0)
              at' s1 e (e != 0)
        | none =>
          let (e, s1) := s.allocEntry (.token ctx k n)
          at' s1 e false

/-- The flag of the word at which a fragment stands, when it is a long-latency word of a clause in progress. -/
def Frag.wordFlag (f : Frag) : Option Nat :=
  f.clause.bind fun c => if isLong (c.words.getD c.pos 0) then some c.flag else none

/-- The number of the first request that a fragment which parks now makes again (R59, R60). -/
def Frag.since (f : Frag) (next : Nat) : Nat :=
  match f.region, f.clause with
  | some r, _ => r.since
  | none, some c => c.since
  | none, none => next

/-- Take the class-W fault of a fragment at the word at which it stands, or between clauses (R53 to R57, R59, R61). -/
def State.takeFault (s : State) (k n : Nat) (x : FaultInfo) (pos : Nat) (fpc : Addr) (back : Restart) : State :=
  match s.fragOf k n with
  | none => s
  | some (_, f) => s.park k n x pos fpc back f.wordFlag (f.since s.nextId)

/-- Put a class-T cause on the fragment's list of raised causes; the first of a clause counts (R52). -/
def Frag.raise (f : Frag) (x : Waiting) : Frag :=
  if f.raised.any fun y => y.cause == x.cause then f else { f with raised := f.raised ++ [x] }

/-- Insert a waiting cause in the order of its code. -/
def insertWaiting (x : Waiting) : List Waiting → List Waiting
  | [] => [x]
  | y :: ys => if x.cause < y.cause then x :: y :: ys else y :: insertWaiting x ys

/-- Is the fragment at a clause boundary at which it could start a clause, or waits to?  HELD is the wait of a clause with
`rdflg` or `clrflg` (R178, R223). -/
def Frag.atBoundary (f : Frag) : Bool :=
  f.clause.isNone && (f.state == .ready || f.state == .trapped || f.state == .flagWait || f.state == .held)

/-- Is the timer of a warp due (R69, R369)? -/
def Warp.timerDue (w : Warp) : Bool := w.tmrthr != 0 && decide (w.tmrthr.toNat ≤ w.wtimer.toNat)

/-- The fragment to which a timer that is due falls: the one that reached a clause boundary first, when it still stands there; else
of those at a boundary the one with the lowest number (R369). -/
def Warp.timerTaker (w : Warp) : Option Nat :=
  let l := (w.frags.filter Frag.atBoundary).map fun f => fragNo f.mask
  match w.timerFor with
  | some n => if l.contains n then some n else (List.range 8).find? l.contains
  | none => (List.range 8).find? l.contains

/-- Does the timer trap that is due fall to a fragment (R369)? -/
def Warp.takesTimer (w : Warp) (f : Frag) : Bool := w.timerDue && f.atBoundary && w.timerTaker == some (fragNo f.mask)

/-- A fragment of a warp is about to reach a clause boundary: when the timer is due and has fallen to no other yet, it falls to
this one (R369). -/
def Warp.reachBoundary (w : Warp) (n : Nat) : Warp :=
  if w.timerDue then { w with timerFor := some (w.timerTaker.getD n) } else w

/-- The timer trap of a warp that is due is raised for the fragment that takes it; TMRTHR becomes 0 (R69, R369). -/
def Warp.raiseTimer (w : Warp) (f : Frag) : Warp × Frag :=
  if w.takesTimer f then
    ({ w with tmrthr := 0, timerFor := none }, f.raise ⟨causeTimer, loWord w.wtimer, w.active f, w.inTrap f.mask⟩)
  else (w, f)

/-- Take the traps of a fragment at a clause boundary (R52, R53), a timer that is due among them: causes raised while a slot
was filled are a double trap; otherwise the lowest waiting cause fills the slots of the fragment's slices and the fragment
goes to TVEC, or parks as a class-W fault when TVEC is 0.  A vector whose word is no header raises bad-target at the boundary,
before the slots fill, and the trap is taken again after the restart (R82; notes/assumptions/43). -/
def State.enterTrap (s : State) (k n : Nat) : State :=
  match s.fragOf k n with
  | none => s
  | some (w0, f0) =>
    if !f0.atBoundary then s else
    let (w, f) := w0.raiseTimer f0
    let ctx := s.ctxOfCrew w.crew
    let core := ((Tab.lookup w.crew s.crews).map (·.core)).getD 0
    let busy := w.inTrap f.mask
    if (busy && !f.raised.isEmpty) || f.raised.any fun x => x.inTrap then s.doubleTrap w f 0 f.pc f.region.isNone
    else
      let all := f.raised.foldl (fun l x => insertWaiting x l) f.waiting
      match all with
      | [] => s
      | x :: rest =>
        if busy then s
        else
          let value := if x.cause = causeTimer then loWord w.wtimer else x.value
          let f1 := { f with raised := [], waiting := rest }
          if w.tvec = 0 then
            (s.setWarp k (w.putFrag n f1)).takeFault k n { cause := x.cause, lanes := x.lanes, info := value } 0 f.pc
              .boundary
          else if s.badHeader ctx core w.tvec then
            (s.setWarp k (w.putFrag n f)).takeFault k n { cause := causeBadTarget, lanes := w.active f } 0 f.pc .boundary
          else
            s.setWarp k ((w.mapSlices f.mask fun _ y => { y with trap := some ⟨f.pc, y.cm, x.cause, value⟩ }).putFrag n
              { f1 with pc := w.tvec, state := .trapped })

/-- What `rtt` restores (R52, R365): `none` when a slice's slot is empty.  PC and CM come from the slots, which
empty; the fragment's PC is that of its lowest slice. -/
def Warp.leaveTrap (w : Warp) (f : Frag) : Option (Warp × Addr) :=
  if (sliceList f.mask).all fun k => (w.slice k).trap.isSome then
    let pc := ((w.slice (fragNo f.mask)).trap.map (·.pc)).getD f.pc
    some (w.mapSlices f.mask fun _ y =>
      match y.trap with
      | some t => { y with cm := t.cm, trap := none }
      | none => y, pc)
  else none

end Sys2Proof.Machine
end

