-- ==== Sys2Proof/Machine/Issue.lean ====
section
/-! DEFINITION. The course of an instruction word: the checks at its issue, its effect, and what follows it: the next
word, a loop end, a redirect, the clause boundary (R19, R22, R47, R75, R79, R80, R83 to R85, R102). -/

namespace Sys2Proof.Machine

/-! ## Operand checks -/

/-- What a word asks for at issue: the registers that it reads and writes, those that it names and neither reads nor writes before
its operation retires, whether it is long-latency, and whether its operands keep the limits that depend on the state (pairs,
types). -/
structure Shape where
  reads : List Reg := []
  writes : List Reg := []
  also : List Reg := []
  long : Bool := false
  ok : Bool := true
  deriving DecidableEq, Repr

/-- The words that act on the active lanes, and so read the predicate that MODE.GUARD names (R74, R95 and the entries). -/
def honoursGuard (w : Word) : Bool :=
  let x := subOf w
  match majorOf w with
  | 0x01 => (x == 0 && bitsOf w.toNat 20 1 == 1) || x == 1
  | 0x03 => x == 2 || x == 3 || x == 4
  | 0x07 => x == 0 || (x == 1 && [0x00, 0x01, 0x15].contains (bitsOf w.toNat 11 7))
  | 0x31 => x == 0
  | 0x55 => x == 4
  | m => decide (0x08 ≤ m ∧ m ≤ 0x16 ∨ 0x18 ≤ m ∧ m ≤ 0x19 ∨ 0x28 ≤ m ∧ m ≤ 0x30 ∨ m = 0x32 ∨ 0x38 ≤ m ∧ m ≤ 0x3B ∨
      0x40 ≤ m ∧ m ≤ 0x47 ∨ m = 0x5B)

/-- The predicate that a word reads as its guard (R73, R74). -/
def View.guardReads (v : View) : List Reg :=
  if honoursGuard v.word && decide (8 ≤ modeGuard v.f.mode) then [.p (modeGuard v.f.mode % 8)] else []

/-- Is a register one that the warp has (R75)? -/
def Warp.hasReg (w : Warp) : Reg → Bool
  | .v n => decide (n < w.nregs ∧ n < 128)
  | .p n => decide (n < 8)
  | .s n => decide (n < 64)
  | .b n => decide (n < 16)
  | .sr _ => true

/-- Has a register a pending write that some slice of the fragment has not covered (R85)?  R85 names no rule for the slices of other
fragments, which did not issue the write, where the register is one of the whole warp: the model's choice is that it is no hazard
to them (notes/assumptions/42). -/
def Warp.hazard (w : Warp) (m : SliceMask) (r : Reg) : Bool :=
  w.pending.any fun q => q.slices &&& m != 0 && q.regs.contains r

/-- What becomes of a word. -/
inductive Res where
  /-- its effect is had; `examine`: R19 examines the fragment after it -/
  | done (s : State) (examine : Bool := false)
  /-- its effect is had and it names where to go on; `branch`: a taken branch in the sense of R22 -/
  | goto (s : State) (pc : Addr) (branch : Bool) (examine : Bool := false)
  /-- its effect is had and the next word consumes a long immediate (R80) -/
  | carry (s : State) (long : Word)
  /-- it holds the fragment in a state (R223) -/
  | hold (s : State) (st : FragState)
  /-- it has put its fragment where it belongs itself -/
  | left (s : State)
  /-- a class-W fault -/
  | fault (s : State) (x : FaultInfo)

/-! ## Regions (R58) -/

/-- End the open region of a fragment. -/
def Frag.endRegion (f : Frag) : Frag := { f with region := none }

/-- End the region of the issuing fragment. -/
def State.endRegion (s : State) (v : View) : State := s.mapFrag v.key v.no Frag.endRegion

/-- What R58 watches of a stack entry: KIND, MASK, AUX and COUNT. -/
def StackEntry.watched (e : StackEntry) : EntryKind × BitVec 4 × BitVec 8 × Word := (e.kind, e.mask, e.aux, e.count)

/-- The entries of a slice that were present at a depth, bottom first. -/
def Slice.below (x : Slice) (depth : Nat) : List (EntryKind × BitVec 4 × BitVec 8 × Word) :=
  (x.stack.reverse.take depth).map StackEntry.watched

/-- End the region when, between two states of the warp, an entry that was present at its opening was popped or its
mask, count or AUX changed. -/
def Frag.touch (f : Frag) (w0 w1 : Warp) : Frag :=
  match f.region with
  | none => f
  | some r =>
    if r.slices.all fun q => (w0.slice q.slice).below q.depth == (w1.slice q.slice).below q.depth then f
    else f.endRegion

/-! ## After a word -/

/-- Leave the issue slot. -/
def State.release (s : State) (k n : Nat) : State := if s.cur == some (k, n) then { s with cur := none } else s

/-- Is the target of a branch or redirect a word that was fetched and is no header (R82, R387)? -/
def State.badTarget (s : State) (v : View) (a : Addr) : Bool :=
  s.badHeader v.crew.ctx v.crew.core a

/-- The outcome of examining a fragment (R19): nothing, a redirect, or the end of the fragment. -/
inductive Look where
  | stay | redirect (target : Word) | ended
  deriving DecidableEq, Repr

/-- Examine a fragment (R19). -/
def Warp.examine (w : Warp) (m : SliceMask) : Look :=
  if (sliceList m).any fun k => (w.slice k).cm &&& ~~~ (w.slice k).xm != 0 then .stay
  else
    match (sliceList m).find? fun k => !(w.slice k).finished with
    | none => .ended
    | some k =>
      match (w.slice k).stack with
      | e :: _ =>
        match e.kind with
        | .ifEntry | .loopEntry | .markEntry => .redirect e.target
        | _ => .stay
      | [] => .stay

/-- Pop the top entry of a slice; an RPT entry frees its loop-end register. -/
def Slice.pop (x : Slice) : Slice :=
  match x.stack with
  | e :: es => { x with stack := es, loopEnds := if e.kind == .rptEntry then x.loopEnds.drop 1 else x.loopEnds }
  | [] => x

/-- Is the top entry of slice k an RPT whose loop-end register holds the address (R102)? -/
def Slice.endsLoop (x : Slice) (a : Addr) : Bool :=
  match x.stack, x.loopEnds with
  | e :: _, l :: _ => e.kind == .rptEntry && l == a
  | _, _ => false

/-- Lower the count of the top entry by one. -/
def Slice.countDown (x : Slice) : Slice :=
  match x.stack with
  | e :: es => { x with stack := { e with count := e.count - 1 } :: es }
  | [] => x

/-- The body's last word has completed (R22): count down, go back, or pop and look at the next RPT with the same
end.  The fragment's lowest unfinished slice decides.  Answers the warp, where to go back to, and whether an entry was
popped. -/
def Warp.loopEnd (w : Warp) (m : SliceMask) (a : Addr) : Nat → Warp × Option Word × Bool
  | 0 => (w, none, false)
  | n + 1 =>
    let k := ((sliceList m).find? fun k => !(w.slice k).finished).getD (fragNo m)
    let x := w.slice k
    if !x.endsLoop a then (w, none, false)
    else
      match x.stack with
      | [] => (w, none, false)
      | e :: _ =>
        if e.count.toNat ≤ 1 then
          let (w2, back, _) := (w.mapSlices m fun _ y => y.pop).loopEnd m a n
          (w2, back, true)
        else (w.mapSlices m fun _ y => y.countDown, some e.target, false)

/-- The fragment ends: every lane of it is exited (R19). -/
def Frag.finish (f : Frag) : Frag :=
  { f with state := .done, clause := none, suspended := false, region := none, waitOp := none }

/-- The clause of a fragment ends and the fragment goes on at `pc`. -/
def State.endClause (s : State) (k n : Nat) (pc : Addr) : State :=
  match s.fragOf k n with
  | none => s.release k n
  | some (w, f) =>
    let f1 := { f with clause := none, suspended := false, pc := pc, state := w.goingState f.mask, waitOp := none }
    ((s.setWarp k ((w.reachBoundary n).putFrag n f1)).settleFlags k).release k n

/-- The fragment ends. -/
def State.endFrag (s : State) (k n : Nat) : State :=
  ((s.mapFrag k n Frag.finish).settleFlags k).release k n

/-- Go on after a word that had its effect: the next word of its clause, or, after the last, the place that the word,
the loop end (R22) and the redirect (R19) give.  A fragment whose hold ends in the middle of its clause is READY, its clause
suspended until it issues again, which it does when no other fragment of its quadrant is between two words of a run (R47,
R223).  `undo` is the state before the word, for a target that is no header (R82).  Where a redirect of R19 leads to the very next
clause address and no header stands there, both sentences of R82 apply: the model's choice is that of the next clause's start,
illegal-instruction (notes/assumptions/42). -/
def State.after (undo s : State) (v : View) (long : Bool) (goto : Option Addr) (branch examine : Bool) : State :=
  match s.fragOf v.key v.no with
  | none => s.release v.key v.no
  | some (w, f) =>
    if v.c.pos + 1 < v.c.words.length && goto.isNone then
      if examine && w.examine f.mask == .ended then s.endFrag v.key v.no
      else
        let c := { v.c with pos := v.c.pos + 1, long := none, issued := v.c.issued + long.toNat }
        (s.mapFrag v.key v.no fun f =>
          { f with clause := some c, suspended := s.cur != some (v.key, v.no), state := w.goingState f.mask, waitOp := none })
    else
      let k := ((sliceList f.mask).find? fun k => !(w.slice k).finished).getD (fragNo f.mask)
      let atEnd := (w.slice k).endsLoop v.addr
      let (w1, back, popped) :=
        if !atEnd then (w, none, false)
        else if branch then (w.mapSlices f.mask fun _ y => y.pop, none, true)
        else w.loopEnd f.mask v.addr 16
      let pc := (back.map (codeNear v.c.header)).getD (goto.getD v.c.after)
      let s1 := s.setWarp v.key (w1.putFrag v.no (f.touch v.w w1))
      let dest : Option Addr :=
        if examine || popped then
          match w1.examine f.mask with
          | .stay => some pc
          | .redirect t => some (codeNear v.c.header t)
          | .ended => none
        else some pc
      match dest with
      | none => s1.endFrag v.key v.no
      | some a =>
        if (goto.isSome || back.isSome || a != pc) && s.badTarget v a then
          undo.takeFault v.key v.no (v.cause causeBadTarget) v.c.pos v.c.header .replay
        else s1.endClause v.key v.no a

/-- Settle what a word came to. -/
def State.settle (s : State) (v : View) (sh : Shape) (r : Res) : State :=
  let pend := fun (t : State) =>
    if sh.long && !sh.writes.isEmpty then
      t.mapWarp v.key fun w => { w with pending := w.pending ++ [⟨s.nextId, sh.writes, v.c.flag, v.f.mask⟩] }
    else t
  match r with
  | .done t ex => s.after (pend t) v sh.long none false ex
  | .goto t pc br ex => s.after (pend t) v sh.long (some pc) br ex
  | .carry t l => t.mapFrag v.key v.no fun f =>
      { f with clause := some { v.c with pos := v.c.pos + 1, long := some l } }
  | .hold t st => (t.mapFrag v.key v.no fun f => { f with state := st, suspended := true }).release v.key v.no
  | .left t => t.release v.key v.no
  | .fault t x => t.takeFault v.key v.no x v.c.pos v.c.header .replay

/-- The checks at issue, in order: the operands' limits and registers (R75), a long-latency word that writes a
register and is tied to no flag (R84), a pending write of a register that it names or of its guard (R85), a register that it
reads with an uncorrectable error (R71). -/
def View.check (v : View) (sh : Shape) : Option FaultInfo :=
  if !sh.ok || !(sh.reads ++ sh.writes ++ sh.also).all v.w.hasReg then some v.illegal
  else if sh.long && !sh.writes.isEmpty && v.c.flag == 15 then some v.illegal
  else if (v.guardReads ++ sh.reads ++ sh.writes ++ sh.also).any (v.w.hazard v.f.mask) then some (v.cause causeHazard)
  else if (v.guardReads ++ sh.reads).any v.w.bad.contains then some (v.cause causeData)
  else none

/-- Issue a word: the fragment that issues, the checks, the effect, what follows. -/
def issueWord (shape : View → Shape) (body : View → State → Res) (s : State) : Host.Outcome State Fault Refusal :=
  match s.view with
  | none => .fault .noIssuingFragment
  | some v =>
    let sh := shape v
    match v.check sh with
    | some x => .next (s.takeFault v.key v.no x v.c.pos v.c.header .replay)
    | none => .next (s.settle v sh (body v s))

/-- A word that only changes its warp. -/
def onWarp (v : View) (s : State) (g : Warp → Warp) : Res := .done (s.mapWarp v.key g)

/-- The request source of the issuing word (R56, R84). -/
def View.src (v : View) : Src where
  ctx := v.crew.ctx
  warp := v.key
  slices := v.f.mask
  header := v.c.header
  pos := v.c.pos
  mode := v.f.mode
  lanes := v.act
  flag := v.c.flag
  region := v.f.region
  since := v.f.since v.c.since
  recCount := v.w.recCount
  first := none
  faulted := false

/-- Add a request at the end of the list. -/
def State.addOp (s : State) (src : Src) (kind : OpKind) (granted completed : Bool) : State :=
  { s with ops := s.ops ++ [⟨s.nextId, kind, src, granted, completed, s.nextId, s.nextId⟩], nextId := s.nextId + 1 }

/-- Add a request of a word whose first request has a number. -/
def State.addPart (s : State) (first : Nat) (src : Src) (kind : OpKind) (granted : Bool) : State :=
  { s with ops := s.ops ++ [⟨s.nextId, kind, src, granted, false, s.nextId, first⟩], nextId := s.nextId + 1 }

/-- Raise a class-T cause for the issuing fragment (R52). -/
def State.raiseTrap (s : State) (v : View) (cause : Nat) (value : Word) : State :=
  s.mapFrag v.key v.no fun f => f.raise ⟨cause, value, v.act, v.w.inTrap v.f.mask⟩

end Sys2Proof.Machine
end

