-- ==== Sys2Proof/Machine/Flags.lean ====
section
/-! DEFINITION. FLAGS and the exception counters (R78, R156 to R158): how often each of invalid, divide-by-zero,
overflow, underflow, inexact and saturated was raised, and what that does to a warp. -/

namespace Sys2Proof.Machine

/-- Nothing raised. -/
def Exc.none : Exc := ⟨0, 0, 0, 0, 0, 0⟩

/-- The counts of two sets of raises. -/
def Exc.add (a b : Exc) : Exc :=
  ⟨a.nv + b.nv, a.dz + b.dz, a.ov + b.ov, a.uf + b.uf, a.nx + b.nx, a.sa + b.sa⟩

/-- The counts of a list of raises. -/
def Exc.sum (l : List Exc) : Exc := l.foldl Exc.add Exc.none

/-- Each raised flag counted once (R133, R158: an instruction whose flags are the OR over its nodes). -/
def Exc.once (a : Exc) : Exc :=
  ⟨Nat.min a.nv 1, Nat.min a.dz 1, Nat.min a.ov 1, Nat.min a.uf 1, Nat.min a.nx 1, Nat.min a.sa 1⟩

/-- `n` saturations. -/
def Exc.sat (n : Nat) : Exc := { Exc.none with sa := n }

/-- The FLAGS bits of a set of raises: NV, DZ, OF, UF, NX, SA from bit 0 (R78). -/
def Exc.bits (a : Exc) : Word :=
  field 0 (Nat.min a.nv 1) ||| field 1 (Nat.min a.dz 1) ||| field 2 (Nat.min a.ov 1) ||| field 3 (Nat.min a.uf 1) |||
    field 4 (Nat.min a.nx 1) ||| field 5 (Nat.min a.sa 1)

/-- A 32-bit counter that stays at its greatest value (R77). -/
def satCount (x n : Nat) : Nat := Nat.min (x + n) (2 ^ 32 - 1)

/-- Raise flags of a warp: sticky FLAGS bits by OR, the counters by the number of raises (R28, R77, R158). -/
def Warp.raiseExc (w : Warp) (e : Exc) : Warp :=
  { w with
    flags := w.flags ||| e.bits
    xc := ⟨satCount w.xc.nv e.nv, satCount w.xc.dz e.dz, satCount w.xc.ov e.ov, satCount w.xc.uf e.uf,
      satCount w.xc.nx e.nx, satCount w.xc.sa e.sa⟩ }

/-- The counter of a FLAGS bit number. -/
def Exc.get (e : Exc) (n : Nat) : Nat :=
  match n with
  | 0 => e.nv | 1 => e.dz | 2 => e.ov | 3 => e.uf | 4 => e.nx | _ => e.sa

/-- Clear the counters whose bit is set in a mask (R178). -/
def Exc.clear (e : Exc) (m : BitVec 7) : Exc :=
  let z := fun (n x : Nat) => if m.getLsbD n then 0 else x
  ⟨z 0 e.nv, z 1 e.dz, z 2 e.ov, z 3 e.uf, z 4 e.nx, z 5 e.sa⟩

end Sys2Proof.Machine
end

