-- ==== Sys2Proof/Machine/Operands.lean ====
section
/-! DEFINITION. The operand forms: width and signedness by MODE.TYPE (R94), register pairs (R75), immediates (R79,
R80), and the writing of results. -/

namespace Sys2Proof.Machine

/-- The operation width of an element type (R94). -/
def typeWidth (ty : Nat) : Nat :=
  match ty with
  | 0 | 7 => 64
  | 3 | 4 => 16
  | 5 | 6 => 8
  | _ => 32

/-- The signedness of an element type (R94). -/
def typeSigned (ty : Nat) : Bool := !(ty == 2 || ty == 4 || ty == 6)

/-- Do lane operands of the type take a pair of registers (R94)? -/
def typeWide (ty : Nat) : Bool := typeWidth ty == 64

/-- The value of the low `n` bits of a number, as signed or unsigned. -/
def valueOf (n : Nat) (signed : Bool) (x : Nat) : Int :=
  let y := x % 2 ^ n
  if signed && decide (2 ^ n ≤ 2 * y) then (y : Int) - 2 ^ n else y

/-- An integer modulo 2^n, as a number. -/
def natOf (n : Nat) (x : Int) : Nat := (x % (2 ^ n : Nat)).toNat

/-- The least and the greatest value of a width (R96). -/
def minOf (n : Nat) (signed : Bool) : Int := if signed then -(2 ^ (n - 1) : Nat) else 0
def maxOf (n : Nat) (signed : Bool) : Int := if signed then (2 ^ (n - 1) : Nat) - 1 else (2 ^ n : Nat) - 1

/-- An exact result reduced to the width: wrapped, or clamped under SAT with a note that it was clamped (R96). -/
def narrow (n : Nat) (signed sat : Bool) (x : Int) : Int × Bool :=
  if sat then
    if x < minOf n signed then (minOf n signed, true)
    else if maxOf n signed < x then (maxOf n signed, true)
    else (x, false)
  else (valueOf n signed (natOf n x), false)

/-! ## Lane registers -/

/-- The 32 or, for a pair, 64 bits of a lane operand. -/
def Warp.laneBits (w : Warp) (wide : Bool) (r n : Nat) : Nat :=
  if wide then ((w.vreg r).get n).toNat + 2 ^ 32 * ((w.vreg (r + 1)).get n).toNat else ((w.vreg r).get n).toNat

/-- A lane operand at the width and signedness of MODE.TYPE (R94). -/
def View.lane (v : View) (r n : Nat) : Int :=
  valueOf (typeWidth v.type) (typeSigned v.type) (v.w.laneBits (typeWide v.type) r n)

/-- Write a number into the lanes of a register, or of a pair; the tile that it aliases takes a tag (R76). -/
def Warp.writeLanes (w : Warp) (ty : Nat) (wide : Bool) (d : Nat) (m : LaneMask) (f : Nat → Nat) : Warp :=
  let lo := w.setV ty d m (Lanes.ofFn fun n => BitVec.ofNat 32 (f n))
  if wide then lo.setV ty (d + 1) m (Lanes.ofFn fun n => BitVec.ofNat 32 (f n / 2 ^ 32)) else lo

/-- Write integer results, extended for their destination: to 32 bits, or to the pair (R94). -/
def View.writeInts (v : View) (w : Warp) (d : Nat) (f : Nat → Int) : Warp :=
  let wide := typeWide v.type
  w.writeLanes v.type wide d v.act fun n => natOf (if wide then 64 else 32) (f n)

/-- The registers of a lane operand: one, or a pair (R75, R94). -/
def laneRegs (wide : Bool) (r : Nat) : List Reg := if wide then [.v r, .v (r + 1)] else [.v r]

/-- A lane operand that takes a pair has an even number (R75). -/
def pairOk (wide : Bool) (r : Nat) : Bool := !wide || r % 2 == 0

/-! ## Uniform registers and immediates -/

/-- A uniform operand at the width of MODE.TYPE; 64-bit types use the whole register (R94). -/
def View.uni (v : View) (r : Nat) : Int := valueOf (typeWidth v.type) (typeSigned v.type) (v.w.sreg r).toNat

/-- The bits of an integer result for a uniform register: extended to 64 bits by signedness (R94). -/
def uniBits (x : Int) : DWord := BitVec.ofInt 64 x

/-- The immediate of a format-I word: the long immediate when one waits, else the 7 bits sign-extended (R79, R80). -/
def View.immInt (v : View) (i : BitVec 7) : Int :=
  match v.c.long with
  | some l => l.toInt
  | none => i.toInt

/-- The immediate taken to the width of MODE.TYPE (R94). -/
def View.imm (v : View) (i : BitVec 7) : Int :=
  valueOf (typeWidth v.type) (typeSigned v.type) (natOf 64 (v.immInt i))

/-! ## Shapes of the usual forms -/

/-- Lane form with two register sources. -/
def shapeR (d a b : BitVec 7) (long : Bool := false) (v : View) : Shape :=
  let wide := typeWide v.type
  { reads := laneRegs wide a.toNat ++ laneRegs wide b.toNat
    writes := laneRegs wide d.toNat
    long := long
    ok := pairOk wide d.toNat && pairOk wide a.toNat && pairOk wide b.toNat }

/-- Lane form that reads its destination as a third source. -/
def shapeRD (d a b : BitVec 7) (v : View) : Shape :=
  let sh := shapeR d a b false v
  { sh with reads := laneRegs (typeWide v.type) d.toNat ++ sh.reads }

/-- Lane form with one register source: immediate forms and unary words. -/
def shapeI (d a : BitVec 7) (long : Bool := false) (v : View) : Shape :=
  let wide := typeWide v.type
  { reads := laneRegs wide a.toNat
    writes := laneRegs wide d.toNat
    long := long
    ok := pairOk wide d.toNat && pairOk wide a.toNat }

/-- Uniform form with two register sources. -/
def shapeS (d a b : BitVec 7) (long : Bool := false) (_ : View) : Shape :=
  { reads := [.s a.toNat, .s b.toNat], writes := [.s d.toNat], long := long }

/-- Uniform form with one register source. -/
def shapeSI (d a : BitVec 7) (long : Bool := false) (_ : View) : Shape :=
  { reads := [.s a.toNat], writes := [.s d.toNat], long := long }

/-- A word without register operands. -/
def shapeNone (_ : View) : Shape := {}

end Sys2Proof.Machine
end

