-- ==== Sys2Proof/Machine/IntAlu.lean ====
section
/-! DEFINITION. Integer arithmetic, logic, shifts, compares, multiply-add, bit fields, selects, lane masks, uniform
and predicate moves (R114 to R126). -/

namespace Sys2Proof.Machine

/-- An integer operation: width, signedness, SAT, and two operands; the result and what it raises. -/
abbrev IntFn := Nat → Bool → Bool → Int → Int → Int × Exc

/-- An exact result that wraps or, under SAT, clamps and raises SA (R96). -/
def narrowed (w : Nat) (sg sat : Bool) (x : Int) : Int × Exc :=
  let r := narrow w sg sat x
  (r.1, if r.2 then Exc.sat 1 else Exc.none)

/-- A W-bit pattern as a result (R94). -/
def patterned (w : Nat) (sg : Bool) (x : Nat) : Int × Exc := (valueOf w sg x, Exc.none)

/-- `add` (R114). -/
def fnAdd : IntFn := fun w sg sat a b => narrowed w sg sat (a + b)
/-- `sub` (R114). -/
def fnSub : IntFn := fun w sg sat a b => narrowed w sg sat (a - b)
/-- `mul` (R114). -/
def fnMul : IntFn := fun w sg sat a b => narrowed w sg sat (a * b)
/-- `mulh`: the exact product shifted right by W, rounded down (R114). -/
def fnMulh : IntFn := fun w _ _ a b => (Int.fdiv (a * b) (2 ^ w : Nat), Exc.none)
/-- `min` (R114). -/
def fnMin : IntFn := fun _ _ _ a b => (if b < a then b else a, Exc.none)
/-- `max` (R114). -/
def fnMax : IntFn := fun _ _ _ a b => (if a < b then b else a, Exc.none)
/-- `idiv` (R116). -/
def fnIdiv : IntFn := fun w sg sat a b =>
  if b = 0 then (if sg then -1 else maxOf w false, { Exc.none with dz := 1 })
  else narrowed w sg sat (Int.tdiv a b)
/-- `irem` (R116).  The remainder of -2^(W-1) by -1 is 0 and raises nothing, under SAT too: the Flags cell 'SA only with SAT' stands
for both columns of the table, and the model reads it of `idiv` alone, whose result it clamps (notes/assumptions/42). -/
def fnIrem : IntFn := fun _ _ _ a b =>
  if b = 0 then (a, { Exc.none with dz := 1 }) else (a - b * Int.tdiv a b, Exc.none)
/-- `and` (R117). -/
def fnAnd : IntFn := fun w sg _ a b => patterned w sg (natOf w a &&& natOf w b)
/-- `or` (R117). -/
def fnOr : IntFn := fun w sg _ a b => patterned w sg (natOf w a ||| natOf w b)
/-- `xor` (R117). -/
def fnXor : IntFn := fun w sg _ a b => patterned w sg (natOf w a ^^^ natOf w b)
/-- `shl`: 0 when the count reaches the width (R117). -/
def fnShl : IntFn := fun w sg _ a b =>
  let c := natOf w b
  patterned w sg (if c < w then natOf w a * 2 ^ c else 0)
/-- `shr`: zeros enter; 0 when the count reaches the width (R117). -/
def fnShr : IntFn := fun w sg _ a b =>
  let c := natOf w b
  patterned w sg (if c < w then natOf w a / 2 ^ c else 0)
/-- `sar`: copies of bit W-1 enter (R117). -/
def fnSar : IntFn := fun w sg _ a b =>
  let c := Nat.min (natOf w b) w
  patterned w sg (natOf w (Int.fdiv (valueOf w true (natOf w a)) (2 ^ c : Nat)))
/-- `rot`: rotation left by the count modulo the width (R117). -/
def fnRot : IntFn := fun w sg _ a b =>
  let c := natOf w b % w
  let x := natOf w a
  patterned w sg (x * 2 ^ c % 2 ^ w + x / 2 ^ (w - c))
/-- `addc` on the unsigned views, with a carry: the result and the carry out (R115). -/
def addCarry (w : Nat) (a b : Int) (c : Bool) : Nat × Bool :=
  let x := natOf w a + natOf w b + c.toNat
  (x % 2 ^ w, decide (2 ^ w ≤ x))
/-- `subb` on the unsigned views, with a borrow (R115). -/
def subBorrow (w : Nat) (a b : Int) (c : Bool) : Nat × Bool :=
  let y := natOf w b + c.toNat
  ((natOf w a + 2 ^ (w + 1) - y) % 2 ^ w, decide (natOf w a < y))
/-- `not` (R118). -/
def fnNot : IntFn := fun w sg _ a _ => patterned w sg (2 ^ w - 1 - natOf w a)
/-- Leading zero bits of a number at `w` bits. -/
def leadingZeros (x : Nat) : Nat → Nat
  | 0 => 0
  | n + 1 => if x.testBit n then 0 else 1 + leadingZeros x n
/-- `clz` (R118). -/
def fnClz : IntFn := fun w _ _ a _ => (leadingZeros (natOf w a) w, Exc.none)
/-- `popc` (R118). -/
def fnPopc : IntFn := fun w _ _ a _ => (popCount (BitVec.ofNat w (natOf w a)), Exc.none)
/-- `brev` (R118). -/
def fnBrev : IntFn := fun w sg _ a _ =>
  patterned w sg ((List.range w).foldl (fun y i => if (natOf w a).testBit i then y + 2 ^ (w - 1 - i) else y) 0)
/-- `abs` (R118). -/
def fnAbs : IntFn := fun w sg sat a _ => if sg then narrowed w sg sat (if a < 0 then -a else a) else (a, Exc.none)

/-- The results of an operation in the active lanes, lane by lane, and all that they raise. -/
def View.perLane (v : View) (f : Nat → Int × Exc) : List Int × Exc :=
  let rs := (List.range 32).map fun n => if v.act.getLsbD n then f n else (0, Exc.none)
  (rs.map (·.1), Exc.sum (rs.map (·.2)))

/-- Apply an integer operation of the issuing fragment's MODE. -/
def View.apply (v : View) (f : IntFn) (a b : Int) : Int × Exc :=
  f (typeWidth v.type) (typeSigned v.type) (modeSat v.f.mode) a b

/-- Write integer results at once. -/
def intNow (v : View) (s : State) (d : BitVec 7) (r : List Int × Exc) : Res :=
  onWarp v s fun w => (v.writeInts w d.toNat fun n => r.1.getD n 0).raiseExc r.2

/-- The lane registers that a long-latency integer result writes when it completes. -/
def View.laterInts (v : View) (d : Nat) (f : Nat → Int) : List RegWrite :=
  let wide := typeWide v.type
  let bits := fun n => natOf (if wide then 64 else 32) (f n)
  .v d v.act (Lanes.ofFn fun n => BitVec.ofNat 32 (bits n)) ::
    (if wide then [.v (d + 1) v.act (Lanes.ofFn fun n => BitVec.ofNat 32 (bits n / 2 ^ 32))] else [])

/-- Leave integer results to the completion of a long-latency word (R84). -/
def intLater (v : View) (s : State) (d : BitVec 7) (r : List Int × Exc) : Res :=
  .done (s.addOp v.src (.result (v.laterInts d.toNat fun n => r.1.getD n 0) r.2) true false)

/-- Lane form with two registers. -/
def intR (f : IntFn) (d a b : BitVec 7) : State → Host.Outcome State Fault Refusal :=
  issueWord (shapeR d a b) fun v s => intNow v s d (v.perLane fun n => v.apply f (v.lane a.toNat n) (v.lane b.toNat n))

/-- Lane form with an immediate. -/
def intI (f : IntFn) (d a i : BitVec 7) : State → Host.Outcome State Fault Refusal :=
  issueWord (shapeI d a) fun v s => intNow v s d (v.perLane fun n => v.apply f (v.lane a.toNat n) (v.imm i))

/-- Long-latency lane form with two registers. -/
def intRLong (f : IntFn) (d a b : BitVec 7) : State → Host.Outcome State Fault Refusal :=
  issueWord (shapeR d a b true) fun v s =>
    intLater v s d (v.perLane fun n => v.apply f (v.lane a.toNat n) (v.lane b.toNat n))

/-- Long-latency lane form with an immediate. -/
def intILong (f : IntFn) (d a i : BitVec 7) : State → Host.Outcome State Fault Refusal :=
  issueWord (shapeI d a true) fun v s => intLater v s d (v.perLane fun n => v.apply f (v.lane a.toNat n) (v.imm i))

/-- Write the result of a uniform form (R95). -/
def uniNow (v : View) (s : State) (d : BitVec 7) (r : Int × Exc) : Res :=
  onWarp v s fun w => (w.setS d.toNat (uniBits r.1)).raiseExc r.2

/-- Leave the result of a uniform form to the completion of a long-latency word. -/
def uniLater (v : View) (s : State) (d : BitVec 7) (r : Int × Exc) : Res :=
  .done (s.addOp v.src (.result [.s d.toNat (uniBits r.1)] r.2) true false)

/-- Uniform form with two registers. -/
def intS (f : IntFn) (d a b : BitVec 7) : State → Host.Outcome State Fault Refusal :=
  issueWord (shapeS d a b) fun v s => uniNow v s d (v.apply f (v.uni a.toNat) (v.uni b.toNat))

/-- Uniform form with an immediate. -/
def intSI (f : IntFn) (d a i : BitVec 7) : State → Host.Outcome State Fault Refusal :=
  issueWord (shapeSI d a) fun v s => uniNow v s d (v.apply f (v.uni a.toNat) (v.imm i))

/-- Long-latency uniform form with two registers. -/
def intSLong (f : IntFn) (d a b : BitVec 7) : State → Host.Outcome State Fault Refusal :=
  issueWord (shapeS d a b true) fun v s => uniLater v s d (v.apply f (v.uni a.toNat) (v.uni b.toNat))

/-- Long-latency uniform form with an immediate. -/
def intSILong (f : IntFn) (d a i : BitVec 7) : State → Host.Outcome State Fault Refusal :=
  issueWord (shapeSI d a true) fun v s => uniLater v s d (v.apply f (v.uni a.toNat) (v.imm i))

/-- Lane form with one register. -/
def intU (f : IntFn) (d a : BitVec 7) : State → Host.Outcome State Fault Refusal :=
  issueWord (shapeI d a) fun v s => intNow v s d (v.perLane fun n => v.apply f (v.lane a.toNat n) 0)

/-- Uniform form with one register. -/
def intUS (f : IntFn) (d a : BitVec 7) : State → Host.Outcome State Fault Refusal :=
  issueWord (shapeSI d a) fun v s => uniNow v s d (v.apply f (v.uni a.toNat) 0)

/-- `add vD, vA, vB` (R114). -/
def execAdd (d a b : BitVec 7) (s : State) : Host.Outcome State Fault Refusal := intR fnAdd d a b s

/-- `add vD, vA, imm` (R114). -/
def execAddI (d a i : BitVec 7) (s : State) : Host.Outcome State Fault Refusal := intI fnAdd d a i s

/-- `add.s sD, sA, sB` (R114). -/
def execAddS (d a b : BitVec 7) (s : State) : Host.Outcome State Fault Refusal := intS fnAdd d a b s

/-- `add.s sD, sA, imm` (R114). -/
def execAddSi (d a i : BitVec 7) (s : State) : Host.Outcome State Fault Refusal := intSI fnAdd d a i s

/-- `sub vD, vA, vB` (R114). -/
def execSub (d a b : BitVec 7) (s : State) : Host.Outcome State Fault Refusal := intR fnSub d a b s

/-- `sub vD, vA, imm` (R114). -/
def execSubI (d a i : BitVec 7) (s : State) : Host.Outcome State Fault Refusal := intI fnSub d a i s

/-- `sub.s sD, sA, sB` (R114). -/
def execSubS (d a b : BitVec 7) (s : State) : Host.Outcome State Fault Refusal := intS fnSub d a b s

/-- `sub.s sD, sA, imm` (R114). -/
def execSubSi (d a i : BitVec 7) (s : State) : Host.Outcome State Fault Refusal := intSI fnSub d a i s

/-- `mul vD, vA, vB` (R114). -/
def execMul (d a b : BitVec 7) (s : State) : Host.Outcome State Fault Refusal := intR fnMul d a b s

/-- `mul vD, vA, imm` (R114). -/
def execMulI (d a i : BitVec 7) (s : State) : Host.Outcome State Fault Refusal := intI fnMul d a i s

/-- `mul.s sD, sA, sB` (R114). -/
def execMulS (d a b : BitVec 7) (s : State) : Host.Outcome State Fault Refusal := intS fnMul d a b s

/-- `mul.s sD, sA, imm` (R114). -/
def execMulSi (d a i : BitVec 7) (s : State) : Host.Outcome State Fault Refusal := intSI fnMul d a i s

/-- `mulh vD, vA, vB` (R114). -/
def execMulh (d a b : BitVec 7) (s : State) : Host.Outcome State Fault Refusal := intR fnMulh d a b s

/-- `mulh vD, vA, imm` (R114). -/
def execMulhI (d a i : BitVec 7) (s : State) : Host.Outcome State Fault Refusal := intI fnMulh d a i s

/-- `mulh.s sD, sA, sB` (R114). -/
def execMulhS (d a b : BitVec 7) (s : State) : Host.Outcome State Fault Refusal := intS fnMulh d a b s

/-- `mulh.s sD, sA, imm` (R114). -/
def execMulhSi (d a i : BitVec 7) (s : State) : Host.Outcome State Fault Refusal := intSI fnMulh d a i s

/-- `idiv vD, vA, vB` (R116). -/
def execIdiv (d a b : BitVec 7) (s : State) : Host.Outcome State Fault Refusal := intRLong fnIdiv d a b s

/-- `idiv vD, vA, imm` (R116). -/
def execIdivI (d a i : BitVec 7) (s : State) : Host.Outcome State Fault Refusal := intILong fnIdiv d a i s

/-- `idiv.s sD, sA, sB` (R116). -/
def execIdivS (d a b : BitVec 7) (s : State) : Host.Outcome State Fault Refusal := intSLong fnIdiv d a b s

/-- `idiv.s sD, sA, imm` (R116). -/
def execIdivSi (d a i : BitVec 7) (s : State) : Host.Outcome State Fault Refusal := intSILong fnIdiv d a i s

/-- `irem vD, vA, vB` (R116). -/
def execIrem (d a b : BitVec 7) (s : State) : Host.Outcome State Fault Refusal := intRLong fnIrem d a b s

/-- `irem vD, vA, imm` (R116). -/
def execIremI (d a i : BitVec 7) (s : State) : Host.Outcome State Fault Refusal := intILong fnIrem d a i s

/-- `irem.s sD, sA, sB` (R116). -/
def execIremS (d a b : BitVec 7) (s : State) : Host.Outcome State Fault Refusal := intSLong fnIrem d a b s

/-- `irem.s sD, sA, imm` (R116). -/
def execIremSi (d a i : BitVec 7) (s : State) : Host.Outcome State Fault Refusal := intSILong fnIrem d a i s

/-- `min vD, vA, vB` (R114). -/
def execMin (d a b : BitVec 7) (s : State) : Host.Outcome State Fault Refusal := intR fnMin d a b s

/-- `min vD, vA, imm` (R114). -/
def execMinI (d a i : BitVec 7) (s : State) : Host.Outcome State Fault Refusal := intI fnMin d a i s

/-- `min.s sD, sA, sB` (R114). -/
def execMinS (d a b : BitVec 7) (s : State) : Host.Outcome State Fault Refusal := intS fnMin d a b s

/-- `min.s sD, sA, imm` (R114). -/
def execMinSi (d a i : BitVec 7) (s : State) : Host.Outcome State Fault Refusal := intSI fnMin d a i s

/-- `max vD, vA, vB` (R114). -/
def execMax (d a b : BitVec 7) (s : State) : Host.Outcome State Fault Refusal := intR fnMax d a b s

/-- `max vD, vA, imm` (R114). -/
def execMaxI (d a i : BitVec 7) (s : State) : Host.Outcome State Fault Refusal := intI fnMax d a i s

/-- `max.s sD, sA, sB` (R114). -/
def execMaxS (d a b : BitVec 7) (s : State) : Host.Outcome State Fault Refusal := intS fnMax d a b s

/-- `max.s sD, sA, imm` (R114). -/
def execMaxSi (d a i : BitVec 7) (s : State) : Host.Outcome State Fault Refusal := intSI fnMax d a i s

/-- `and vD, vA, vB` (R117). -/
def execAndBits (d a b : BitVec 7) (s : State) : Host.Outcome State Fault Refusal := intR fnAnd d a b s

/-- `and vD, vA, imm` (R117). -/
def execAndBitsI (d a i : BitVec 7) (s : State) : Host.Outcome State Fault Refusal := intI fnAnd d a i s

/-- `and.s sD, sA, sB` (R117). -/
def execAndBitsS (d a b : BitVec 7) (s : State) : Host.Outcome State Fault Refusal := intS fnAnd d a b s

/-- `and.s sD, sA, imm` (R117). -/
def execAndBitsSi (d a i : BitVec 7) (s : State) : Host.Outcome State Fault Refusal := intSI fnAnd d a i s

/-- `or vD, vA, vB` (R117). -/
def execOrBits (d a b : BitVec 7) (s : State) : Host.Outcome State Fault Refusal := intR fnOr d a b s

/-- `or vD, vA, imm` (R117). -/
def execOrBitsI (d a i : BitVec 7) (s : State) : Host.Outcome State Fault Refusal := intI fnOr d a i s

/-- `or.s sD, sA, sB` (R117). -/
def execOrBitsS (d a b : BitVec 7) (s : State) : Host.Outcome State Fault Refusal := intS fnOr d a b s

/-- `or.s sD, sA, imm` (R117). -/
def execOrBitsSi (d a i : BitVec 7) (s : State) : Host.Outcome State Fault Refusal := intSI fnOr d a i s

/-- `xor vD, vA, vB` (R117). -/
def execXorBits (d a b : BitVec 7) (s : State) : Host.Outcome State Fault Refusal := intR fnXor d a b s

/-- `xor vD, vA, imm` (R117). -/
def execXorBitsI (d a i : BitVec 7) (s : State) : Host.Outcome State Fault Refusal := intI fnXor d a i s

/-- `xor.s sD, sA, sB` (R117). -/
def execXorBitsS (d a b : BitVec 7) (s : State) : Host.Outcome State Fault Refusal := intS fnXor d a b s

/-- `xor.s sD, sA, imm` (R117). -/
def execXorBitsSi (d a i : BitVec 7) (s : State) : Host.Outcome State Fault Refusal := intSI fnXor d a i s

/-- `shl vD, vA, vB` (R117). -/
def execShl (d a b : BitVec 7) (s : State) : Host.Outcome State Fault Refusal := intR fnShl d a b s

/-- `shl vD, vA, imm` (R117). -/
def execShlI (d a i : BitVec 7) (s : State) : Host.Outcome State Fault Refusal := intI fnShl d a i s

/-- `shl.s sD, sA, sB` (R117). -/
def execShlS (d a b : BitVec 7) (s : State) : Host.Outcome State Fault Refusal := intS fnShl d a b s

/-- `shl.s sD, sA, imm` (R117). -/
def execShlSi (d a i : BitVec 7) (s : State) : Host.Outcome State Fault Refusal := intSI fnShl d a i s

/-- `shr vD, vA, vB` (R117). -/
def execShr (d a b : BitVec 7) (s : State) : Host.Outcome State Fault Refusal := intR fnShr d a b s

/-- `shr vD, vA, imm` (R117). -/
def execShrI (d a i : BitVec 7) (s : State) : Host.Outcome State Fault Refusal := intI fnShr d a i s

/-- `shr.s sD, sA, sB` (R117). -/
def execShrS (d a b : BitVec 7) (s : State) : Host.Outcome State Fault Refusal := intS fnShr d a b s

/-- `shr.s sD, sA, imm` (R117). -/
def execShrSi (d a i : BitVec 7) (s : State) : Host.Outcome State Fault Refusal := intSI fnShr d a i s

/-- `sar vD, vA, vB` (R117). -/
def execSar (d a b : BitVec 7) (s : State) : Host.Outcome State Fault Refusal := intR fnSar d a b s

/-- `sar vD, vA, imm` (R117). -/
def execSarI (d a i : BitVec 7) (s : State) : Host.Outcome State Fault Refusal := intI fnSar d a i s

/-- `sar.s sD, sA, sB` (R117). -/
def execSarS (d a b : BitVec 7) (s : State) : Host.Outcome State Fault Refusal := intS fnSar d a b s

/-- `sar.s sD, sA, imm` (R117). -/
def execSarSi (d a i : BitVec 7) (s : State) : Host.Outcome State Fault Refusal := intSI fnSar d a i s

/-- `rot vD, vA, vB` (R117). -/
def execRot (d a b : BitVec 7) (s : State) : Host.Outcome State Fault Refusal := intR fnRot d a b s

/-- `rot vD, vA, imm` (R117). -/
def execRotI (d a i : BitVec 7) (s : State) : Host.Outcome State Fault Refusal := intI fnRot d a i s

/-- `rot.s sD, sA, sB` (R117). -/
def execRotS (d a b : BitVec 7) (s : State) : Host.Outcome State Fault Refusal := intS fnRot d a b s

/-- `rot.s sD, sA, imm` (R117). -/
def execRotSi (d a i : BitVec 7) (s : State) : Host.Outcome State Fault Refusal := intSI fnRot d a i s

/-- `not vD, vA` (R118). -/
def execNotBits (d a : BitVec 7) (s : State) : Host.Outcome State Fault Refusal := intU fnNot d a s

/-- `not.s sD, sA` (R118). -/
def execNotBitsS (d a : BitVec 7) (s : State) : Host.Outcome State Fault Refusal := intUS fnNot d a s

/-- `clz vD, vA` (R118). -/
def execClz (d a : BitVec 7) (s : State) : Host.Outcome State Fault Refusal := intU fnClz d a s

/-- `clz.s sD, sA` (R118). -/
def execClzS (d a : BitVec 7) (s : State) : Host.Outcome State Fault Refusal := intUS fnClz d a s

/-- `popc vD, vA` (R118). -/
def execPopc (d a : BitVec 7) (s : State) : Host.Outcome State Fault Refusal := intU fnPopc d a s

/-- `popc.s sD, sA` (R118). -/
def execPopcS (d a : BitVec 7) (s : State) : Host.Outcome State Fault Refusal := intUS fnPopc d a s

/-- `brev vD, vA` (R118). -/
def execBrev (d a : BitVec 7) (s : State) : Host.Outcome State Fault Refusal := intU fnBrev d a s

/-- `brev.s sD, sA` (R118). -/
def execBrevS (d a : BitVec 7) (s : State) : Host.Outcome State Fault Refusal := intUS fnBrev d a s

/-- `abs vD, vA` (R118). -/
def execAbs (d a : BitVec 7) (s : State) : Host.Outcome State Fault Refusal := intU fnAbs d a s

/-- `abs.s sD, sA` (R118). -/
def execAbsS (d a : BitVec 7) (s : State) : Host.Outcome State Fault Refusal := intUS fnAbs d a s

/-- Shape of `addc` and `subb`: they also read and write p7 (R115). -/
def shapeCarry (sh : Shape) : Shape := { sh with reads := .p 7 :: sh.reads, writes := .p 7 :: sh.writes }

/-- Add or subtract with p7 (R115): the result in the active lanes, the carry in p7 there. -/
def carryNow (v : View) (s : State) (d : BitVec 7) (f : Nat → Int → Int → Bool → Nat × Bool) (b : Nat → Int)
    (a : BitVec 7) : Res :=
  let rs := (List.range 32).map fun n => f (typeWidth v.type) (v.lane a.toNat n) (b n) ((v.w.pred 7).getLsbD n)
  onWarp v s fun w =>
    (v.writeInts w d.toNat fun n => valueOf (typeWidth v.type) (typeSigned v.type) (rs.getD n (0, false)).1).setP 7 v.act
      (maskOf fun n => (rs.getD n (0, false)).2)

/-- `addc vD, vA, vB` (R115). -/
def execAddc (d a b : BitVec 7) (s : State) : Host.Outcome State Fault Refusal :=
  issueWord (fun v => shapeCarry (shapeR d a b false v)) (fun v s => carryNow v s d addCarry (v.lane b.toNat) a) s

/-- `addc vD, vA, imm` (R115). -/
def execAddcI (d a i : BitVec 7) (s : State) : Host.Outcome State Fault Refusal :=
  issueWord (fun v => shapeCarry (shapeI d a false v)) (fun v s => carryNow v s d addCarry (fun _ => v.imm i) a) s

/-- `subb vD, vA, vB` (R115). -/
def execSubb (d a b : BitVec 7) (s : State) : Host.Outcome State Fault Refusal :=
  issueWord (fun v => shapeCarry (shapeR d a b false v)) (fun v s => carryNow v s d subBorrow (v.lane b.toNat) a) s

/-- `subb vD, vA, imm` (R115). -/
def execSubbI (d a i : BitVec 7) (s : State) : Host.Outcome State Fault Refusal :=
  issueWord (fun v => shapeCarry (shapeI d a false v)) (fun v s => carryNow v s d subBorrow (fun _ => v.imm i) a) s

/-- `mov vD, vA`: the whole register, or the pair under a 64-bit type (R118). -/
def execMov (d a : BitVec 7) (s : State) : Host.Outcome State Fault Refusal :=
  issueWord (shapeI d a) (fun v s => onWarp v s fun w =>
    w.writeLanes v.type (typeWide v.type) d.toNat v.act fun n => v.w.laneBits (typeWide v.type) a.toNat n) s

/-- `mov.s sD, sA` (R118). -/
def execMovS (d a : BitVec 7) (s : State) : Host.Outcome State Fault Refusal :=
  issueWord (shapeSI d a) (fun v s => onWarp v s fun w => w.setS d.toNat (v.w.sreg a.toNat)) s

/-- `mov vD, imm`: sign-extended to the destination's full width (R119). -/
def execMovImm (d i : BitVec 7) (s : State) : Host.Outcome State Fault Refusal :=
  issueWord (fun v => { writes := laneRegs (typeWide v.type) d.toNat, ok := pairOk (typeWide v.type) d.toNat })
    (fun v s => onWarp v s fun w => v.writeInts w d.toNat fun _ => v.immInt i) s

/-- `mov.s sD, imm` (R119). -/
def execMovSImm (d i : BitVec 7) (s : State) : Host.Outcome State Fault Refusal :=
  issueWord (fun _ => { writes := [.s d.toNat] })
    (fun v s => onWarp v s fun w => w.setS d.toNat (BitVec.ofInt 64 (v.immInt i))) s

/-! ## Compares (R120) -/

/-- Write a lane compare into the active lanes of a predicate. -/
def cmpLanes (v : View) (s : State) (d : BitVec 7) (f : Nat → Bool) : Res :=
  onWarp v s fun w => w.setP d.toNat v.act (maskOf f)

/-- Write a uniform compare into a predicate of every lane of the fragment that has not exited. -/
def cmpUniform (v : View) (s : State) (d : BitVec 7) (r : Bool) : Res :=
  onWarp v s fun w => w.setP d.toNat (v.w.unexited v.f.mask) (if r then BitVec.allOnes 32 else 0)

/-- Lane compare of two registers. -/
def cmpR (f : Int → Int → Bool) (d a b : BitVec 7) : State → Host.Outcome State Fault Refusal :=
  issueWord (fun v => { shapeR 0 a b false v with writes := [.p d.toNat] }) fun v s =>
    cmpLanes v s d fun n => f (v.lane a.toNat n) (v.lane b.toNat n)

/-- Lane compare with an immediate. -/
def cmpI (f : Int → Int → Bool) (d a i : BitVec 7) : State → Host.Outcome State Fault Refusal :=
  issueWord (fun v => { shapeI 0 a false v with writes := [.p d.toNat] }) fun v s =>
    cmpLanes v s d fun n => f (v.lane a.toNat n) (v.imm i)

/-- Uniform compare of two registers. -/
def cmpS (f : Int → Int → Bool) (d a b : BitVec 7) : State → Host.Outcome State Fault Refusal :=
  issueWord (fun _ => { reads := [.s a.toNat, .s b.toNat], writes := [.p d.toNat] }) fun v s =>
    cmpUniform v s d (f (v.uni a.toNat) (v.uni b.toNat))

/-- Uniform compare with an immediate. -/
def cmpSI (f : Int → Int → Bool) (d a i : BitVec 7) : State → Host.Outcome State Fault Refusal :=
  issueWord (fun _ => { reads := [.s a.toNat], writes := [.p d.toNat] }) fun v s =>
    cmpUniform v s d (f (v.uni a.toNat) (v.imm i))

/-- The relation of `cmp.eq` (R120). -/
def relEq (x y : Int) : Bool := decide (x = y)

/-- `cmp.eq pD, vA, vB` (R120). -/
def execCmpEq (d a b : BitVec 7) (s : State) : Host.Outcome State Fault Refusal := cmpR relEq d a b s

/-- `cmp.eq pD, vA, imm` (R120). -/
def execCmpEqI (d a i : BitVec 7) (s : State) : Host.Outcome State Fault Refusal := cmpI relEq d a i s

/-- `cmp.eq.s pD, sA, sB` (R120). -/
def execCmpEqS (d a b : BitVec 7) (s : State) : Host.Outcome State Fault Refusal := cmpS relEq d a b s

/-- `cmp.eq.s pD, sA, imm` (R120). -/
def execCmpEqSi (d a i : BitVec 7) (s : State) : Host.Outcome State Fault Refusal := cmpSI relEq d a i s

/-- The relation of `cmp.ne` (R120). -/
def relNe (x y : Int) : Bool := decide (x ≠ y)

/-- `cmp.ne pD, vA, vB` (R120). -/
def execCmpNe (d a b : BitVec 7) (s : State) : Host.Outcome State Fault Refusal := cmpR relNe d a b s

/-- `cmp.ne pD, vA, imm` (R120). -/
def execCmpNeI (d a i : BitVec 7) (s : State) : Host.Outcome State Fault Refusal := cmpI relNe d a i s

/-- `cmp.ne.s pD, sA, sB` (R120). -/
def execCmpNeS (d a b : BitVec 7) (s : State) : Host.Outcome State Fault Refusal := cmpS relNe d a b s

/-- `cmp.ne.s pD, sA, imm` (R120). -/
def execCmpNeSi (d a i : BitVec 7) (s : State) : Host.Outcome State Fault Refusal := cmpSI relNe d a i s

/-- The relation of `cmp.lt` (R120). -/
def relLt (x y : Int) : Bool := decide (x < y)

/-- `cmp.lt pD, vA, vB` (R120). -/
def execCmpLt (d a b : BitVec 7) (s : State) : Host.Outcome State Fault Refusal := cmpR relLt d a b s

/-- `cmp.lt pD, vA, imm` (R120). -/
def execCmpLtI (d a i : BitVec 7) (s : State) : Host.Outcome State Fault Refusal := cmpI relLt d a i s

/-- `cmp.lt.s pD, sA, sB` (R120). -/
def execCmpLtS (d a b : BitVec 7) (s : State) : Host.Outcome State Fault Refusal := cmpS relLt d a b s

/-- `cmp.lt.s pD, sA, imm` (R120). -/
def execCmpLtSi (d a i : BitVec 7) (s : State) : Host.Outcome State Fault Refusal := cmpSI relLt d a i s

/-- The relation of `cmp.le` (R120). -/
def relLe (x y : Int) : Bool := decide (x ≤ y)

/-- `cmp.le pD, vA, vB` (R120). -/
def execCmpLe (d a b : BitVec 7) (s : State) : Host.Outcome State Fault Refusal := cmpR relLe d a b s

/-- `cmp.le pD, vA, imm` (R120). -/
def execCmpLeI (d a i : BitVec 7) (s : State) : Host.Outcome State Fault Refusal := cmpI relLe d a i s

/-- `cmp.le.s pD, sA, sB` (R120). -/
def execCmpLeS (d a b : BitVec 7) (s : State) : Host.Outcome State Fault Refusal := cmpS relLe d a b s

/-- `cmp.le.s pD, sA, imm` (R120). -/
def execCmpLeSi (d a i : BitVec 7) (s : State) : Host.Outcome State Fault Refusal := cmpSI relLe d a i s

/-- The relation of `cmp.gt` (R120). -/
def relGt (x y : Int) : Bool := decide (y < x)

/-- `cmp.gt pD, vA, vB` (R120). -/
def execCmpGt (d a b : BitVec 7) (s : State) : Host.Outcome State Fault Refusal := cmpR relGt d a b s

/-- `cmp.gt pD, vA, imm` (R120). -/
def execCmpGtI (d a i : BitVec 7) (s : State) : Host.Outcome State Fault Refusal := cmpI relGt d a i s

/-- `cmp.gt.s pD, sA, sB` (R120). -/
def execCmpGtS (d a b : BitVec 7) (s : State) : Host.Outcome State Fault Refusal := cmpS relGt d a b s

/-- `cmp.gt.s pD, sA, imm` (R120). -/
def execCmpGtSi (d a i : BitVec 7) (s : State) : Host.Outcome State Fault Refusal := cmpSI relGt d a i s

/-- The relation of `cmp.ge` (R120). -/
def relGe (x y : Int) : Bool := decide (y ≤ x)

/-- `cmp.ge pD, vA, vB` (R120). -/
def execCmpGe (d a b : BitVec 7) (s : State) : Host.Outcome State Fault Refusal := cmpR relGe d a b s

/-- `cmp.ge pD, vA, imm` (R120). -/
def execCmpGeI (d a i : BitVec 7) (s : State) : Host.Outcome State Fault Refusal := cmpI relGe d a i s

/-- `cmp.ge.s pD, sA, sB` (R120). -/
def execCmpGeS (d a b : BitVec 7) (s : State) : Host.Outcome State Fault Refusal := cmpS relGe d a b s

/-- `cmp.ge.s pD, sA, imm` (R120). -/
def execCmpGeSi (d a i : BitVec 7) (s : State) : Host.Outcome State Fault Refusal := cmpSI relGe d a i s

/-! ## Multiply-add and bit fields -/

/-- Uniform form that reads its destination as a third source. -/
def shapeSD (d a b : BitVec 7) (_ : View) : Shape :=
  { reads := [.s d.toNat, .s a.toNat, .s b.toNat], writes := [.s d.toNat] }

/-- `mad vD, vA, vB` (R121). -/
def execMad (d a b : BitVec 7) (s : State) : Host.Outcome State Fault Refusal :=
  issueWord (shapeRD d a b) (fun v s => intNow v s d (v.perLane fun n =>
    narrowed (typeWidth v.type) (typeSigned v.type) (modeSat v.f.mode)
      (v.lane a.toNat n * v.lane b.toNat n + v.lane d.toNat n))) s

/-- `mad.s sD, sA, sB` (R121). -/
def execMadS (d a b : BitVec 7) (s : State) : Host.Outcome State Fault Refusal :=
  issueWord (shapeSD d a b) (fun v s => uniNow v s d
    (narrowed (typeWidth v.type) (typeSigned v.type) (modeSat v.f.mode)
      (v.uni a.toNat * v.uni b.toNat + v.uni d.toNat))) s

/-- The field that `bfe` extracts: control `c` holds the position in [7:0] and the length in [15:8]; bits of the
source at or above W read as zero (R122; notes/assumptions/10). -/
def bfeField (w : Nat) (sg : Bool) (a c : Nat) : Int :=
  let pos := bitsOf c 0 8
  let len := bitsOf c 8 8
  let f := a % 2 ^ w / 2 ^ pos % 2 ^ len
  if len = 0 then 0 else valueOf (Nat.min len w) sg f

/-- The value that `bfi` inserts into `d` (R122). -/
def bfiField (w : Nat) (d a c : Nat) : Nat :=
  let pos := bitsOf c 0 8
  let len := bitsOf c 8 8
  let m := (2 ^ len - 1) * 2 ^ pos % 2 ^ w
  (d &&& (2 ^ w - 1 - m)) ||| (a * 2 ^ pos &&& m)

/-- `bfe vD, vA, vB` (R122). -/
def execBfe (d a b : BitVec 7) (s : State) : Host.Outcome State Fault Refusal :=
  issueWord (shapeR d a b) (fun v s => intNow v s d (v.perLane fun n =>
    (bfeField (typeWidth v.type) (typeSigned v.type) (natOf 64 (v.lane a.toNat n)) ((v.w.vreg b.toNat).get n).toNat,
      Exc.none))) s

/-- `bfe.s sD, sA, sB` (R122). -/
def execBfeS (d a b : BitVec 7) (s : State) : Host.Outcome State Fault Refusal :=
  issueWord (shapeS d a b) (fun v s => uniNow v s d
    (bfeField (typeWidth v.type) (typeSigned v.type) (natOf 64 (v.uni a.toNat)) (v.w.sreg b.toNat).toNat, Exc.none)) s

/-- `bfi vD, vA, vB` (R122). -/
def execBfi (d a b : BitVec 7) (s : State) : Host.Outcome State Fault Refusal :=
  issueWord (shapeRD d a b) (fun v s => intNow v s d (v.perLane fun n =>
    patterned (typeWidth v.type) (typeSigned v.type)
      (bfiField (typeWidth v.type) (natOf (typeWidth v.type) (v.lane d.toNat n))
        (natOf (typeWidth v.type) (v.lane a.toNat n)) ((v.w.vreg b.toNat).get n).toNat))) s

/-- `bfi.s sD, sA, sB` (R122). -/
def execBfiS (d a b : BitVec 7) (s : State) : Host.Outcome State Fault Refusal :=
  issueWord (shapeSD d a b) (fun v s => uniNow v s d
    (patterned (typeWidth v.type) (typeSigned v.type)
      (bfiField (typeWidth v.type) (natOf (typeWidth v.type) (v.uni d.toNat))
        (natOf (typeWidth v.type) (v.uni a.toNat)) (v.w.sreg b.toNat).toNat))) s

/-! ## Selects, lane masks, uniform and predicate moves -/

/-- `sel vD, vA, vB, pN` (R123). -/
def execSel (d a b : BitVec 7) (n : BitVec 1) (p : BitVec 3) (s : State) : Host.Outcome State Fault Refusal :=
  issueWord (fun v => let sh := shapeR d a b false v; { sh with reads := .p p.toNat :: sh.reads }) (fun v s =>
    onWarp v s fun w => w.writeLanes v.type (typeWide v.type) d.toNat v.act fun i =>
      v.w.laneBits (typeWide v.type) (if ((v.w.pred p.toNat).getLsbD i) != (n == 1) then a.toNat else b.toNat) i) s

/-- A mask made from the lane's own number (R124). -/
def laneMaskWord (f : Nat → Nat) (d : BitVec 7) : State → Host.Outcome State Fault Refusal :=
  issueWord (fun _ => { reads := [.sr 0], writes := [.v d.toNat] }) fun v s =>
    onWarp v s fun w => w.writeLanes v.type false d.toNat v.act f

/-- `lane.lt vD` (R124). -/
def execLaneLt (d : BitVec 7) (s : State) : Host.Outcome State Fault Refusal := laneMaskWord (fun i => 2 ^ i - 1) d s
/-- `lane.le vD` (R124). -/
def execLaneLe (d : BitVec 7) (s : State) : Host.Outcome State Fault Refusal :=
  laneMaskWord (fun i => 2 ^ (i + 1) - 1) d s
/-- `lane.gt vD` (R124). -/
def execLaneGt (d : BitVec 7) (s : State) : Host.Outcome State Fault Refusal :=
  laneMaskWord (fun i => 2 ^ 32 - 2 ^ (i + 1)) d s
/-- `lane.ge vD` (R124). -/
def execLaneGe (d : BitVec 7) (s : State) : Host.Outcome State Fault Refusal :=
  laneMaskWord (fun i => 2 ^ 32 - 2 ^ i) d s
/-- `lane.eq vD` (R124). -/
def execLaneEq (d : BitVec 7) (s : State) : Host.Outcome State Fault Refusal := laneMaskWord (fun i => 2 ^ i) d s

/-- `s2v vD, sA` (R125). -/
def execS2v (d a : BitVec 7) (s : State) : Host.Outcome State Fault Refusal :=
  issueWord (fun v => { reads := [.s a.toNat], writes := laneRegs (typeWide v.type) d.toNat,
                        ok := pairOk (typeWide v.type) d.toNat }) (fun v s =>
    onWarp v s fun w => w.writeLanes v.type (typeWide v.type) d.toNat v.act fun _ => (v.w.sreg a.toNat).toNat) s

/-- `v2s sD, vA`: the lowest active lane's value, 0 when there is none (R125). -/
def execV2s (d a : BitVec 7) (s : State) : Host.Outcome State Fault Refusal :=
  issueWord (fun v => { reads := laneRegs (typeWide v.type) a.toNat, writes := [.s d.toNat],
                        ok := pairOk (typeWide v.type) a.toNat }) (fun v s =>
    onWarp v s fun w => w.setS d.toNat
      (match lowestLane v.act with
       | some n => uniBits (v.lane a.toNat n)
       | none => 0)) s

/-- A predicate word: writes pD in the active lanes (R126). -/
def predWord (reads : List Reg) (f : Warp → LaneMask) (d : BitVec 7) : State → Host.Outcome State Fault Refusal :=
  issueWord (fun _ => { reads := reads, writes := [.p d.toNat] }) fun v s =>
    onWarp v s fun w => w.setP d.toNat v.act (f v.w)

/-- `pand pD, pA, pB` (R126). -/
def execPand (d a b : BitVec 7) (s : State) : Host.Outcome State Fault Refusal :=
  predWord [.p a.toNat, .p b.toNat] (fun w => w.pred a.toNat &&& w.pred b.toNat) d s
/-- `por pD, pA, pB` (R126). -/
def execPor (d a b : BitVec 7) (s : State) : Host.Outcome State Fault Refusal :=
  predWord [.p a.toNat, .p b.toNat] (fun w => w.pred a.toNat ||| w.pred b.toNat) d s
/-- `pxor pD, pA, pB` (R126). -/
def execPxor (d a b : BitVec 7) (s : State) : Host.Outcome State Fault Refusal :=
  predWord [.p a.toNat, .p b.toNat] (fun w => w.pred a.toNat ^^^ w.pred b.toNat) d s
/-- `pnot pD, pA` (R126). -/
def execPnot (d a : BitVec 7) (s : State) : Host.Outcome State Fault Refusal :=
  predWord [.p a.toNat] (fun w => ~~~ w.pred a.toNat) d s
/-- `pmov pD, pA` (R126). -/
def execPmov (d a : BitVec 7) (s : State) : Host.Outcome State Fault Refusal :=
  predWord [.p a.toNat] (fun w => w.pred a.toNat) d s

end Sys2Proof.Machine
end

