-- ==== Sys2Proof/Machine/Control.lean ====
section
/-! DEFINITION. Control: structured divergence, loops, branches, fragments, calls, MODE, long immediates, special
registers, traps and timers (R18 to R26, R97 to R113, R364, R365, R369), and the start of a clause (R47, R81 to R84,
R387). -/

namespace Sys2Proof.Machine

/-! ## Stacks -/

/-- The signed word offset of a control word, as a distance in bytes (R72). -/
def byteOff {n : Nat} (o : BitVec n) : Addr := (o.signExtend 64) * 4

/-- The target of a format-F word (R72). -/
def View.target (v : View) (o : BitVec 16) : Addr := v.addr + byteOff o

/-- Is some stack of the fragment full (R20)? -/
def View.stackFull (v : View) : Bool := (sliceList v.f.mask).any fun k => decide (16 ≤ (v.w.slice k).stack.length)

/-- Is the top entry of a slice of this kind? -/
def Slice.topIs (x : Slice) (kind : EntryKind) : Bool :=
  match x.stack with
  | e :: _ => e.kind == kind
  | [] => false

/-- Is the top entry of every slice of the fragment of this kind (R20)? -/
def View.topIs (v : View) (kind : EntryKind) : Bool := (sliceList v.f.mask).all fun k => (v.w.slice k).topIs kind

/-- Push an entry whose MASK is the slice's CM. -/
def Slice.push (x : Slice) (kind : EntryKind) (aux : BitVec 8) (target : Addr) (count : Word) : Slice :=
  { x with stack := ⟨kind, x.cm, aux, target.extractLsb' 0 32, count⟩ :: x.stack }

/-- The lowest slice of the fragment with a lane that is not exited. -/
def View.lead (v : View) : Nat :=
  ((sliceList v.f.mask).find? fun k => !(v.w.slice k).finished).getD (fragNo v.f.mask)

/-- TARGET of the lead slice's top entry. -/
def View.topTarget (v : View) : Addr :=
  match (v.w.slice v.lead).stack with
  | e :: _ => codeNear v.c.header e.target
  | [] => v.c.after

/-- A control word that changes every slice of its fragment and is followed by the examination of R19. -/
def View.slices (v : View) (s : State) (g : Nat → Slice → Slice) : State :=
  s.mapWarp v.key fun w => w.mapSlices v.f.mask g

/-- The lanes of slice k for which a condition holds: pN or its complement (R97). -/
def View.cond (v : View) (p : BitVec 3) (n : BitVec 1) : LaneMask :=
  if n == 1 then ~~~ v.w.pred p.toNat else v.w.pred p.toNat

/-- `if` on one slice (R18, R98). -/
def Slice.doIf (x : Slice) (c : BitVec 4) (target : Addr) : Slice :=
  let t := x.cm &&& ~~~ x.xm &&& c
  { x.push .ifEntry (t.setWidth 8) target 0 with cm := x.cm &&& c }

/-- `else` on one slice (R18, R98). -/
def Slice.doElse (x : Slice) (target : Addr) : Slice :=
  match x.stack with
  | e :: es => { x with cm := e.mask &&& ~~~ (e.aux.setWidth 4) &&& ~~~ x.xm, stack := { e with target := target.extractLsb' 0 32 } :: es }
  | [] => x

/-- `endif` on one slice (R18). -/
def Slice.doEndif (x : Slice) : Slice :=
  match x.stack with
  | e :: _ => { x.pop with cm := e.mask &&& ~~~ x.xm }
  | [] => x

/-- The lanes that stay in a loop of a slice (R99). -/
def Slice.live (x : Slice) : BitVec 4 :=
  match x.stack with
  | e :: _ => e.mask &&& ~~~ (e.aux.setWidth 4) &&& ~~~ x.xm
  | [] => 0

/-- Take lanes out of MASK and AUX of every entry above the innermost LOOP entry; with `brk` they enter its AUX (R18;
notes/assumptions/21). -/
def leaveLoop (b : BitVec 4) (brk : Bool) : List StackEntry → List StackEntry
  | [] => []
  | e :: es =>
    match e.kind with
    | .loopEntry => (if brk then { e with aux := e.aux ||| b.setWidth 8 } else e) :: es
    | _ => { e with mask := e.mask &&& ~~~ b, aux := e.aux &&& ~~~ (b.setWidth 8) } :: leaveLoop b brk es

/-- Has a stack a LOOP entry? -/
def Slice.inLoop (x : Slice) : Bool := x.stack.any fun e => e.kind == .loopEntry

/-- `brk` and `cont` (R18, R99). -/
def leaveWord (brk : Bool) : State → Host.Outcome State Fault Refusal :=
  issueWord shapeNone fun v s =>
    if (sliceList v.f.mask).all fun k => (v.w.slice k).inLoop then
      .done (v.slices s fun k x =>
        let b := partOf v.act k
        { x with stack := leaveLoop b brk x.stack, cm := x.cm &&& ~~~ b }) true
    else .fault s (v.cause causeStackMismatch)

/-! ## The words of OP 0x01 to 0x03 -/

/-- The value of a condition over lanes: none when the lanes disagree; false over no lane (R24). -/
def uniformOver (lanes c : LaneMask) : Option Bool :=
  if lanes &&& c = 0 then some false else if lanes &&& c = lanes then some true else none

/-- `bra` (R103). -/
def execBra (p : BitVec 3) (n c : BitVec 1) (o : BitVec 16) (s : State) : Host.Outcome State Fault Refusal :=
  issueWord (fun _ => { reads := if c == 1 then [.p p.toNat] else [], ok := c == 1 || (p == 0 && n == 0) }) (fun v s =>
    if c == 0 then .goto s (v.target o) true
    else
      match uniformOver v.act (v.cond p n) with
      | none => .fault s (v.cause causeDivergence)
      | some true => .goto s (v.target o) true
      | some false => .done s) s

/-- The slices that take a `brs`; none when lanes of one slice disagree (R24, R104). -/
def View.taking (v : View) (c : LaneMask) : Option SliceMask :=
  let r := (sliceList v.f.mask).map fun k => (k, partOf v.act k, partOf v.act k &&& partOf c k)
  if r.any fun t => t.2.2 != 0 && t.2.2 != t.2.1 then none
  else some (sliceMaskOf fun k => r.any fun t => t.1 == k && t.2.2 != 0)

/-- Where a part of a split fragment goes on: its place, unless R19 redirects it after the pop of an RPT entry. -/
def Warp.redirected (w : Warp) (m : SliceMask) (popped : Bool) (pc : Addr) : Addr :=
  if popped then
    match w.examine m with
    | .redirect t => codeNear pc t
    | _ => pc
  else pc

/-- Insert a fragment in the order of numbers. -/
def insertFrag (f : Frag) : List Frag → List Frag
  | [] => [f]
  | g :: gs => if fragNo f.mask < fragNo g.mask then f :: g :: gs else g :: insertFrag f gs

/-- Split the issuing fragment at a `brs` (R22, R24, R104): the taking slices pop an RPT entry that ends here and go
to the target; the rest treat the word as not taken.  Both keep MODE; both regions end; a rest of finished slices alone is
DONE (R14, R19).  A trap affects the slices of the fragment that raised it (R30), so that both parts take the causes of the
clause.  Which part keeps a cause that still waits from an earlier clause (R52) the spec leaves open: in the model both do
(notes/assumptions/43). -/
def View.split (v : View) (s : State) (take : SliceMask) (dest : Addr) : Res :=
  let rest := v.f.mask &&& ~~~ take
  let atEnd := fun (m : SliceMask) =>
    (v.w.slice (((sliceList m).find? fun k => !(v.w.slice k).finished).getD (fragNo m))).endsLoop v.addr
  let w1 := if atEnd take then v.w.mapSlices take fun _ y => y.pop else v.w
  let toT := w1.redirected take (atEnd take) dest
  let (w2, back, popped) := w1.loopEnd rest v.addr 16
  let toR := w2.redirected rest popped ((back.map (codeNear v.c.header)).getD v.c.after)
  if s.badTarget v toT || ((back.isSome || toR != v.c.after) && s.badTarget v toR) then
    .fault s (v.cause causeBadTarget)
  else
    let base := { v.f with clause := none, suspended := false, region := none, waitOp := none, age := 0 }
    let taken := { base with mask := take, pc := toT, state := .ready }
    let other := { base with mask := rest, pc := toR, state := if w2.over rest then .done else w2.goingState rest }
    let w3 := { w2.reachBoundary v.no with
      frags := insertFrag taken (insertFrag other (w2.frags.filter fun f => fragNo f.mask != v.no)) }
    .left ((s.setWarp v.key w3).settleFlags v.key)

/-- `brs` (R104). -/
def execBrs (p : BitVec 3) (n : BitVec 1) (o : BitVec 16) (s : State) : Host.Outcome State Fault Refusal :=
  issueWord (fun _ => { reads := [.p p.toNat] }) (fun v s =>
    match v.taking (v.cond p n) with
    | none => .fault s (v.cause causeDivergence)
    | some t =>
      if t = 0 then .done s
      else if t = v.f.mask then .goto s (v.target o) true
      else v.split s t (v.target o)) s

/-- `call` (R106). -/
def execCall (o : BitVec 16) (s : State) : Host.Outcome State Fault Refusal :=
  issueWord shapeNone (fun v s =>
    if v.stackFull then .fault s (v.cause causeStackOverflow)
    else .goto (v.slices s fun _ x => x.push .callEntry 0 v.c.after 0) (v.target o) false) s

/-- `ret` (R106). -/
def execRet (p : BitVec 3) (n c : BitVec 1) (s : State) : Host.Outcome State Fault Refusal :=
  issueWord (fun _ => { reads := if c == 1 then [.p p.toNat] else [], ok := c == 1 || (p == 0 && n == 0) }) (fun v s =>
    if !v.topIs .callEntry then .fault s (v.cause causeStackMismatch)
    else
      match if c == 0 then some true else uniformOver (v.w.current v.f.mask) (v.cond p n) with
      | none => .fault s (v.cause causeDivergence)
      | some true => .goto (v.slices s fun _ x => x.pop) v.topTarget false true
      | some false => .done s) s

/-- `if` (R18, R98). -/
def execIfThen (p : BitVec 3) (n : BitVec 1) (o : BitVec 16) (s : State) : Host.Outcome State Fault Refusal :=
  issueWord (fun _ => { reads := [.p p.toNat] }) (fun v s =>
    if v.stackFull then .fault s (v.cause causeStackOverflow)
    else .done (v.slices s fun k x => x.doIf (partOf (v.cond p n) k) (v.target o)) true) s

/-- `else` (R18, R98). -/
def execElseThen (o : BitVec 16) (s : State) : Host.Outcome State Fault Refusal :=
  issueWord shapeNone (fun v s =>
    if !v.topIs .ifEntry then .fault s (v.cause causeStackMismatch)
    else .done (v.slices s fun _ x => x.doElse (v.target o)) true) s

/-- `endif` (R18, R98). -/
def execEndif (s : State) : Host.Outcome State Fault Refusal :=
  issueWord shapeNone (fun v s =>
    if !v.topIs .ifEntry then .fault s (v.cause causeStackMismatch)
    else .done (v.slices s fun _ x => x.doEndif) true) s

/-- `loop` (R18, R99). -/
def execLoop (o : BitVec 16) (s : State) : Host.Outcome State Fault Refusal :=
  issueWord shapeNone (fun v s =>
    if v.stackFull then .fault s (v.cause causeStackOverflow)
    else .done (v.slices s fun _ x => x.push .loopEntry 0 (v.target o) 0)) s

/-- `endloop` (R18, R99). -/
def execEndloop (o : BitVec 16) (s : State) : Host.Outcome State Fault Refusal :=
  issueWord shapeNone (fun v s =>
    if !v.topIs .loopEntry then .fault s (v.cause causeStackMismatch)
    else if (sliceList v.f.mask).any fun k => (v.w.slice k).live != 0 then
      .goto (v.slices s fun _ x => { x with cm := x.live }) (v.target o) false
    else .done (v.slices s fun _ x => x.doEndif) true) s

/-- `brk` (R18, R99). -/
def execBrk (s : State) : Host.Outcome State Fault Refusal := leaveWord true s

/-- `cont` (R18, R99). -/
def execCont (s : State) : Host.Outcome State Fault Refusal := leaveWord false s

/-- `exit` (R18, R108): the active lanes are exited and leave every entry of the stacks; the region ends (R58).  The spec does not
say whether they leave MASK of a TRAP entry in a trap slot as well: the model's choice is that the slot keeps its CM, which `rtt`
restores whole, and in which an exited lane is not active (notes/assumptions/42). -/
def execExit (s : State) : Host.Outcome State Fault Refusal :=
  issueWord shapeNone (fun v s =>
    if v.act = 0 then .done s true
    else
      .done ((v.slices s fun k x =>
        let b := partOf v.act k
        { x with xm := x.xm ||| b, cm := x.cm &&& ~~~ b,
                 stack := x.stack.map fun e => { e with mask := e.mask &&& ~~~ b } }).endRegion v) true) s

/-- `mark` (R26, R107). -/
def execMark (o : BitVec 16) (s : State) : Host.Outcome State Fault Refusal :=
  issueWord shapeNone (fun v s =>
    if v.stackFull then .fault s (v.cause causeStackOverflow)
    else .done (v.slices s fun _ x => x.push .markEntry v.f.mask (v.target o) 0)) s

/-- Wait at a `regang` or `join` with a slice mask (R25). -/
def View.waitGang (v : View) (s : State) (m : SliceMask) : Res :=
  .hold (s.mapFrag v.key v.no fun f => { f with gang := some (v.addr, m) }) .regang

/-- `regang` (R25, R105). -/
def execRegang (m : BitVec 8) (s : State) : Host.Outcome State Fault Refusal :=
  issueWord shapeNone (fun v s =>
    if v.f.mask &&& ~~~ m != 0 then .fault s (v.cause causeRegang) else v.waitGang s m) s

/-- `join` (R26, R107): pop MARK, then act as `regang` with its slice mask.  MARK is popped as the fragments merge, for a
`join` that ends in regang-mismatch has no effect (R54). -/
def execJoin (s : State) : Host.Outcome State Fault Refusal :=
  issueWord shapeNone (fun v s =>
    if !v.topIs .markEntry then .fault s (v.cause causeStackMismatch)
    else
      let m : SliceMask :=
        match (v.w.slice v.lead).stack with
        | e :: _ => e.aux
        | [] => 0
      if v.f.mask &&& ~~~ m != 0 then .fault s (v.cause causeRegang)
      else v.waitGang s m) s

/-- `nop` (R109). -/
def execNop (s : State) : Host.Outcome State Fault Refusal := issueWord shapeNone (fun _ s => .done s) s

/-- `yield` (R109): the fragment is passed over as if its clause carried Y = 1. -/
def execYield (s : State) : Host.Outcome State Fault Refusal :=
  issueWord shapeNone (fun v s => .done (s.mapFrag v.key v.no fun f => { f with passed := true })) s

/-- Begin a counted loop (R21, R101). -/
def beginLoop (v : View) (s : State) (count : Nat) (l : BitVec 7) : Res :=
  let last := v.addr + BitVec.ofNat 64 (4 * l.toNat)
  let isHeader := fun (a : Addr) => (s.fetch v.crew.ctx v.crew.core a).map fun w => majorOf w == 0x7F
  if isHeader last == some true || isHeader (last + 4) == some false then .fault s (v.cause causeBadTarget)
  else if count = 0 then .goto s (last + 4) false
  else if v.stackFull then .fault s (v.cause causeStackOverflow)
  else if (sliceList v.f.mask).any fun k => decide (4 ≤ (v.w.slice k).loopEnds.length) then
    .fault s (v.cause causeLoopOverflow)
  else
    .done (v.slices s fun _ x =>
      { x.push .rptEntry 0 v.c.after (BitVec.ofNat 32 count) with loopEnds := last :: x.loopEnds })

/-- `rpt n, after` (R101). -/
def execRptImm (c : BitVec 14) (l : BitVec 7) (s : State) : Host.Outcome State Fault Refusal :=
  issueWord (fun _ => { ok := l != 0 }) (fun v s => beginLoop v s c.toNat l) s

/-- `rpt sK, after` (R101). -/
def execRptReg (k l : BitVec 7) (s : State) : Host.Outcome State Fault Refusal :=
  issueWord (fun _ => { reads := [.s k.toNat], ok := l != 0 })
    (fun v s => beginLoop v s (loWord (v.w.sreg k.toNat)).toNat l) s

/-! ## MODE and long immediates -/

/-- `setm` with an immediate (R74, R110). -/
def execSetm (m : BitVec 16) (s : State) : Host.Outcome State Fault Refusal :=
  issueWord (fun _ => { ok := modeOk m })
    (fun v s => .done (s.mapFrag v.key v.no fun f => { f with mode := m.setWidth 32 })) s

/-- `setm sK` (R74, R110). -/
def execSetmReg (a : BitVec 7) (s : State) : Host.Outcome State Fault Refusal :=
  issueWord (fun _ => { reads := [.s a.toNat] }) (fun v s =>
    let x := v.w.sreg a.toNat
    if decide (x.toNat < 65536) && modeOk (x.setWidth 16) then
      .done (s.mapFrag v.key v.no fun f => { f with mode := (x.setWidth 16).setWidth 32 })
    else .fault s v.illegal) s

/-- Is a word a `limh` (R80)? -/
def isLimh (w : Word) : Bool := majorOf w == 6 && bitsOf w.toNat 7 18 == 0

/-- `lim` (R80, R111). -/
def execLim (l : BitVec 25) (s : State) : Host.Outcome State Fault Refusal :=
  issueWord shapeNone (fun v s =>
    let at' := fun i => if i < v.c.words.length then v.c.words.getD i 0 else 0
    let next := at' (v.c.pos + 1)
    if isLimh next then
      if takesLong (at' (v.c.pos + 2)) then .carry s (next.extractLsb' 0 7 ++ l) else .fault s v.illegal
    else if takesLong next then .carry s (l.signExtend 32)
    else .fault s v.illegal) s

/-- `limh` (R80, R111): stands directly after a `lim`, which has built the value. -/
def execLimh (_h : BitVec 7) (s : State) : Host.Outcome State Fault Refusal :=
  issueWord shapeNone (fun v s =>
    match v.c.long with
    | some x => if v.c.pos != 0 && majorOf (v.c.words.getD (v.c.pos - 1) 0) == 5 then .carry s x else .fault s v.illegal
    | none => .fault s v.illegal) s

/-! ## Special registers (R77, R112, R113) -/

/-- The value of a special register: per lane, 32 bits or 64 bits. -/
inductive SrVal where
  | lanes (x : Lanes)
  | word (x : Word)
  | wide (x : DWord)
  deriving DecidableEq, Repr

/-- The trap slot that TCAUSE and TINFO read: that of the fragment's lowest slice that has one (R52). -/
def View.trapSlot (v : View) : Option TrapSlot := (sliceList v.f.mask).findSome? fun k => (v.w.slice k).trap

/-- A counter of the core, or 0 in a crew that owns no accumulator window (R64, R77). -/
def View.coreCount (v : View) (s : State) (g : Core → DWord) : SrVal :=
  .wide (if v.crew.spadMacros = 0 then 0 else g (s.core v.crew.core))

/-- Read a special register; none for a number that R77 does not list. -/
def View.sr (v : View) (s : State) (n : Nat) : Option SrVal :=
  match n with
  | 0x00 => some (.lanes (Lanes.ofFn fun i => BitVec.ofNat 32 i))
  | 0x01 => some (.lanes v.w.origLane)
  | 0x02 => some (.word (BitVec.ofNat 32 v.w.id))
  | 0x03 => some (.word (BitVec.ofNat 32 v.crew.row))
  | 0x04 => some (.word (BitVec.ofNat 32 v.crew.col))
  | 0x05 => some (.word v.w.recCount)
  | 0x06 => some (.word v.w.status)
  | 0x07 => some (.word v.w.flags)
  | 0x08 => some (.word v.f.mode)
  | 0x09 => some (.wide v.w.wtimer)
  | 0x0A => some (.wide s.time)
  | 0x0B => some (.wide v.w.tmrthr)
  | 0x0C => some (.wide v.w.tvec)
  | 0x0D => some (.word (BitVec.ofNat 32 ((v.trapSlot.map (·.cause)).getD 0)))
  | 0x0E => some (.word ((v.trapSlot.map (·.value)).getD 0))
  | 0x10 => some (.word (v.w.wt.getD 0 0))
  | 0x11 => some (.word (v.w.wt.getD 1 0))
  | 0x12 => some (.word (v.w.wt.getD 2 0))
  | 0x13 => some (.word (v.w.wt.getD 3 0))
  | 0x14 => some (.word v.w.rseed)
  | 0x15 => some (.lanes v.w.rdraw)
  | 0x18 => some (v.coreCount s (·.gatecnt))
  | 0x19 => some (v.coreCount s (·.replaycnt))
  | 0x1A => some (.word v.w.haarcnt)
  | 0x20 => some (.word (BitVec.ofNat 32 v.w.xc.nv))
  | 0x21 => some (.word (BitVec.ofNat 32 v.w.xc.dz))
  | 0x22 => some (.word (BitVec.ofNat 32 v.w.xc.ov))
  | 0x23 => some (.word (BitVec.ofNat 32 v.w.xc.uf))
  | 0x24 => some (.word (BitVec.ofNat 32 v.w.xc.nx))
  | 0x25 => some (.word (BitVec.ofNat 32 v.w.xc.sa))
  | _ => none

/-- The special registers of 64 bits (R77). -/
def srWide (n : Nat) : Bool := [0x09, 0x0A, 0x0B, 0x0C, 0x18, 0x19].contains n

/-- `rdsr vD, NAME` (R112). -/
def execRdsr (d a : BitVec 7) (s : State) : Host.Outcome State Fault Refusal :=
  issueWord (fun v =>
    let wide := srWide a.toNat
    { reads := [.sr a.toNat], writes := laneRegs wide d.toNat,
      ok := pairOk wide d.toNat && (v.sr s a.toNat).isSome }) (fun v s =>
    match v.sr s a.toNat with
    | none => .fault s v.illegal
    | some x => onWarp v s fun w =>
      match x with
      | .lanes l => w.writeLanes v.type false d.toNat v.act fun n => (l.get n).toNat
      | .word y => w.writeLanes v.type false d.toNat v.act fun _ => y.toNat
      | .wide y => w.writeLanes v.type true d.toNat v.act fun _ => y.toNat) s

/-- `rdsr.s sD, NAME` (R112): a per-lane register gives the lowest active lane's value, or 0. -/
def execRdsrS (d a : BitVec 7) (s : State) : Host.Outcome State Fault Refusal :=
  issueWord (fun v => { reads := [.sr a.toNat], writes := [.s d.toNat], ok := (v.sr s a.toNat).isSome }) (fun v s =>
    match v.sr s a.toNat with
    | none => .fault s v.illegal
    | some x => onWarp v s fun w => w.setS d.toNat
      (match x with
       | .lanes l => ((lowestLane v.act).map fun n => (l.get n).setWidth 64).getD 0
       | .word y => y.setWidth 64
       | .wide y => y)) s

/-- Write a special register; none when the register is not writable or the value sets a reserved bit (R52, R77,
R78). -/
def Warp.putSr (w : Warp) (n : Nat) (x : DWord) : Option Warp :=
  let y := loWord x
  match n with
  | 0x06 => if y.toNat < 2 then some { w with status := y } else none
  | 0x07 => if y.toNat < 64 then some { w with flags := y } else none
  | 0x0C => if x.toNat < 2 ^ 57 ∧ x.toNat % 4 = 0 then some { w with tvec := x } else none
  | 0x10 => some { w with wt := w.wt.set 0 y }
  | 0x11 => some { w with wt := w.wt.set 1 y }
  | 0x12 => some { w with wt := w.wt.set 2 y }
  | 0x13 => some { w with wt := w.wt.set 3 y }
  | _ => none

/-- `wrsr NAME, sB` (R113). -/
def execWrsr (a b : BitVec 7) (s : State) : Host.Outcome State Fault Refusal :=
  issueWord (fun _ => { reads := [.s b.toNat] }) (fun v s =>
    match v.w.putSr a.toNat (v.w.sreg b.toNat) with
    | none => .fault s v.illegal
    | some _ => onWarp v s fun w => (w.putSr a.toNat (v.w.sreg b.toNat)).getD w) s

/-! ## Traps and timers -/

/-- `trap n` (R364). -/
def execTrap (n : BitVec 7) (s : State) : Host.Outcome State Fault Refusal :=
  issueWord shapeNone (fun v s => .done (s.raiseTrap v causeTrap (n.setWidth 32))) s

/-- `bkpt` (R364). -/
def execBkpt (s : State) : Host.Outcome State Fault Refusal :=
  issueWord shapeNone (fun v s =>
    if ((Tab.lookup v.crew.ctx s.ctxs).map (·.debug)).getD false then .done (s.raiseTrap v causeBreak 0) else .done s) s

/-- `rtt` (R52, R365): PC and CM come back from each slice's trap slot, which empties. -/
def execRtt (s : State) : Host.Outcome State Fault Refusal :=
  issueWord shapeNone (fun v s =>
    match v.w.leaveTrap v.f with
    | none => .fault s (v.cause causeStackMismatch)
    | some (_, pc) =>
      .left ((s.mapWarp v.key fun w => ((w.leaveTrap v.f).map (·.1)).getD w).endClause v.key v.no pc)) s

/-- `settmr sA` (R369). -/
def execSettmr (a : BitVec 7) (s : State) : Host.Outcome State Fault Refusal :=
  issueWord (fun _ => { reads := [.s a.toNat] })
    (fun v s => onWarp v s fun w => { w with tmrthr := v.w.sreg a.toNat }) s

/-- `settmr.rel sA` (R369). -/
def execSettmrRel (a : BitVec 7) (s : State) : Host.Outcome State Fault Refusal :=
  issueWord (fun _ => { reads := [.s a.toNat] })
    (fun v s => onWarp v s fun w =>
      { w with tmrthr := BitVec.ofNat 64 (Nat.min (w.wtimer.toNat + (v.w.sreg a.toNat).toNat) (2 ^ 64 - 1)) }) s

end Sys2Proof.Machine
end

