-- ==== Sys2Proof/Machine/Clause.lean ====
section
/-! DEFINITION. The issue choice and the start of clauses (R47 to R49, R58, R81 to R85, R387), what happens at clause
boundaries (R52, R69), the merging of fragments (R25), and the end of warps (R108). -/

namespace Sys2Proof.Machine

/-- What a clause header asks for (R81). -/
structure Header where
  wait : BitVec 12
  setA : Nat
  setB : Nat
  len : Nat
  entry : Bool
  yield : Bool
  deriving DecidableEq, Repr

/-- The fields of a header word. -/
def headerOf (w : Word) : Header :=
  ⟨w.extractLsb' 13 12, bitsOf w.toNat 9 4, bitsOf w.toNat 5 4, bitsOf w.toNat 2 3 + 1, w.getLsbD 1, w.getLsbD 0⟩

/-- Is a flag number of a header 0 to 11, or 15 (R81)? -/
def flagNoOk (n : Nat) : Bool := decide (n < 12 ∨ n = 15)

/-- The words of a clause, or the first address that cannot be fetched, with the cause (R387). -/
def State.fetchClause (s : State) (ctx core : Nat) (a : Addr) : Nat → Except (Addr × Nat × Bool) (List Word)
  | 0 => .ok []
  | n + 1 =>
    match s.fetchWord ctx core a with
    | .error (c, pg) => .error (a, c, pg)
    | .ok w =>
      match s.fetchClause ctx core (a + 4) n with
      | .error e => .error e
      | .ok ws => .ok (w :: ws)

/-- The first word of a clause that may not stand where it does: a header, a misplaced control word, a third
long-latency word (R82 to R84). -/
def misplaced (words : List Word) (len : Nat) : Nat → Nat → Option Nat
  | pos, longs =>
    match words with
    | [] => none
    | w :: ws =>
      if majorOf w == 0x7F || (isControl w && pos + 1 != len) || (standsAlone w && pos != 0) then some pos
      else
        let longs := longs + (isLong w).toNat
        if longs == 3 then some pos else misplaced ws len (pos + 1) longs

/-- Are all flags that a header waits for clear in every slice of the fragment (R47)? -/
def Warp.flagsClear (w : Warp) (m : SliceMask) (wait : BitVec 12) : Bool :=
  (sliceList m).all fun k => (w.slice k).flags &&& wait == 0

/-- Cover the pending writes whose flag a header waits for (R85). -/
def coverPending (m : SliceMask) (wait : BitVec 12) (l : List Pending) : List Pending :=
  (l.map fun q => if wait.getLsbD q.flag then { q with slices := q.slices &&& ~~~ m } else q).filter fun q =>
    q.slices != 0

/-- The bit of a completion flag; none for 15. -/
def flagBit (n : Nat) : BitVec 12 := if n < 12 then BitVec.ofNat 12 (2 ^ n) else 0

/-- The region that a clause with E = 1 opens (R58). -/
def Warp.newRegion (w : Warp) (m : SliceMask) (pc : Addr) (next : Nat) : Region :=
  ⟨pc, (sliceList m).map fun k => ⟨k, (w.slice k).cm, (w.slice k).stack.length, (w.slice k).loopEnds⟩, next⟩

/-- The fault of a fragment that could not start a clause: WORD names a word, ADDR an address that could not be
fetched (R387). -/
def State.fetchFault (s : State) (k n : Nat) (a : Addr) (c : Nat) (page : Bool) : State :=
  match s.fragOf k n with
  | none => s
  | some (w, f) =>
    s.takeFault k n { cause := c, lanes := w.active f, addr := a, granule := if page then some (a.toNat / 65536) else none }
      0 f.pc .replay

/-- An illegal word found when a clause starts. -/
def State.startIllegal (s : State) (k n pos : Nat) (word : Word) : State :=
  match s.fragOf k n with
  | none => s
  | some (w, f) => s.takeFault k n { cause := causeIllegal, lanes := w.active f, info := word } pos f.pc .replay

/-- `rdflg` and `clrflg`, whose clause waits for the warp's flag-raising operations (R178). -/
def flagWord (w : Word) : Bool := majorOf w == 0x33

/-- A fragment between clauses waits, in a state of R27 that a handler keeps as TRAPPED, and does not age (R48). -/
def Warp.waiting (w : Warp) (st : FragState) (f : Frag) : Frag :=
  { f with state := if w.inTrap f.mask then .trapped else st, age := 0 }

/-- Start the clause whose header stands at the fragment's PC (R47, R58, R81 to R85, R387): a flag still set makes the
fragment wait, before SETA and SETB are judged (the spec leaves that order open: notes/assumptions/42); the words are fetched and
placed; SETA and SETB are set, writes covered, a region opened, credit taken.  `hw` is the header's word. -/
def State.openClause (s : State) (k n : Nat) (h : Header) (hw : Word) : State :=
  match s.fragOf k n with
  | none => s
  | some (w, f) =>
    if !f.atBoundary then s
    else if !w.flagsClear f.mask h.wait then
      (s.mapFrag k n (w.waiting .flagWait)).release k n
    else if !(flagNoOk h.setA && flagNoOk h.setB) then s.startIllegal k n 0 hw
    else
      let ctx := s.ctxOfCrew w.crew
      let core := ((Tab.lookup w.crew s.crews).map (·.core)).getD 0
      match s.fetchClause ctx core (f.pc + 4) h.len with
      | .error (a, c, pg) => s.fetchFault k n a c pg
      | .ok words =>
        match misplaced words h.len 0 0 with
        | some pos => s.startIllegal k n pos (words.getD pos 0)
        | none =>
          if words.any flagWord && s.raisersLeft k then (s.mapFrag k n (w.waiting .held)).release k n else
          let c : Clause := ⟨f.pc, words, 0, h.setA, h.setB, (words.filter isLong).length, 0, none, s.nextId⟩
          let f1 := { f with
            clause := some c, suspended := false, age := 0, passed := h.yield, state := w.goingState f.mask,
            region := if h.entry then some (w.newRegion f.mask f.pc s.nextId) else f.region }
          let w1 := { (w.mapSlices f.mask fun _ x => { x with flags := x.flags ||| flagBit h.setA ||| flagBit h.setB }) with
            pending := coverPending f.mask h.wait w.pending
            recCount := if h.entry then w.recCount + 1 else w.recCount }
          let s1 := (s.setWarp k (w1.putFrag n f1)).remember ctx core f.pc.toNat
          { (s1.mapCore core fun q => { q with credit := Tab.set 0 q.credit ctx (Tab.get 0 q.credit ctx - h.len) }) with
            cur := some (k, n) }

/-- A clause header as a word (R81).  Where a clause of the fragment is in progress, a header is a misplaced word and
raises illegal-instruction (R82). -/
def execClauseHeader (w : BitVec 12) (a b : BitVec 4) (l : BitVec 3) (e y : BitVec 1) (s : State) :
    Host.Outcome State Fault Refusal :=
  match s.cur with
  | none => .fault .noIssuingFragment
  | some (k, n) =>
    match s.fragOf k n with
    | none => .fault .noIssuingFragment
    | some (wp, f) =>
      let hw : Word := 0x7F#7 ++ w ++ a ++ b ++ l ++ e ++ y
      match f.clause with
      | some c => .next (s.takeFault k n { cause := causeIllegal, lanes := wp.active f, info := hw } c.pos c.header .replay)
      | none => .next (s.openClause k n ⟨w, a.toNat, b.toNat, l.toNat + 1, e == 1, y == 1⟩ hw)

/-! ## The issue choice (R47 to R49) -/

/-- A fragment that could start a clause. -/
structure Ready where
  key : Nat
  no : Nat
  ctx : Nat
  id : Nat
  placed : Nat
  age : Nat
  passed : Bool
  deriving DecidableEq, Repr

/-- Has a fragment a trap to take before it may start a clause (R52)? -/
def Warp.trapDue (w : Warp) (f : Frag) : Bool :=
  !f.raised.isEmpty || (!f.waiting.isEmpty && !w.inTrap f.mask) || w.timerDue

/-- May the warps of a crew start clauses: it is resident and its context runs? -/
def State.crewRuns (s : State) (c : Crew) : Bool :=
  c.state == .resident && ((Tab.lookup c.ctx s.ctxs).map fun x => x.state == .running).getD false

/-- May the warps of a crew go on with a clause: a context that is descheduled stops at clause boundaries only (R356)? -/
def State.crewGoes (s : State) (c : Crew) : Bool :=
  c.state == .resident && ((Tab.lookup c.ctx s.ctxs).map fun x => x.state != .stopped).getD false

/-- What the clause at a fragment's PC waits for: flags (R47), the flag-raising operations of the warp (R178), or nothing.  A
header or word that cannot be read lets it start, for its fault is raised then. -/
def State.startWait (s : State) (ctx core key : Nat) (w : Warp) (f : Frag) : Option FragState :=
  match s.fetch ctx core f.pc with
  | some hw =>
    if majorOf hw != 0x7F then none
    else if !w.flagsClear f.mask (headerOf hw).wait then some .flagWait
    else match s.fetchClause ctx core (f.pc + 4) (headerOf hw).len with
      | .ok words => if words.any flagWord && s.raisersLeft key then some .held else none
      | .error _ => none
  | none => none

/-- Could the clause at a fragment's PC start? -/
def State.headerReady (s : State) (ctx core key : Nat) (w : Warp) (f : Frag) : Bool := (s.startWait ctx core key w f).isNone

/-- The fragments of one quadrant that could start a clause. -/
def State.readyIn (s : State) (core quad : Nat) : List Ready :=
  s.warps.flatMap fun e =>
    let w := e.2
    match Tab.lookup w.crew s.crews with
    | none => []
    | some c =>
      if c.core == core && w.id % 4 == quad && s.crewRuns c && !w.evicted && !w.retired then
        (w.frags.filter fun f => f.atBoundary && !w.trapDue f && s.headerReady c.ctx core e.1 w f).map fun f =>
          ⟨e.1, fragNo f.mask, c.ctx, w.id, c.placed, f.age, f.passed⟩
      else []

/-- Is another fragment than the given one of a quadrant in the middle of a run of words (R47, R223)? -/
def State.quadBusy (s : State) (core quad key no : Nat) : Bool :=
  s.warps.any fun e =>
    match Tab.lookup e.2.crew s.crews with
    | none => false
    | some c => c.core == core && e.2.id % 4 == quad && s.crewGoes c && !e.2.evicted &&
        e.2.frags.any fun f => f.clause.isSome && !f.suspended && (f.state == .ready || f.state == .trapped) &&
          !(e.1 == key && fragNo f.mask == no)

/-- Is `a` preferred to `b` (R48): greater age, then lower warp number, lower fragment number, the context placed
earlier? -/
def Ready.before (a b : Ready) : Bool :=
  if a.age != b.age then decide (b.age < a.age)
  else if a.id != b.id then decide (a.id < b.id)
  else if a.no != b.no then decide (a.no < b.no)
  else decide (a.placed < b.placed)

/-- The preferred one of a list. -/
def bestReady (l : List Ready) : Option Ready :=
  l.foldl (fun b r => match b with
    | none => some r
    | some q => if r.before q then some r else some q) none

/-- The credit of a context on a core. -/
def Core.creditOf (c : Core) (ctx : Nat) : Int := Tab.get 0 c.credit ctx

/-- The contexts with a resident warp on a core. -/
def State.contextsOn (s : State) (core : Nat) : List Nat :=
  (s.warps.filterMap fun e =>
    if e.2.evicted || e.2.retired then none
    else (Tab.lookup e.2.crew s.crews).bind fun c => if c.core == core && c.state == .resident then some c.ctx else none).eraseDups

/-- The weight of a context (R49). -/
def State.weightOf (s : State) (ctx : Nat) : Nat := ((Tab.lookup ctx s.ctxs).map (·.weight)).getD 1

/-- `n` new rounds (R49): in each, every context with a resident warp on the core gains 64 × weight, capped at 128 × weight. -/
def State.newRounds (s : State) (core n : Nat) : State :=
  let ctxs := s.contextsOn core
  s.mapCore core fun q =>
    { q with credit := ctxs.foldl (fun t c =>
        let w := s.weightOf c
        Tab.set 0 t c (if n = 0 then Tab.get 0 t c else min (Tab.get 0 t c + 64 * w * n) (128 * w))) q.credit }

/-- The fragments of a core that could start a clause. -/
def State.readyOn (s : State) (core : Nat) : List Ready := (List.range 4).flatMap (s.readyIn core)

/-- How many new rounds it takes until a context with a given weight and credit has positive credit. -/
def roundsFor (weight : Nat) (credit : Int) : Nat := ((1 - credit).toNat + 64 * weight - 1) / (64 * weight)

/-- The rounds that begin on a core before a clause starts: as many as it takes until one of the fragments that could start has
credit (R49). -/
def State.roundsNeeded (s : State) (core : Nat) : Nat :=
  leastOf ((s.readyOn core).map fun r => roundsFor (s.weightOf r.ctx) ((s.core core).creditOf r.ctx))

/-- The fragment that a quadrant starts next, with the state after any new rounds of credit (R48, R49): new rounds begin
when no fragment of the core that could start has credit.  'Unless no other fragment can start' (R48) is read of the
fragments with credit, among which rule 2 chooses; the spec leaves it open (notes/assumptions/42). -/
def State.choose (s : State) (core quad : Nat) : Option (State × Ready) :=
  let l := s.readyIn core quad
  let aged := l.filter fun r => decide (2048 ≤ r.age)
  if !aged.isEmpty then (bestReady aged).map fun r => (s, r)
  else
    let t := s.newRounds core (s.roundsNeeded core)
    let rich := l.filter fun r => decide (0 < (t.core core).creditOf r.ctx)
    let fresh := rich.filter fun r => !r.passed
    (bestReady (if fresh.isEmpty then rich else fresh)).map fun r => (t, r)

/-- CLAUSE_START: the quadrant of a warp starts the clause of the fragment that R48 prefers.  Nothing happens when
that is another fragment, or the quadrant is in the middle of a clause. -/
def execClauseStart (warp frag : Nat) (s : State) : Host.Outcome State Fault Refusal :=
  .next (match Tab.lookup warp s.warps with
    | none => s
    | some w =>
      match Tab.lookup w.crew s.crews with
      | none => s
      | some c =>
        if s.quadBusy c.core (w.id % 4) warp frag then s
        else
          match s.choose c.core (w.id % 4) with
          | none => s
          | some (s1, r) =>
            if r.key == warp && r.no == frag then
              match w.frag frag with
              | none => s
              | some f =>
                match s.fetchWord c.ctx c.core f.pc with
                | .error (e, pg) => s1.fetchFault warp frag f.pc e pg
                | .ok hw =>
                  if majorOf hw == 0x7F then s1.openClause warp frag (headerOf hw) hw
                  else s1.startIllegal warp frag 0 hw
            else s)

/-- A fragment between clauses that waits enters the state of its wait; when the wait has ended it is READY; a READY one ages
by `n` cycles, counted from when it last started a clause or became READY (R27, R48). -/
def State.ageFrag (s : State) (k : Nat) (w : Warp) (c : Crew) (n : Nat) (f : Frag) : Frag :=
  if !f.atBoundary then { f with age := if f.state == .ready || f.state == .trapped then f.age + n else 0 }
  else
    match s.startWait c.ctx c.core k w f with
    | some st => w.waiting st f
    | none =>
      if f.state == .flagWait || f.state == .held then { f with state := .ready, age := 0 } else { f with age := f.age + n }

/-- A resident warp counts `n` cycles, and its fragments age. -/
def State.ageWarp (s : State) (n k : Nat) (w : Warp) : Warp :=
  match Tab.lookup w.crew s.crews with
  | none => w
  | some c =>
    if w.evicted || w.retired || c.state != .resident then w
    else { w with wtimer := w.wtimer + BitVec.ofNat 64 n, frags := w.frags.map (s.ageFrag k w c n) }

/-- Cycles pass on every core (R48, R69). -/
def State.passCycles (s : State) (n : Nat) : State := { s with warps := Tab.mapVals (s.ageWarp n) s.warps }

/-- AGE_THRESHOLD: the age of a READY fragment reaches 2,048: as many cycles pass, for all alike, as it takes (R48). -/
def execAgeThreshold (warp frag : Nat) (s : State) : Host.Outcome State Fault Refusal :=
  .next (match s.fragOf warp frag with
    | none => s
    | some (_, f) => if f.atBoundary && f.state != .flagWait && f.state != .held then s.passCycles (2048 - f.age) else s)

/-- YIELD_HINT_EXPIRY: 64 cycles after the start of a clause with Y = 1 the fragment is no longer passed over (R48,
R109). -/
def execYieldHintExpiry (warp frag : Nat) (s : State) : Host.Outcome State Fault Refusal :=
  .next (s.mapFrag warp frag fun f => { f with passed := false })

/-- TRAP_ENTRY: a fragment at a clause boundary takes its trap (R52, R53). -/
def execTrapEntry (warp frag : Nat) (s : State) : Host.Outcome State Fault Refusal := .next (s.enterTrap warp frag)

/-- TIMER_TRAP: the timer of a warp is due at a fragment's clause boundary; TMRTHR becomes 0 (R69, R369). -/
def execTimerTrap (warp frag : Nat) (s : State) : Host.Outcome State Fault Refusal :=
  .next (match s.fragOf warp frag with
    | none => s
    | some (w, f) =>
      if f.atBoundary && w.takesTimer f then let (w1, f1) := w.raiseTimer f
        s.setWarp warp (w1.putFrag frag f1)
      else s)

/-! ## Merging (R25, R105, R107) -/

/-- The fragments of a warp that hold a named, unfinished slice. -/
def Warp.ganging (w : Warp) (m : SliceMask) : List Frag :=
  w.frags.filter fun f => (sliceList (f.mask &&& m)).any fun k => !(w.slice k).finished

/-- Have the named unfinished slices equal stack depths? -/
def Warp.sameDepth (w : Warp) (m : SliceMask) : Bool :=
  let ds := ((sliceList m).filter fun k => !(w.slice k).finished).map fun k => (w.slice k).stack.length
  ds.all fun d => d == ds.headD 0

/-- The word at which a fragment stands. -/
def Frag.word (f : Frag) : Word := (f.clause.map fun c => c.words.getD c.pos 0).getD 0

/-- Is a word a `join`? -/
def isJoin (w : Word) : Bool := majorOf w == 0x03 && subOf w == 5

/-- REGANG_MERGE: the fragments that wait at one `regang` become one, or all of them raise regang-mismatch; a `join` pops its
MARK entries.  What becomes of class-T causes that wait the spec leaves open: the merged fragment has those of all of them, and
each of its slices takes them (notes/assumptions/43). -/
def execRegangMerge (warp frag : Nat) (s : State) : Host.Outcome State Fault Refusal :=
  .next (match s.fragOf warp frag with
    | none => s
    | some (w, f) =>
      match f.state, f.gang with
      | .regang, some (a, m) =>
        let g := w.ganging m
        if !(g.all fun x => x.state == .regang) then s
        else if (g.all fun x => x.gang == some (a, m)) && w.sameDepth m && (g.all fun x => x.mode == f.mode) then
          let mask := sliceMaskOf fun k => m.getLsbD k && !(w.slice k).finished
          let merged : Frag :=
            { f with mask := mask, region := none, gang := none, age := 0, state := w.goingState mask,
                     raised := g.flatMap (·.raised),
                     waiting := g.foldl (fun l x => x.waiting.foldl (fun l y => insertWaiting y l) l) [] }
          let w0 := if isJoin f.word then w.mapSlices mask fun _ x => x.pop else w
          let w1 := { w0 with frags := insertFrag merged (w.frags.filter fun x => !g.contains x) }
          let s1 := s.setWarp warp w1
          match Tab.lookup w.crew s.crews, f.clause with
          | some crew, some c =>
            let v : View := ⟨warp, fragNo mask, w1, merged, c, crew, w1.active merged⟩
            s1.after s1 v false none false (isJoin f.word)
          | _, _ => s
        else
          g.foldl (fun s x =>
            match x.clause with
            | some c => s.takeFault warp (fragNo x.mask) { cause := causeRegang, lanes := w.active x } c.pos c.header .replay
            | none => s) s
      | _, _ => s)

/-! ## Records and retirement -/

/-- FAULT_RECORD_WRITE: the oldest held fault record of a context goes to its slot when the slot's V bit is clear
(R57). -/
def execFaultRecordWrite (ctx : Nat) (s : State) : Host.Outcome State Fault Refusal :=
  .next (match (Tab.lookup ctx s.ctxs).bind (·.faultQ) with
    | none => s
    | some q =>
      match s.writeRecord ctx 23 q with
      | none => s
      | some (s1, q1) => s1.mapCtx ctx fun c => { c with faultQ := some q1 })

/-- Has a warp nothing outstanding (R108): counters zero, flags clear, every request of it completed? -/
def State.quiet (s : State) (k : Nat) (w : Warp) : Bool :=
  w.oc == ⟨0, 0, 0, 0, 0⟩ && (w.slices.all fun x => x.flags == 0) &&
    s.ops.all fun o => o.src.warp != k || o.completed

/-- WARP_RETIRE: every fragment is DONE and nothing is outstanding; the warp's slot and registers are freed (R108).
At the exit of the crew's last warp, members of `mma.q` that no set can take are discarded (R292). -/
def execWarpRetire (warp : Nat) (s : State) : Host.Outcome State Fault Refusal :=
  .next (match Tab.lookup warp s.warps with
    | none => s
    | some w =>
      if !w.retired && (w.frags.all fun f => f.state == .done) && s.quiet warp w then
        let s1 := s.setWarp warp { w with retired := true, window := false }
        let rest := s1.warps.any fun e => e.2.crew == w.crew && !e.2.retired
        if rest then s1
        else { s1 with crews := Tab.mapVals (fun k c => if k == w.crew then { c.discardPending with state := .exited } else c) s1.crews }
      else s)

end Sys2Proof.Machine
end

