-- ==== Sys2Proof/Machine/CrossLane.lean ====
section
/-! DEFINITION. Cross-lane words: shuffles, votes, ballots, matches (R31, R127 to R131), and the regrouping of a
crew's lanes (R33, R134). -/

namespace Sys2Proof.Machine

/-- The member mask of a cross-lane word: bits [31:0] of a uniform register (R31). -/
def View.members (v : View) (m : BitVec 7) : LaneMask := loWord (v.w.sreg m.toNat)

/-- Note absent members (R31): STATUS.MEMBER_ABSENT is set, and under MODE.MAT the member-absent trap is raised with
the absent named lanes. -/
def State.noteAbsent (s : State) (v : View) (named : LaneMask) (absent : Bool) : State :=
  if absent then
    let s1 := s.mapWarp v.key fun w => { w with status := w.status ||| 1 }
    if modeMat v.f.mode then s1.raiseTrap v causeMember (named &&& ~~~ v.act) else s1
  else s

/-- Is a named lane absent? -/
def View.anyAbsent (v : View) (named : LaneMask) : Bool := named &&& ~~~ v.act != 0

/-- Where a shuffle looks, for a lane and a selector (R128): none keeps the lane's own value. -/
abbrev ShflFn := Nat → Nat → Option Nat

/-- `shfl.idx` -/
def shflIdxOf : ShflFn := fun _ s => some s
/-- `shfl.up` -/
def shflUpOf : ShflFn := fun i s => if s ≤ i then some (i - s) else none
/-- `shfl.down` -/
def shflDownOf : ShflFn := fun i s => if i + s < 32 then some (i + s) else none
/-- `shfl.xor` -/
def shflXorOf : ShflFn := fun i s => some (i ^^^ s)

/-- Shuffle (R128): every source is read before any lane is written. -/
def shuffle (v : View) (s : State) (f : ShflFn) (d m : BitVec 7) (sel : Nat → Nat) : Res :=
  let named := v.members m
  let wide := typeWide v.type
  let present := named &&& v.act
  let src := fun i => f i (sel i)
  let missed := (laneList v.act).any fun i =>
    match src i with
    | some j => !present.getLsbD j
    | none => false
  let s1 := s.mapWarp v.key fun w => w.writeLanes v.type wide d.toNat v.act fun i =>
    match src i with
    | none => v.w.laneBits wide d.toNat i
    | some j => if present.getLsbD j then v.w.laneBits wide d.toNat j else 0
  .done (s1.noteAbsent v named (missed || v.anyAbsent named))

/-- Shuffle with a selector register. -/
def shflReg (f : ShflFn) (d m sel : BitVec 7) : State → Host.Outcome State Fault Refusal :=
  issueWord (fun v => { reads := .s m.toNat :: .v sel.toNat :: laneRegs (typeWide v.type) d.toNat,
                        writes := laneRegs (typeWide v.type) d.toNat, ok := pairOk (typeWide v.type) d.toNat })
    fun v s => shuffle v s f d m fun i => ((v.w.vreg sel.toNat).get i).toNat % 32

/-- Shuffle with an immediate from 0 to 31 (R127). -/
def shflImm (f : ShflFn) (d m i : BitVec 7) : State → Host.Outcome State Fault Refusal :=
  issueWord (fun v => { reads := .s m.toNat :: laneRegs (typeWide v.type) d.toNat,
                        writes := laneRegs (typeWide v.type) d.toNat,
                        ok := pairOk (typeWide v.type) d.toNat && decide (0 ≤ v.immInt i ∧ v.immInt i < 32) })
    fun v s => shuffle v s f d m fun _ => (v.immInt i).toNat


/-- `shfl.idx vD, vSel, sM` (R128). -/
def execShflIdx (d m sel : BitVec 7) (s : State) : Host.Outcome State Fault Refusal := shflReg shflIdxOf d m sel s

/-- `shfl.idx vD, n, sM` (R128). -/
def execShflIdxI (d m i : BitVec 7) (s : State) : Host.Outcome State Fault Refusal := shflImm shflIdxOf d m i s

/-- `shfl.up vD, vSel, sM` (R128). -/
def execShflUp (d m sel : BitVec 7) (s : State) : Host.Outcome State Fault Refusal := shflReg shflUpOf d m sel s

/-- `shfl.up vD, n, sM` (R128). -/
def execShflUpI (d m i : BitVec 7) (s : State) : Host.Outcome State Fault Refusal := shflImm shflUpOf d m i s

/-- `shfl.down vD, vSel, sM` (R128). -/
def execShflDown (d m sel : BitVec 7) (s : State) : Host.Outcome State Fault Refusal := shflReg shflDownOf d m sel s

/-- `shfl.down vD, n, sM` (R128). -/
def execShflDownI (d m i : BitVec 7) (s : State) : Host.Outcome State Fault Refusal := shflImm shflDownOf d m i s

/-- `shfl.xor vD, vSel, sM` (R128). -/
def execShflXor (d m sel : BitVec 7) (s : State) : Host.Outcome State Fault Refusal := shflReg shflXorOf d m sel s

/-- `shfl.xor vD, n, sM` (R128). -/
def execShflXorI (d m i : BitVec 7) (s : State) : Host.Outcome State Fault Refusal := shflImm shflXorOf d m i s

/-- A vote (R129): one value into pD of every active lane.  `f` has the named lanes and those of them that are present
and have pA true. -/
def vote (f : LaneMask → LaneMask → Bool) (d a m : BitVec 7) : State → Host.Outcome State Fault Refusal :=
  issueWord (fun _ => { reads := [.s m.toNat, .p a.toNat], writes := [.p d.toNat] }) fun v s =>
    let named := v.members m
    let yes := named &&& v.act &&& v.w.pred a.toNat
    .done ((s.mapWarp v.key fun w => w.setP d.toNat v.act (if f named yes then BitVec.allOnes 32 else 0)).noteAbsent v
      named (v.anyAbsent named))

/-- `vote.any pD, pA, sM` (R129). -/
def execVoteAny (d a m : BitVec 7) (s : State) : Host.Outcome State Fault Refusal := vote (fun _ yes => yes != 0) d a m s
/-- `vote.all pD, pA, sM` (R129). -/
def execVoteAll (d a m : BitVec 7) (s : State) : Host.Outcome State Fault Refusal :=
  vote (fun named yes => yes == named) d a m s
/-- `vote.uni pD, pA, sM` (R129). -/
def execVoteUni (d a m : BitVec 7) (s : State) : Host.Outcome State Fault Refusal :=
  vote (fun named yes => yes == named || yes == 0) d a m s

/-- `ballot vD, pA, sM` (R130). -/
def execBallot (d a m : BitVec 7) (s : State) : Host.Outcome State Fault Refusal :=
  issueWord (fun _ => { reads := [.s m.toNat, .p a.toNat], writes := [.v d.toNat] }) (fun v s =>
    let named := v.members m
    let yes := named &&& v.act &&& v.w.pred a.toNat
    .done ((s.mapWarp v.key fun w => w.writeLanes v.type false d.toNat v.act fun _ => yes.toNat).noteAbsent v named
      (v.anyAbsent named))) s

/-- `match vD, vA, sM` (R131). -/
def execMatchLanes (d a m : BitVec 7) (s : State) : Host.Outcome State Fault Refusal :=
  issueWord (fun v => { reads := .s m.toNat :: laneRegs (typeWide v.type) a.toNat, writes := [.v d.toNat],
                        ok := pairOk (typeWide v.type) a.toNat }) (fun v s =>
    let named := v.members m
    let bits := v.w.laneBits (typeWide v.type) a.toNat
    .done ((s.mapWarp v.key fun w => w.writeLanes v.type false d.toNat v.act fun i =>
      (maskOf fun j => (named &&& v.act).getLsbD j && bits j == bits i).toNat).noteAbsent v named (v.anyAbsent named))) s

/-! ## Regrouping (R33, R134) -/

/-- The registers that a live mask names: v(2i) and v(2i+1) for each set bit i. -/
def liveRegs (m : DWord) : List Nat := (List.range 64).flatMap fun i => if m.getLsbD i then [2 * i, 2 * i + 1] else []

/-- `resort vA, sB` (R134): the warp arrives and waits for its crew.  Its write is pending for the registers named,
every predicate, LANEID and ORIGLANE. -/
def execResort (a b : BitVec 7) (s : State) : Host.Outcome State Fault Refusal :=
  issueWord (fun v =>
    let regs := liveRegs (v.w.sreg b.toNat)
    { reads := [.v a.toNat, .s b.toNat] ++ (regs.map .v) ++ (List.range 8).map .p, long := true,
      writes := (regs.map .v) ++ ((List.range 8).map .p) ++ [.sr 0, .sr 1],
      ok := regs.all fun r => decide (r - r % 2 < v.w.nregs) }) (fun v s =>
    let s1 := s.addOp v.src (.resort (v.w.vreg a.toNat) (v.w.sreg b.toNat)) true false
    .hold (s1.mapFrag v.key v.no fun f => { f with waitOp := some s.nextId }) .barrier) s

/-- One lane that takes part in a regrouping: where it stands, its key and its ORIGLANE. -/
structure Sorted where
  warp : Nat
  lane : Nat
  key : Nat
  orig : Nat
  deriving DecidableEq, Repr

/-- Insert in ascending order of key, ties by ORIGLANE (R33). -/
def insertSorted (x : Sorted) : List Sorted → List Sorted
  | [] => [x]
  | y :: ys =>
    if x.key < y.key ∨ (x.key = y.key ∧ x.orig < y.orig) then x :: y :: ys else y :: insertSorted x ys

/-- Bit n of a mask taken from elsewhere. -/
def moveBit (old : LaneMask) (f : Nat → Option Bool) : LaneMask :=
  maskOf fun n => (f n).getD (old.getLsbD n)

/-- A lane register with some lanes taken from elsewhere. -/
def moveLane (old : Lanes) (f : Nat → Option Word) : Lanes := Lanes.ofFn fun n => (f n).getD (old.get n)

/-- Does a register hold an uncorrectable error after lanes moved into it (R71): one comes with a lane, and one that stood there goes
only when every lane was replaced? -/
def movedBad (w : Warp) (froms : List (Option (Warp × Nat))) (r : Reg) : Bool :=
  froms.any fun x => match x with
    | some (u, _) => u.bad.contains r
    | none => w.bad.contains r

/-- Move lanes (R33): position `to` of each pair takes the lane that stood at `fro`: its predicates, ORIGLANE, RDRAW and
the registers named. -/
def moveLanes (old : Tab Warp) (regs : List Nat) (moves : List (Sorted × Sorted)) (k : Nat) (w : Warp) : Warp :=
  let source := fun (n : Nat) => (moves.find? fun m => m.1.warp == k && m.1.lane == n).bind fun m =>
    (Tab.lookup m.2.warp old).map fun u => (u, m.2.lane)
  if moves.all fun m => m.1.warp != k then w else
  let moved : List Reg := regs.map .v ++ (List.range 8).map .p
  { w with
    bad := (w.bad.filter fun r => !moved.contains r) ++ moved.filter (movedBad w ((List.range 32).map source))
    v := regs.foldl (fun t r => Tab.set Lanes.zero t r
      (moveLane (w.vreg r) fun n => (source n).map fun (u, l) => (u.vreg r).get l)) w.v
    p := (List.range 8).foldl (fun t r => Tab.set 0 t r
      (moveBit (w.pred r) fun n => (source n).map fun (u, l) => (u.pred r).getLsbD l)) w.p
    origLane := moveLane w.origLane fun n => (source n).map fun (u, l) => u.origLane.get l
    rdraw := moveLane w.rdraw fun n => (source n).map fun (u, l) => u.rdraw.get l }

/-- The `resort` that a fragment waits at: the request, the keys that it read at its issue (R84), its live mask. -/
def State.resortOf (s : State) (f : Frag) : Option (Op × Lanes × DWord) :=
  f.waitOp.bind fun i => (s.ops.find? fun o => o.id == i).bind fun o =>
    match o.kind with
    | .resort a m => some (o, a, m)
    | _ => none

/-- RESORT_COMPLETION: when every warp of the crew with an unfinished slice has arrived, the lanes are regrouped, or
every arrived warp raises resort-state (R33).  The control stack of a finished slice is not counted among the nonempty ones, and this
is the model's choice (notes/assumptions/42). -/
def execResortCompletion (crew : Nat) (s : State) : Host.Outcome State Fault Refusal :=
  let ws := s.warps.filter fun e => e.2.crew == crew && !e.2.retired && e.2.slices.any fun x => !x.finished
  let live := fun (w : Warp) => w.frags.filter fun f => f.state != .done
  let here := ws.all fun e => (live e.2).any fun f => (s.resortOf f).isSome && f.state == .barrier
  .next (if ws.isEmpty || !here then s else
    let arrivals := ws.flatMap fun e => (live e.2).filterMap fun f => (s.resortOf f).map fun r => (e.1, e.2, f, r)
    let masks := arrivals.map fun t => t.2.2.2.2.2
    let bad := ws.any (fun e => (live e.2).length != 1) ||
      ws.any (fun e => e.2.slices.any fun x => !x.finished && (!x.stack.isEmpty || (x.cm ||| x.xm) != 0xF)) ||
      !(masks.all fun m => m == masks.headD 0)
    let ids := arrivals.map fun t => t.2.2.2.1.id
    let s0 := { s with ops := s.ops.filter fun o => !ids.contains o.id }
    if bad then
      arrivals.foldl (fun s t =>
        match t.2.2.1.clause with
        | some c => s.takeFault t.1 (fragNo t.2.2.1.mask) { cause := causeResort, lanes := t.2.1.active t.2.2.1 } c.pos c.header
            .replay
        | none => s) s0
    else
      let lanes := arrivals.flatMap fun t =>
        (laneList (t.2.1.unexited 0xFF)).map fun n =>
          (⟨t.1, n, (t.2.2.2.2.1.get n).toNat, (t.2.1.origLane.get n).toNat⟩ : Sorted)
      let moves := lanes.zip (lanes.foldl (fun l x => insertSorted x l) [])
      let regs := liveRegs (masks.headD 0)
      let s1 := { s0 with warps := Tab.mapVals (moveLanes s.warps regs moves) s0.warps }
      arrivals.foldl (fun s t =>
        match s.fragOf t.1 (fragNo t.2.2.1.mask) with
        | none => s
        | some (w, f) =>
          match f.clause, Tab.lookup w.crew s.crews with
          | some c, some cr =>
            let v : View := ⟨t.1, fragNo f.mask, w, f, c, cr, w.active f⟩
            let sh : Shape := { writes := (regs.map .v) ++ ((List.range 8).map .p) ++ [.sr 0, .sr 1], long := true }
            (s.settle v sh (.done (s.endRegion v))).settleFlags t.1
          | _, _ => s) s1)

end Sys2Proof.Machine
end

