-- ==== Sys2Proof/Machine/Access.lean ====
section
/-! DEFINITION. From a lane's index to its bytes: buffer records (R186, R187), the merging of per-lane causes (R55),
the on-chip map (R35, R193, R194), and grouping into line requests (R189). -/

namespace Sys2Proof.Machine

/-- A buffer record, field by field (R186). -/
structure Buf where
  base : Nat
  clamp : Bool
  soft : Bool
  raw : Bool
  byp : Bool
  fab : Bool
  esz : Nat
  swz : Nat
  stride : Nat
  extent : Nat
  deriving DecidableEq, Repr

/-- The fields of a record. -/
def bufOf (x : BitVec 128) : Buf :=
  ⟨bitsOf x.toNat 0 57, x.getLsbD 59, x.getLsbD 60, x.getLsbD 61, x.getLsbD 62, x.getLsbD 63, bitsOf x.toNat 64 2,
    bitsOf x.toNat 66 3, bitsOf x.toNat 72 24, bitsOf x.toNat 96 32⟩

/-- Bytes of one lane's access. -/
def Buf.size (b : Buf) : Nat := 2 ^ b.esz

/-- Has a record only assigned values and zero reserved bits, and not both BASE[56] and FAB (R186, R233)? -/
def recordOk (x : BitVec 128) : Bool :=
  bitsOf x.toNat 57 2 == 0 && bitsOf x.toNat 69 3 == 0 && decide (bitsOf x.toNat 66 3 < 3) && !(x.getLsbD 56 && x.getLsbD 63)

/-- The swizzle of a byte offset (R187). -/
def swizzle (swz off : Nat) : Nat :=
  match swz with
  | 1 => off ^^^ (bitsOf off 7 3 * 2 ^ 4)
  | 2 => off ^^^ (bitsOf off 8 3 * 2 ^ 5)
  | _ => off

/-- What an index comes to (R187). -/
inductive Indexed where
  | dropped
  | at (a : Nat)
  | bad (cause : Nat) (a : Nat)
  deriving DecidableEq, Repr

/-- The address of an element, with the alignment asked for; `clamp` says whether CLAMP drops an index out of extent
(R187).  A fabric address keeps its RANK and WINDOW: a carry out of OFFSET is a bounds cause, as the change of bit 56 is (R328;
notes/assumptions/45). -/
def Buf.index (b : Buf) (clamp : Bool) (align i : Nat) : Indexed :=
  if b.extent ≤ i then
    if clamp then .dropped else .bad causeBounds ((b.base + i * b.stride) % 2 ^ 64)
  else
    let a := b.base + swizzle b.swz (i * b.stride)
    if 2 ^ 57 ≤ a ∨ bitsOf a 56 1 ≠ bitsOf b.base 56 1 ∨ (b.fab ∧ a / 2 ^ 35 ≠ b.base / 2 ^ 35) then .bad causeBounds (a % 2 ^ 64)
    else if a % align ≠ 0 then .bad causeMisaligned a
    else .at a

/-- A cause of one lane (R55). -/
structure LaneFault where
  lane : Nat
  cause : Nat
  addr : Addr
  index : Nat
  granule : Option Nat
  deriving DecidableEq, Repr

/-- The lanes of a list of lane faults that satisfy a test. -/
def faultLanes (l : List LaneFault) (p : LaneFault → Bool) : LaneMask :=
  maskOf fun n => l.any fun x => x.lane == n && p x

/-- The cause of the lowest lane of a list. -/
def lowestOf : List LaneFault → Option LaneFault
  | [] => none
  | x :: xs => match lowestOf xs with
    | none => some x
    | some y => if y.lane < x.lane then some y else some x

/-- Merge the causes of several lanes (R55): the lowest code and its lanes, the other lanes with their lowest code, and
the address of the lowest lane with that code.  INFO holds the element index when the cause is bounds (R56). -/
def mergeFaults (l : List LaneFault) (read write : Bool) : FaultInfo :=
  let c := leastOf (l.map (·.cause))
  let rest := l.filter fun x => x.cause != c
  match lowestOf (l.filter fun x => x.cause == c) with
  | none => { cause := c, lanes := 0 }
  | some x =>
    { cause := c, lanes := faultLanes l fun y => y.cause == c, other := faultLanes l fun y => y.cause != c,
      ocause := leastOf (rest.map (·.cause)), addr := x.addr,
      info := if c = causeBounds then BitVec.ofNat 32 x.index else 0, granule := x.granule, read := read, write := write }

/-- The index operand of a memory word: per lane a register, or a uniform register (R187, R222). -/
def View.indexAt (v : View) (u : BitVec 1) (a : BitVec 7) (n : Nat) : Nat :=
  if u == 1 then (loWord (v.w.sreg a.toNat)).toNat else ((v.w.vreg a.toNat).get n).toNat

/-- The register of an index operand. -/
def indexReg (u : BitVec 1) (a : BitVec 7) : Reg := if u == 1 then .s a.toNat else .v a.toNat

/-- Is the context of the issuing warp privileged (R188)? -/
def State.privileged (s : State) (ctx : Nat) : Bool := ((Tab.lookup ctx s.ctxs).map (·.privileged)).getD false

/-! ## The on-chip map -/

/-- Storage that a map address names (R193). -/
inductive Chip where
  | spad (crew off : Nat)
  | acc (crew quad tile row col : Nat)
  | reg (warp reg lane : Nat)
  deriving DecidableEq, Repr

/-- What a map address comes to (R35, R193): storage, a stall, or a cause. -/
inductive MapAnswer where
  | chip (c : Chip)
  | stall
  | bad (cause : Nat)
  deriving DecidableEq, Repr

/-- Is the address a map address (R193)? -/
def isMap (a : Nat) : Bool := bitsOf a 56 1 == 1

/-- The shape of a launch (R37). -/
def Launch.warps (l : Launch) : Nat := bitsOf (l.words.getD 1 0).toNat 26 6
def Launch.lanes (l : Launch) : Nat := bitsOf (l.words.getD 1 0).toNat 21 5 + 1
def Launch.regs (l : Launch) : Nat := 16 + 8 * bitsOf (l.words.getD 1 0).toNat 17 4
def Launch.spad (l : Launch) : Nat := bitsOf (l.words.getD 1 0).toNat 11 6
def Launch.crews (l : Launch) : Nat := bitsOf (l.words.getD 1 0).toNat 6 5 + 1
def Launch.groups (l : Launch) : Nat := bitsOf (l.words.getD 2 0).toNat 16 16 + 1
def Launch.row0 (l : Launch) : Nat := bitsOf (l.words.getD 2 0).toNat 0 16
def Launch.fgroup (l : Launch) : Nat := bitsOf (l.words.getD 3 0).toNat 20 12
def Launch.nureg (l : Launch) : Nat := bitsOf (l.words.getD 3 0).toNat 14 6
def Launch.nbrec (l : Launch) : Nat := bitsOf (l.words.getD 3 0).toNat 9 5
def Launch.long (l : Launch) (i : Nat) : Nat := (l.words.getD i 0).toNat + 2 ^ 32 * (l.words.getD (i + 1) 0).toNat
def Launch.entry (l : Launch) : Nat := l.long 4
def Launch.uregAt (l : Launch) : Nat := l.long 6
def Launch.brecAt (l : Launch) : Nat := l.long 8
def Launch.dep (l : Launch) : Nat := l.long 10
def Launch.phase (l : Launch) : Nat := bitsOf (l.words.getD 12 0).toNat 16 16
def Launch.done (l : Launch) : Nat := l.long 14
def Launch.queue (l : Launch) : Nat := bitsOf (l.words.getD 0 0).toNat 8 8

/-- Has the launch ended (R39)? -/
def Launch.ended (l : Launch) : Bool := decide (3 ≤ l.status)

/-- Does a launch name a crew of these coordinates (R38)? -/
def Launch.names (l : Launch) (row col : Nat) : Bool :=
  decide (col < l.crews) && (List.range l.groups).any fun g => (l.row0 + g) % 65536 == row

/-- Are two crews of one drift-group? -/
def Crew.sameGroup (a b : Crew) : Bool := a.launch == b.launch && a.group == b.group

/-- Have all crews of a crew's drift-group exited? -/
def State.groupGone (s : State) (c : Crew) : Bool :=
  match Tab.lookup c.launch s.launches with
  | none => true
  | some l =>
    let mine := s.crews.filter fun e => e.2.sameGroup c
    mine.length == l.crews && mine.all fun e => e.2.state == .exited

/-- Has a warp exited: is every lane of it (R35)? -/
def Warp.exited (w : Warp) : Bool := w.retired || w.slices.all Slice.finished

/-- The place within the space of a crew (R193).  A window that a `closew` lets take nothing more is closed but for the accesses
that had reached it, which are `late` (R243). -/
def State.placeIn (s : State) (k : Nat) (c : Crew) (late : Bool) (space off : Nat) : MapAnswer :=
  match space with
  | 0 => if off < 16384 * c.spadMacros then .chip (.spad k off) else .bad causeCoordinate
  | 1 =>
    if c.spadMacros = 0 ∨ 262144 ≤ off then .bad causeCoordinate
    else .chip (.acc k (off / 65536) (bitsOf off 13 3) (bitsOf off 7 6) (bitsOf off 2 5))
  | 2 =>
    if 64 ≤ off / 16384 then .bad causeCoordinate else
    let wk := 64 * k + off / 16384
    match Tab.lookup wk s.warps with
    | none => .bad causeCoordinate
    | some w =>
      if w.nregs ≤ bitsOf off 7 7 then .bad causeCoordinate
      else if w.exited || !w.window || (w.closing && !late) then .bad causeWindow
      else if w.evicted then .stall
      else .chip (.reg wk (bitsOf off 7 7) (bitsOf off 2 5))
  | _ => .bad causeCoordinate

/-- The crew, not of the issuing crew's own group, that coordinates name in a context.  Where several launches hold crews of one
row and column, the spec does not say which: the model's choice is the one that started first, even when it has exited
(notes/assumptions/42). -/
def State.crewAt (s : State) (ctx row col : Nat) : Option (Nat × Crew) :=
  s.crews.find? fun e => e.2.ctx == ctx && e.2.row == row && e.2.col == col && !s.groupGone e.2

/-- Where an address leads at a crew of the issuing crew's group (R35, R65). -/
def State.ownPlace (s : State) (k : Nat) (c : Crew) (late : Bool) (space off : Nat) : MapAnswer :=
  match c.state with
  | .resident => s.placeIn k c late space off
  | .evicted => .stall
  | .exited => if space ≠ 2 ∧ c.image.isSome then .stall else s.placeIn k c late space off

/-- Where an address leads when its coordinates name no crew of the context: to a register window of another context whose crew
stands there, if Headframe permits it (R243, R374), and nowhere else; of several the first (notes/assumptions/45). -/
def State.foreignPlace (s : State) (ctx row col : Nat) (late : Bool) (space off : Nat) : MapAnswer :=
  match s.crews.find? fun e => e.2.ctx != ctx && e.2.row == row && e.2.col == col && Config.windowAllowed ctx e.2.ctx with
  | some (k, c) =>
    if space ≠ 2 then .bad causeCoordinate
    else if c.state == .evicted then .stall
    else s.placeIn k c late space off
  | none => .bad causeCoordinate

/-- Where a map address leads for a crew (R35, R65, R193): a member of its own group that has not started stalls the access. -/
def State.mapTarget (s : State) (me : Crew) (late : Bool) (a : Nat) : MapAnswer :=
  let row := bitsOf a 40 16
  let col := bitsOf a 24 16
  let space := bitsOf a 21 3
  let off := bitsOf a 0 21
  let mine := row == me.row && ((Tab.lookup me.launch s.launches).map fun l => decide (col < l.crews)).getD false
  if 3 ≤ space then .bad causeCoordinate
  else if mine then
    match s.crews.find? fun e => e.2.sameGroup me && e.2.col == col with
    | some (k, c) => s.ownPlace k c late space off
    | none => .stall
  else
    match s.crewAt me.ctx row col with
    | some (k, c) => if c.state == .resident then s.placeIn k c late space off else .bad causeRemote
    | none =>
      if s.launches.any fun e => e.2.ctx == me.ctx && !e.2.ended && e.2.names row col then .bad causeRemote
      else if s.crews.any fun e => e.2.ctx == me.ctx && e.2.row == row && e.2.col == col then .bad causeRemote
      else s.foreignPlace me.ctx row col late space off

/-- Does a range of `n` bytes of a crew's scratchpad meet an armed macro (R194, R277)? -/
def Crew.armedAt (c : Crew) (off n : Nat) : Bool :=
  c.macros.any fun e => decide (off < 16384 * (e.1 + 1) ∧ 16384 * e.1 < off + n)

/-- Is a store to this storage one to an armed range? -/
def State.chipArmed (s : State) (n : Nat) : Chip → Bool
  | .spad k off => ((Tab.lookup k s.crews).map fun c => c.armedAt off n).getD false
  | _ => false

/-! ## Accumulator tiles (R274, R278) -/

/-- The accumulator tile that a crew starts with: +0.0, SPATIAL, empty (R274). -/
def Acc.start : Acc := ⟨[], 0, false, true, false⟩

/-- A tile of a quadrant's window. -/
def Crew.tile (c : Crew) (quad t : Nat) : Acc := Tab.get Acc.start c.acc (8 * quad + t)

/-- Does a place of `n` bytes hold uncorrectable data (R71, R295)? -/
def State.chipBad (s : State) (n : Nat) : Chip → Bool
  | .acc k q t _ _ => ((Tab.lookup k s.crews).map fun c => (c.tile q t).bad).getD false
  | .spad k off => ((Tab.lookup k s.crews).map fun c => c.spadBad.any fun g =>
      decide (off < (g + 1) * 2 ^ Config.granuleLog ∧ g * 2 ^ Config.granuleLog < off + n)).getD false
  | .reg k r _ => ((Tab.lookup k s.warps).map fun w => w.bad.contains (.v r)).getD false

/-- The place some bytes further on in the same storage: within a scratchpad; an accumulator tile and a register are one. -/
def Chip.further (n : Nat) : Chip → Chip
  | .spad k off => .spad k (off + n)
  | c => c

/-! ## Lanes -/

/-- One lane's access as far as it has come: dropped by CLAMP, at a place (with its leaf and page when it was
translated), or a soft miss. -/
inductive Reached where
  | dropped
  | soft (a : Nat)
  | mem (a : Nat) (x : Xlat)
  | map (a : Nat)
  | fab (a : Nat)
  deriving DecidableEq, Repr

/-- Follow the access of one lane through R187 to R195: index, privilege of RAW (which stops it before any translation, R188),
map or translation, page type.  `read`
and `write` say what it does at its place, `mapOk` whether it may be a map address, `typeOk` whether the page's type
admits it.  Causes are found in the order of their codes (R55). -/
def State.reach (s : State) (crew : Crew) (b : Buf) (clamp soft : Bool) (align : Nat) (read write mapOk : Bool)
    (typeOk : Nat → Xlat → Bool) (lane i : Nat) : Except LaneFault Reached :=
  let raw := b.raw && !s.privileged crew.ctx
  match b.index clamp align i with
  | .dropped => .ok .dropped
  | .bad c a => .error ⟨lane, c, BitVec.ofNat 64 a, i, none⟩
  | .at a =>
    let va := BitVec.ofNat 64 a
    if b.fab then if raw then .error ⟨lane, causePermission, 0, i, none⟩ else .ok (.fab a)
    else if isMap a then
      if raw then .error ⟨lane, causePermission, 0, i, none⟩
      else if !mapOk then .error ⟨lane, causeType, va, i, none⟩
      else
        match s.mapTarget crew false a with
        | .bad c => .error ⟨lane, c, va, i, none⟩
        | .stall => .ok (.map a)
        | .chip c =>
          if read && s.chipBad b.size c then .error ⟨lane, causeData, va, i, none⟩
          else if write && s.chipArmed b.size c then .error ⟨lane, causeArmed, va, i, none⟩ else .ok (.map a)
    else if raw then .error ⟨lane, causePermission, 0, i, none⟩
    else
      match s.translate crew.ctx crew.core a read write with
      | .error c =>
        if c == causeNotPresent && soft then .ok (.soft a)
        else .error ⟨lane, c, va, i, if pageCause c then some (a / 65536) else none⟩
      | .ok x => if !typeOk a x then .error ⟨lane, causeType, va, i, none⟩ else .ok (.mem a x)

/-- The type that a page has for an access: PLAIN through a RAW record (R195). -/
def Buf.pageType (b : Buf) (x : Xlat) : PageType := if b.raw then .plain else (x.leaf.pageType).getD .plain

/-- The page that a translation reached. -/
def Buf.page (b : Buf) (x : Xlat) : Page := ⟨b.pageType x, x.pa - x.pa % 2 ^ x.log, x.log, x.leaf.w1⟩

/-- The page of places that are no memory. -/
def Page.none : Page := ⟨.plain, 0, 0, 0⟩

/-- The errors and the answers of a list of lanes. -/
def splitLanes {α : Type} (l : List (Nat × Except LaneFault α)) : List LaneFault × List (Nat × α) :=
  (l.filterMap fun e => match e.2 with
    | .error x => some x
    | .ok _ => none,
   l.filterMap fun e => match e.2 with
    | .ok x => some (e.1, x)
    | .error _ => none)

/-- Remember the translations that the lanes of a word took (R191). -/
def State.rememberAll (s : State) (crew : Crew) (l : List (Nat × Reached)) : State :=
  l.foldl (fun s e => match e.2 with
    | .mem a _ => s.remember crew.ctx crew.core a
    | _ => s) s

/-- The line of an access: the 256 bytes that hold its address as formed, whose translation comes afterwards (R189, R191). -/
def Access.line (x : Access) : Nat × Nat :=
  match x.place with
  | .pa _ => (0, x.addr.toNat / 256)
  | .map _ => (1, x.addr.toNat / 256)
  | .fab _ => (2, x.addr.toNat / 256)

/-- Of the lanes that store to one place the highest writes (R189); the list ascends. -/
def highestWrites : List Access → List Access
  | [] => []
  | x :: xs => if xs.any fun y => y.place == x.place then highestWrites xs else x :: highestWrites xs

/-- Put an access into the group of its line; groups stand in ascending order of line (R189). -/
def insertLine (x : Access) : List (List Access) → List (List Access)
  | [] => [[x]]
  | g :: gs =>
    match g with
    | [] => insertLine x gs
    | y :: _ =>
      if x.line == y.line then (g ++ [x]) :: gs
      else if x.line.1 < y.line.1 ∨ (x.line.1 = y.line.1 ∧ x.line.2 < y.line.2) then [x] :: g :: gs
      else g :: insertLine x gs

/-- Group accesses into line requests (R189). -/
def groupLines (l : List Access) : List (List Access) := l.foldl (fun gs x => insertLine x gs) []

/-- The place of a lane that reached memory, the map or the fabric. -/
def Reached.place : Reached → Option Place
  | .mem _ x => some (.pa x.pa)
  | .map a => some (.map (BitVec.ofNat 64 a))
  | .fab a => some (.fab (BitVec.ofNat 64 a))
  | _ => none

/-- Is a lane's page absent under SOFT (R62)? -/
def Reached.isSoft : Reached → Bool
  | .soft _ => true
  | _ => false

/-- Is a lane's index in extent: was it not dropped under CLAMP? -/
def Reached.inExtent (r : Reached) : Bool := r != .dropped

/-- The address that a lane formed. -/
def Reached.addr : Reached → Nat
  | .soft a => a
  | .mem a _ => a
  | .map a => a
  | .fab a => a
  | _ => 0

/-! ## The way to a fabric address (R328 to R332) -/

/-- RANK, WINDOW and OFFSET of a fabric address (R328). -/
def fabRank (a : Addr) : Nat := bitsOf a.toNat 41 15
def fabWindow (a : Addr) : Nat := bitsOf a.toNat 35 6
def fabOffset (a : Addr) : Nat := bitsOf a.toNat 0 35

/-- The refusals of R323. -/
def nackNoMap : Nat := 1
def nackRevoked : Nat := 2
def nackIntegrity : Nat := 3
def nackNoReply : Nat := 4

/-- The module to which a packet of request `id` for a rank goes: under the newest entry, or under the one before it
when the request is older and has not been sent again (R331, R332).  A context's own rank is at this module unless an
entry says otherwise. -/
def State.routeOf (s : State) (ctx rank id : Nat) : Option (Nat × Nat) :=
  match Tab.lookup ctx s.ctxs with
  | none => none
  | some c =>
    match Tab.get [] c.remap rank with
    | [] => if rank = c.rank then some s.fabric.me else none
    | [e] => some (e.field, e.module)
    | e :: f :: _ => if id < f.since && !f.drained then some (e.field, e.module) else some (f.field, f.module)

/-- Is a place at a fabric address in another module? -/
def State.remote (s : State) (ctx id : Nat) (a : Addr) : Bool :=
  match s.routeOf ctx (fabRank a) id with
  | some m => m != s.fabric.me
  | none => false

/-- The virtual address that a window offset stands for here, or the refusal of stage 3 (R329, R330). -/
def State.windowAt (s : State) (ctx window off n : Nat) (read write : Bool) : Except Nat Nat :=
  match (Tab.lookup ctx s.ctxs).bind fun c => Tab.lookup window c.windows with
  | none => .error nackNoMap
  | some w =>
    if w.revoked then .error nackRevoked
    else if 2 ^ w.log < off + n || (read && !w.rd) || (write && !w.wr) then .error nackNoMap
    else .ok (w.base + off)

/-- A target page's answer to a fabric access: its translation, or the cause and the refusal code that a record shows
(R330): a page that is not present counts as NOMAP. -/
def State.fabPage (s : State) (ctx window off n : Nat) (read write : Bool) : Except (Nat × Nat) (Nat × Xlat) :=
  match s.windowAt ctx window off n read write with
  | .error c => .error (causeNotPresent, c)
  | .ok va =>
    match s.walkCtx ctx va with
    | none => .error (causeNotPresent, nackNoMap)
    | some x =>
      match (if s.keyOk ctx x.leaf.key then x.cause read write else some causePermission) with
      | some c => .error (c, nackNoMap)
      | none => .ok (va, x)

/-- The page that an access of this module's contexts to a fabric address reaches here (R330): a rank without an entry is refused
before any window is looked up. -/
def State.fabAt (s : State) (ctx id : Nat) (a : Addr) (off n : Nat) (read write : Bool) : Except (Nat × Nat) (Nat × Xlat) :=
  match s.routeOf ctx (fabRank a) id with
  | none => .error (causeNotPresent, nackNoMap)
  | some _ => s.fabPage ctx (fabWindow a) (fabOffset a + off) n read write

/-- A page that a window offset stands for though the window may have been revoked since its port accepted the access (R326,
R330). -/
def State.acceptedAt (s : State) (ctx : Nat) (a : Addr) : Option Nat :=
  ((Tab.lookup ctx s.ctxs).bind fun c => Tab.lookup (fabWindow a) c.windows).bind fun w =>
    (s.walkCtx ctx (w.base + fabOffset a)).map (·.pa)

/-! ## First-level cache (R179, R199) and its use by a core -/

/-- The virtual addresses of a context that translations held by drifts give a physical address (R191). -/
def State.cachedAt (s : State) (ctx pa : Nat) : List Nat :=
  s.tlb.flatMap fun e => e.2.filterMap fun t =>
    let x := s.xlat t.base ⟨t.w0.toNat, t.w1.toNat⟩ t.log
    if t.ctx = ctx ∧ x.pa ≤ pa ∧ pa < x.pa + 2 ^ t.log then some (t.base + (pa - x.pa)) else none

/-- Does a physical address belong to a token region of a context: does a 64 KiB granule of the region map to its frame, in the
table or under a translation that a drift still holds (R70)? -/
def State.paInRegion (s : State) (ctx : Nat) (t : TokenRegion) (pa : Nat) : Bool :=
  ((s.cachedAt ctx pa).any fun va => va / 2 ^ t.log == t.base / 2 ^ t.log) ||
  (List.range (2 ^ (t.log - 16))).any fun i =>
    match s.walkCtx ctx (t.base + 65536 * i) with
    | some y => y.pa / 65536 == pa / 65536
    | none => false

/-- Does a physical address belong to a token region that a core holds (R183, R200)? -/
def State.inHeldRegion (s : State) (core pa : Nat) : Bool :=
  s.ctxs.any fun e => e.2.tokens.any fun t => t.holder == some core && s.paInRegion e.1 t pa

/-- The sector of a core's first-level cache that holds a physical address. -/
def State.sector (s : State) (core pa : Nat) : Option Sector := Tab.lookup (pa / 64) (s.core core).l1

/-- Bytes in a sector. -/
def Sector.read (x : Sector) (o n : Nat) : List (BitVec 8) := (x.bytes.drop o).take n

/-- Overlay bytes at `a` with those of a write at `b`. -/
def overlay (a : Nat) (bs : List (BitVec 8)) (b : Nat) (data : List (BitVec 8)) : List (BitVec 8) :=
  bs.mapIdx fun i x => if b ≤ a + i ∧ a + i < b + data.length then data.getD (a + i - b) x else x

/-- Drop the sectors of a core's first-level cache that satisfy a test. -/
def State.dropSectors (s : State) (core : Nat) (p : Nat → Bool) : State :=
  s.mapCore core fun c => { c with l1 := c.l1.filter fun e => !p (64 * e.1) }

/-- Invalidate the first-level cache but for sectors of token regions that the core holds (R183, R244); a sector with dirty
bytes is one of these. -/
def State.invalidate (s : State) (core : Nat) : State :=
  s.mapCore core fun c => { c with l1 := c.l1.filter fun e => e.2.dirty != 0 || s.inHeldRegion core (64 * e.1) }

/-- The warps that wrote a dirty byte of a sector. -/
def Sector.writersOf (x : Sector) (i : Nat) : List Nat := (x.writers.filter fun e => e.2.getLsbD i).map (·.1)

/-- The dirty bytes of a sector, each with the warps that wrote it. -/
def dirtyBytes (base : Nat) (x : Sector) : List (Nat × BitVec 8 × List Nat) :=
  (List.range 64).filterMap fun i => if x.dirty.getLsbD i then some (base + i, x.bytes.getD i 0, x.writersOf i) else none

/-- Write the dirty bytes of sectors back to their homes, as writes of the warps that made them; the sectors stay valid and clean
(R200, R207, R244).  What a sector with an uncorrectable error held dirty keeps its failing check at the home (R71). -/
def State.writeBack (s : State) (core : Nat) (p : Nat → Bool) : State :=
  let l := (s.core core).l1.filter fun e => p (64 * e.1) && e.2.dirty != 0
  let s1 := (l.flatMap fun e => dirtyBytes (64 * e.1) e.2).foldl (fun s b => s.homeWrites b.2.2 b.1 [b.2.1]) s
  let lost := ((l.filter fun e => e.2.bad).flatMap fun e =>
    (dirtyBytes (64 * e.1) e.2).map fun b => granuleOf b.1).eraseDups
  let s2 := { s1 with bad := s1.bad ++ lost.filter fun g => !s1.bad.contains g }
  let clean := fun (e : Nat × Sector) => if p (64 * e.1) then (e.1, { e.2 with dirty := 0, writers := [] }) else e
  s2.mapCore core fun c => { c with l1 := c.l1.map clean }

/-- The dirty bytes of a core that a warp itself wrote, over bytes of the home (R208). -/
def State.ownDirty (s : State) (core k a : Nat) (bs : List (BitVec 8)) : List (BitVec 8) :=
  bs.mapIdx fun i x =>
    match s.sector core (a + i) with
    | some q => if (Tab.get 0 q.writers k).getLsbD ((a + i) % 64) then q.bytes.getD ((a + i) % 64) x else x
    | none => x

/-- Fill a sector from its home; bytes that are dirty stay (R179, R200).  A sector whose home holds an uncorrectable error is
not filled. -/
def State.fillSector (s : State) (core n : Nat) : State :=
  if s.uncorrectable (64 * n) 64 then s else
  let new := s.bytes (64 * n) 64
  let x : Sector := match Tab.lookup n (s.core core).l1 with
    | some q => { q with bytes := new.mapIdx fun i b => if q.dirty.getLsbD i then q.bytes.getD i b else b, bad := false }
    | none => ⟨new, 0, [], false⟩
  s.mapCore core fun c => { c with l1 := Tab.put n x c.l1 }

/-- Do `n` bytes that a word reads hold an uncorrectable error where it reads them: in the first-level cache when every one is
valid there, else at the home (R71, R179)? -/
def State.readBad (s : State) (core : Nat) (cached : Bool) (a n : Nat) : Bool :=
  match if cached then s.sector core a else none with
  | some q => q.bad
  | none => s.uncorrectable a n

/-- The data-integrity causes that lanes meet as a word issues. -/
def State.dataFaults (s : State) (core : Nat) (cached : Xlat → Bool) (size : Nat) (l : List (Nat × Reached)) : List LaneFault :=
  l.filterMap fun e => match e.2 with
    | .mem a x => if s.readBad core (cached x) x.pa size then some ⟨e.1, causeData, BitVec.ofNat 64 a, 0, none⟩ else none
    | _ => none

end Sys2Proof.Machine
end

