-- ==== Sys2Proof/Machine/Sync.lean ====
section
/-! DEFINITION. Fences, the crew barrier, barrier objects, write tokens, counter waits, buffer records, register
windows and first-level cache maintenance (R183, R205, R207 to R214, R219, R232 to R240, R243, R244). -/

namespace Sys2Proof.Machine

/-! ## Held words -/

/-- The view of a fragment with a clause in progress, whether or not it issues. -/
def State.viewOf (s : State) (k n : Nat) : Option View := ({ s with cur := some (k, n) }).view

/-- The fragment that a request holds at its word. -/
def State.heldBy (s : State) (o : Op) : Option View :=
  match Tab.lookup o.src.warp s.warps with
  | none => none
  | some w =>
    match w.frags.find? fun f => f.waitOp == some o.id with
    | none => none
    | some f => s.viewOf o.src.warp (fragNo f.mask)

/-- A request by its number. -/
def State.op (s : State) (id : Nat) : Option Op := s.ops.find? fun o => o.id == id

/-- Take a request out of the list. -/
def State.dropOp (s : State) (id : Nat) : State := { s with ops := s.ops.filter fun o => o.id != id }

/-- Replace a request. -/
def State.putOp (s : State) (x : Op) : State := { s with ops := s.ops.map fun o => if o.id == x.id then x else o }

/-- The number of the first of the line requests that a load makes (R189). -/
def OpKind.wordNo : OpKind → Option Nat
  | .load w .. | .tile w .. => some w.first
  | _ => none

/-- Take out of the list every request of the word that made a request, when these are parts of one load; else the request. -/
def State.dropWord (s : State) (o : Op) : State :=
  match o.kind.wordNo with
  | some n => { s with ops := s.ops.filter fun x => x.kind.wordNo != some n }
  | none => s.dropOp o.id

/-- The word that a request holds has had its effect: its region ends when `ends`, and its fragment goes on. -/
def State.finishHeld (s : State) (o : Op) (sh : Shape) (ends : Bool) : State :=
  match s.heldBy o with
  | none => s.settleFlags o.src.warp
  | some v => ((s.settle v sh (.done (if ends then s.endRegion v else s))).settleFlags o.src.warp)

/-- The fragment that a late cause of a request belongs to: the one that the request holds, or else one that holds slices of
its word, and of these one that has not ended when there is one. -/
def Warp.fragFor (w : Warp) (o : Op) : Option Frag :=
  match w.frags.find? fun f => f.waitOp == some o.id with
  | some f => some f
  | none => if w.retired then none else
    let fs := w.frags.filter fun f => f.mask &&& o.src.slices != 0
    (fs.find? fun f => f.state != .done).or fs.head?

/-- A cause that was found when a request was performed (R388): the fragment parks at the request's word, with the region that
was open when the word issued, so that the restart makes the word again (R59).  What the fragment has done since stays done, and
a fragment that waits at a `regang` leaves it: the model's choices, where the spec's rules meet (notes/assumptions/43).  One that
has ended parks like any other, so that its warp does not retire, and has ended again when it is woken.  Of a warp that has
retired only the record is written. -/
def State.lateFault (s : State) (o : Op) (x : FaultInfo) : State :=
  match Tab.lookup o.src.warp s.warps with
  | none => s
  | some w =>
    match w.fragFor o with
    | none => (s.postFault o.src.ctx (s.recordOf w { (Frag.start o.src.slices o.src.header o.src.mode) with region := o.src.region } x
        o.src.pos o.src.header o.src.region.isNone 0 false)).settleFlags o.src.warp
    | some f =>
      let n := fragNo f.mask
      let s1 := s.setWarp o.src.warp (w.putFrag n { f with region := o.src.region, gang := none })
      (s1.park o.src.warp n x o.src.pos o.src.header .replay (some o.src.flag) o.src.since).settleFlags o.src.warp

/-! ## Requests -/

/-- The accesses of a request that write. -/
def OpKind.written : OpKind → List Access
  | .skmerge x _ _ _ => [x]
  | k => k.accs

/-- The core of a request. -/
def State.coreOf (s : State) (o : Op) : Nat := ((s.crewOf o).map (·.core)).getD 0

/-! ## Releases and acquires (R209, R210) -/

/-- Has every line that a warp wrote reached DRAM (observer S, R207)? -/
def State.flushedBy (s : State) (k : Nat) : Bool := s.unflushed.all fun e => !e.2.contains k

/-- Has everything been performed that the warp issued before request number `limit`? -/
def State.performed (s : State) (k limit : Nat) : Bool :=
  s.ops.all fun o => !(o.src.warp == k && decide (o.id < limit) && o.kind.relaxed)

/-- May a release take effect: nothing that the warp issued before request number `limit` is still to be performed, and,
with S in the mask, its lines stand in DRAM? -/
def State.released (s : State) (k limit : Nat) (obs : BitVec 6) : Bool :=
  s.performed k limit && (!obs.getLsbD 2 || s.flushedBy k)

/-- The effect of a release on the core: dirty words of held token regions go home (R200). -/
def State.releaseCore (s : State) (core : Nat) : State := s.writeBack core fun _ => true

/-- A release of a warp on its way: once its writes are performed, the core's dirty words go home; then it has what it waits for
or it does not (R200, R207, R209). -/
def State.releaseAt (s : State) (core k limit : Nat) (obs : BitVec 6) : State × Bool :=
  let t := if s.performed k limit then s.releaseCore core else s
  (t, t.released k limit obs)

/-- Have the loads that the warp issued before request number `limit` completed (R183)? -/
def State.loadsDone (s : State) (k limit : Nat) : Bool :=
  s.ops.all fun o => !(o.src.warp == k && decide (o.id < limit) && o.kind.isLoad)

/-- What the fence, the `ld.acq` or the `bar` at which a fragment is held orders: the classes of its mask, and whether it
releases. -/
def Frag.fence (f : Frag) : Option (BitVec 6 × Bool) :=
  let obs := f.word.extractLsb' 5 6
  if f.waitOp.isNone then none
  else match majorOf f.word with
    | 0x3A => some (obs, false)
    | 0x3C => some (obs, subOf f.word != 0)
    | 0x3D => if subOf f.word == 0 then some (0x20, true) else none
    | _ => none

/-- The class of the observer beyond this module that stands behind a place (R210, R346): peers and host behind the fabric, the host
behind a frame of its memory, which the host's port serves; none behind the module's own storage. -/
def Place.beyond : Place → BitVec 6
  | .fab _ => 0x03
  | .pa a => if Config.hostMemory (frameOf a) then 0x01 else 0
  | .map _ => 0

/-- The classes of observers whose path a request takes (R210): cores, copy engines, matrix engines, stope units, peers and
host; none for what is no access. -/
def OpKind.path (k : OpKind) : BitVec 6 :=
  let beyond := fun (l : List Place) => l.foldl (fun m p => m ||| p.beyond) 0
  match k with
  | .load .. | .store .. | .fp4s .. | .tile .. | .insert .. | .query .. | .skinit .. | .skmerge .. | .skfold .. | .atomic .. |
    .abar .. =>
    if k.accs.any fun x => match x.place with
      | .fab _ => true
      | _ => false then 0x03 else 0x20 ||| beyond (k.accs.map (·.place))
  | .prefetch l => 0x20 ||| beyond (l.map fun n => .pa (64 * n))
  | .copy fb _ _ rows => (if fb then 0x13 else 0x10) ||| beyond (rows.flatMap fun r => [r.dst, r.src])
  | .gred _ _ _ _ l _ => 0x10 ||| beyond (l.map (·.place))
  | .arm .. | .disarm .. | .drain => 0x08
  | .stopeLoad .. | .stopeRun .. => 0x04
  | .mcst .. | .coll .. | .grpchg .. => 0x03
  | .result .. | .resort .. | .tokenRelease .. | .tokenAcquire .. | .closeWindow | .pageRequest .. | .sys .. => 0

/-- Must something that a warp issued as number `id`, on a path, wait for a fence at which another fragment of the warp is held
(R209, R210)?  A release holds back every effect but a load's, and the loads of its classes' paths. -/
def State.fencedAt (s : State) (k id : Nat) (load : Bool) (path : BitVec 6) : Bool :=
  ((Tab.lookup k s.warps).map fun w => w.frags.any fun f =>
    match f.waitOp, f.fence with
    | some n, some (obs, rel) => decide (n < id) && path != 0 && ((rel && !load) || obs &&& path != 0)
    | _, _ => false).getD false

/-- Must a request wait for such a fence? -/
def State.fenced (s : State) (o : Op) : Bool := s.fencedAt o.src.warp o.id o.kind.isLoad o.kind.path

/-- Has every access of the warp been performed that had completed when a request issued (R181), and holds no fence it back? -/
def State.ordered (s : State) (o : Op) : Bool :=
  !s.fenced o && s.ops.all fun x =>
    !(x.src.warp == o.src.warp && x.completed && x.kind.relaxed && decide (x.id < o.id ∧ x.doneAt ≤ o.id))

/-- The effect of an acquire on the core (R210): C invalidates the first-level cache, M discards the operand stage. -/
def State.acquire (s : State) (core : Nat) (obs : BitVec 6) : State :=
  let s1 := if obs.getLsbD 5 then s.invalidate core else s
  if obs.getLsbD 3 then s1.mapCore core fun c => { c with stage := [] } else s1

/-- The number that bounds what a held word waits for: fixed when it first issued. -/
def View.limit (v : View) (s : State) : Nat := v.f.waitOp.getD s.nextId

/-- Hold at a word.  When it first issues it takes a number, which no request has, and which bounds what it waits for.  A fragment in
a handler takes the state of the hold, where one that waits between clauses keeps TRAPPED: R27 does not order the two, and this is
the model's choice (notes/assumptions/42). -/
def View.holdAt (v : View) (s : State) (st : FragState) : Res :=
  if v.f.waitOp.isSome then .hold s st
  else .hold ({ s with nextId := s.nextId + 1 }.mapFrag v.key v.no fun f => { f with waitOp := some s.nextId }) st

/-- Hold until a release of the issuing warp takes effect, and then go on with what it came to. -/
def View.afterRelease (v : View) (s : State) (obs : BitVec 6) (st : FragState) (go : State → Res) : Res :=
  match s.releaseAt v.crew.core v.key (v.limit s) obs with
  | (t, true) => go t
  | (t, false) => v.holdAt t st

/-- `fence.acq` (R183, R232). -/
def execFenceAcq (o : BitVec 6) (s : State) : Host.Outcome State Fault Refusal :=
  issueWord (fun _ => { ok := o != 0 }) (fun v s =>
    if s.loadsDone v.key (v.limit s) then .done (s.acquire v.crew.core o) else v.holdAt s .held) s

/-- `fence.rel` (R209, R232). -/
def execFenceRel (o : BitVec 6) (s : State) : Host.Outcome State Fault Refusal :=
  issueWord (fun _ => { ok := o != 0 }) (fun v s => v.afterRelease s o .held fun t => .done t) s

/-- `fence.ar` (R210, R232). -/
def execFenceAr (o : BitVec 6) (s : State) : Host.Outcome State Fault Refusal :=
  issueWord (fun _ => { ok := o != 0 }) (fun v s => v.afterRelease s o .held fun t => .done (t.acquire v.crew.core o)) s

/-! ## The crew barrier (R214, R234) -/

/-- The word of `bar`. -/
def barWord : Word := 0x7A000000

/-- Is a `disarm` that a warp issued before request number `limit` still to take effect? -/
def State.disarmsLeft (s : State) (k limit : Nat) : Bool :=
  s.ops.any fun o => o.src.warp == k && decide (o.id < limit) && match o.kind with
    | .disarm .. => true
    | _ => false

/-- `bar` (R234): a release with C, then the wait for the crew; the fragment is in state BARRIER from the start (R223).  It waits for
the `disarm` words of its warp too, behind which other warps store (R218). -/
def execBar (s : State) : Host.Outcome State Fault Refusal :=
  issueWord (fun v => { long := true, ok := modeGuard v.f.mode == 0 }) (fun v s =>
    if s.disarmsLeft v.key (v.limit s) then v.holdAt s .barrier
    else v.afterRelease s 0x20 .barrier fun t => .hold (t.mapFrag v.key v.no fun f => { f with waitOp := none }) .barrier) s

/-- Is a fragment held at a `bar` whose release has taken effect? -/
def Frag.atBar (f : Frag) : Bool := f.state == .barrier && f.waitOp.isNone && f.clause.isSome && f.word == barWord

/-- BAR_COMPLETION: every unfinished fragment of every unfinished warp of the crew is held at a `bar`; all go on. -/
def execBarCompletion (crew : Nat) (s : State) : Host.Outcome State Fault Refusal :=
  let ws := s.warps.filter fun e => e.2.crew == crew && !e.2.retired && e.2.slices.any fun x => !x.finished
  let ready := !ws.isEmpty && ws.all fun e => e.2.frags.all fun f => f.state == .done || f.atBar
  .next (if !ready then s else
    ws.foldl (fun s e => e.2.frags.foldl (fun s f =>
      match s.viewOf e.1 (fragNo f.mask) with
      | some v => if f.atBar then s.settle v { long := true } (.done (s.endRegion v)) else s
      | none => s) s) s)

/-! ## Barrier objects (R235 to R237) -/

/-- A barrier object (R235). -/
structure Abar where
  expect : Nat
  arrived : Nat
  phase : Nat
  gen : Nat
  base : Nat
  low2 : Nat
  tag : Nat
  low3 : Nat
  deriving DecidableEq, Repr

/-- The object in sixteen bytes. -/
def abarOf (bs : List (BitVec 8)) : Abar :=
  let x := leNat bs
  ⟨bitsOf x 16 16, bitsOf x 0 16, bitsOf x 48 16, bitsOf x 32 16, bitsOf x 80 16, bitsOf x 64 16, bitsOf x 112 16,
    bitsOf x 96 16⟩

/-- The sixteen bytes of an object. -/
def Abar.bytes (a : Abar) : List (BitVec 8) :=
  leBytes (a.arrived + 2 ^ 16 * a.expect + 2 ^ 32 * a.gen + 2 ^ 48 * a.phase + 2 ^ 64 * a.low2 + 2 ^ 80 * a.base +
    2 ^ 96 * a.low3 + 2 ^ 112 * a.tag) 16

/-- The TAG of a barrier object. -/
def abarTag : Nat := 0xB0B1

/-- `Complete(w)` (R236). -/
def Abar.complete (a : Abar) (w : Bool) : Abar :=
  if a.expect ≤ a.arrived ∧ (0 < a.expect ∨ w) then
    { a with phase := (a.phase + 1) % 65536, arrived := 0, expect := a.base }
  else a

/-- `abar.init` (R236). -/
def abarInit (v : Nat) : Abar := ⟨bitsOf v 0 16, 0, bitsOf v 16 16, 0, bitsOf v 0 16, 0, abarTag, 0⟩

/-- `abar.arr` (R236). -/
def Abar.arrive (a : Abar) (v : Nat) : Abar :=
  ({ a with arrived := Nat.min (a.arrived + bitsOf v 0 16) 65535 }).complete false

/-- `abar.wd` (R236). -/
def Abar.withdraw (a : Abar) (v : Nat) : Abar :=
  let a := { a with gen := (a.gen + 1) % 65536, base := a.base - 1 }
  if bitsOf v 16 1 = 1 ∧ bitsOf v 0 16 = a.phase then a
  else ({ a with expect := a.expect - 1 }).complete true

/-- Has the phase reached a number (R42, R236)? -/
def Abar.reached (a : Abar) (v : Nat) : Bool := decide ((a.phase + 65536 - bitsOf v 0 16) % 65536 < 32768)

/-- The address of a word that names one place through a uniform index: bounds even under CLAMP (R236, R238). -/
def View.uniformReach (v : View) (s : State) (b : Buf) (align : Nat) (read write : Bool) (type : PageType) (i : Nat) :
    Except FaultInfo Reached :=
  match s.reach v.crew b false false align read write false (fun _ x => b.pageType x == type) 0 i with
  | .ok r => .ok r
  | .error x =>
    .error { cause := x.cause, lanes := v.act, addr := x.addr,
             info := if x.cause = causeBounds then BitVec.ofNat 32 i else 0, granule := x.granule,
             read := read, write := write }

/-- A barrier form (R236): value checks at issue, one address, PLAIN pages only.  It ends the region (R58), and `abar.wait` holds
until it observes its phase (R223, R237). -/
def abarWord (form : AbarForm) (d a : BitVec 7) (b : BitVec 4) : State → Host.Outcome State Fault Refusal :=
  issueWord (fun v =>
    { reads := [.s d.toNat, .s a.toNat, .b b.toNat], long := true,
      ok := !(form == .init || form == .arr) || (v.w.sreg d.toNat).toNat % 65536 != 0 }) fun v s =>
    if v.f.waitOp.isSome then .hold s v.f.state else
    let buf := bufOf (v.w.breg b.toNat)
    let i := (loWord (v.w.sreg a.toNat)).toNat
    match v.uniformReach s buf 16 (form != .init) (form != .wait) .plain i with
    | .error x => .fault s x
    | .ok r =>
      let go := fun (p : Place) =>
        let s1 := (s.rememberAll v.crew [(0, r)]).addOp v.src
          (.abar form (loWord (v.w.sreg d.toNat)) ⟨0, BitVec.ofNat 64 r.addr, p, 16, if buf.fab && buf.raw then [1] else [], none⟩) true
          false
        if form == .wait then Res.hold (s1.mapFrag v.key v.no fun f => { f with waitOp := some s.nextId }) .barrier
        else .done (s1.endRegion v)
      match r with
      | .mem _ x => go (.pa x.pa)
      | .fab x => go (.fab (BitVec.ofNat 64 x))
      | _ => .done s

/-- `abar.init [bN, sK], sV` (R236). -/
def execAbarInit (d a : BitVec 7) (b : BitVec 4) (s : State) : Host.Outcome State Fault Refusal := abarWord .init d a b s
/-- `abar.arr [bN, sK], sV` (R236). -/
def execAbarArr (d a : BitVec 7) (b : BitVec 4) (s : State) : Host.Outcome State Fault Refusal := abarWord .arr d a b s
/-- `abar.wait [bN, sK], sV` (R236). -/
def execAbarWait (d a : BitVec 7) (b : BitVec 4) (s : State) : Host.Outcome State Fault Refusal := abarWord .wait d a b s
/-- `abar.wd [bN, sK], sV` (R236). -/
def execAbarWd (d a : BitVec 7) (b : BitVec 4) (s : State) : Host.Outcome State Fault Refusal := abarWord .wd d a b s

/-- The effect of a form on an object: none when TAG fails the test (R388); otherwise the bytes to write, if any, and
whether the word is finished. -/
def abarEffect (form : AbarForm) (v : Nat) (old : Abar) : Option (Option Abar × Bool) :=
  match form with
  | .init => some (some (abarInit v), true)
  | .arr => if old.tag = abarTag then some (some (old.arrive v), true) else none
  | .wd => if old.tag = abarTag then some (some (old.withdraw v), true) else none
  | .wait => if old.tag = abarTag then some (none, old.reached v) else none

/-- Perform a barrier form on an object in this module's memory, at its home. -/
def State.performAbar (s : State) (o : Op) (form : AbarForm) (value : Word) (acc : Access) (pa : Nat) : State :=
  if form != .init && s.uncorrectable pa 16 then
    (s.dropOp o.id).lateFault o { cause := causeData, lanes := o.src.lanes, addr := acc.addr } else
  match abarEffect form value.toNat (abarOf (s.bytes pa 16)) with
  | none => (s.dropOp o.id).lateFault o { cause := causeType, lanes := o.src.lanes, addr := acc.addr }
  | some (x, fin) =>
    let s1 := match x with
      | some a => s.homeWrite o.src.warp pa a.bytes
      | none => s
    if fin then (s1.dropOp o.id).finishHeld o { long := true } true
    else s1.putOp { o with granted := false }

/-- ABAR_PERFORM: a barrier form is performed at the home of its object; `abar.arr` after its release (R237). -/
def execAbarPerform (op : Nat) (s : State) : Host.Outcome State Fault Refusal :=
  .next (match s.op op with
    | none => s
    | some o =>
      match o.kind with
      | .abar form value acc =>
        match acc.place with
        | .pa pa =>
          let r := if form == .arr then s.releaseAt (s.coreOf o) o.src.warp o.id 0x20 else (s, true)
          if !r.2 || !o.granted || !r.1.ordered o then r.1
          else r.1.performAbar o form value acc pa
        | _ => s
      | _ => s)

/-- ABAR_WAIT_SATISFIED: a waiting `abar.wait` observes the phase it waits for (R237). -/
def execAbarWaitSatisfied (op : Nat) (s : State) : Host.Outcome State Fault Refusal :=
  .next (match s.op op with
    | none => s
    | some o =>
      match o.kind with
      | .abar .wait value acc =>
        match acc.place with
        | .pa pa => if o.granted then s else s.performAbar o .wait value acc pa
        | _ => s
      | _ => s)

/-! ## Write tokens (R205, R219, R238) -/

/-- The number of the token region of a context that holds an address. -/
def State.tokenNo (s : State) (ctx va : Nat) : Option Nat :=
  ((Tab.lookup ctx s.ctxs).map fun c => c.tokens.findIdx? fun t => va / 2 ^ t.log == t.base / 2 ^ t.log).getD none

/-- A token region by number. -/
def State.tokenRegion (s : State) (ctx r : Nat) : Option TokenRegion :=
  ((Tab.lookup ctx s.ctxs).map fun c => c.tokens[r]?).getD none

/-- Change a token region. -/
def State.mapToken (s : State) (ctx r : Nat) (g : TokenRegion → TokenRegion) : State :=
  s.mapCtx ctx fun c => { c with tokens := c.tokens.mapIdx fun i t => if i = r then g t else t }

/-- The writes into memory that a core has issued for a context before request number `limit` and that are still to be performed,
request by request: of its requests, and of its crews' matrix engines (R205, R309). -/
def State.coreWrites (s : State) (ctx core limit : Nat) : List (List Access) :=
  let there := fun (l : List Access) => l.filter fun a => match a.place with
    | .pa _ => true
    | _ => false
  (s.ops.filter fun o => o.src.ctx == ctx && s.coreOf o == core && decide (o.id < limit) && o.kind.relaxed && !o.kind.isLoad).map
    (fun o => there o.kind.written) ++
  (s.crews.filter fun e => e.2.ctx == ctx && e.2.core == core).flatMap fun e => e.2.engine.filterMap fun m => match m.kind with
    | .cst rows => if m.id < limit ∧ !m.done then some (there ((rows.filter fun r => r.left != 0).map (·.acc))) else none
    | _ => none

/-- Does an access lie in a region? -/
def TokenRegion.has (t : TokenRegion) (a : Access) : Bool := a.addr.toNat / 2 ^ t.log == t.base / 2 ^ t.log

/-- Must the holder of a region's token wait before it gives the token up: is a write into the region that it issued before request
number `limit` still to be performed (R205)?  Where another core asks for the token, a write that itself waits for the token of
another region does not keep it: the model's choice, without which two cores could wait for each other (notes/assumptions/44). -/
def State.regionBusy (s : State) (ctx core : Nat) (t : TokenRegion) (limit : Nat) (asked : Bool) : Bool :=
  let stuck := fun (l : List Access) => asked && ((Tab.lookup ctx s.ctxs).any fun c => c.tokens.any fun u =>
    u.base != t.base && u.holder != some core && l.any u.has)
  (s.coreWrites ctx core limit).any fun l => l.any t.has && !stuck l

/-- Does a warp still take its turn with the token that it took by `tkacq` (R220): it has not ended or left its core, and not
every fragment of it waits for another warp?  How long the turn lasts is the model's choice (notes/assumptions/44). -/
def State.keeps (s : State) (core k : Nat) : Bool :=
  match Tab.lookup k s.warps with
  | none => false
  | some w =>
    !w.exited && !w.evicted && ((Tab.lookup w.crew s.crews).any fun c => c.core == core && c.state == .resident) &&
      w.frags.any fun f => !(f.state == .done || f.state == .barrier || (f.state == .held && majorOf f.word == 0x3E))

/-- The token of a region is to leave the core that holds it (R205, R219): from request number `limit` on the core makes no write
under the token, and once those before it have been performed, dirty words go home and the core's sectors of the region are
evicted. -/
def State.passToken (s : State) (ctx r limit : Nat) (asked : Bool) : State :=
  match s.tokenRegion ctx r with
  | none => s
  | some t =>
    match t.holder with
    | none => s
    | some core =>
      let limit := Nat.min limit (t.leaving.getD limit)
      if s.regionBusy ctx core t limit asked then s.mapToken ctx r fun t => { t with leaving := some limit }
      else
        let s1 := s.writeBack core fun pa => s.paInRegion ctx t pa
        (s1.dropSectors core fun pa => s.paInRegion ctx t pa).mapToken ctx r fun t =>
          { t with holder := none, keepers := t.keepers.filter (fun k => !s.keeps core k), leaving := none }

/-- The number under which an agent that waits for nothing stands in a token's queue (R205), and the first of those outside the
cores. -/
def outsider : Nat := 1024

/-- The number under which the agent of a request, of a launch, of a held word or of a queued write stands in a token's queue. -/
def agentOf (id : Nat) : Nat := outsider + 1 + id

/-- Is the write for which an agent outside the cores stands in a queue still to come? -/
def State.agentWaits (s : State) (n : Nat) : Bool :=
  s.ops.any (fun o => agentOf o.id == n) || s.outside.any (fun e => agentOf e.1 == n) ||
    s.launches.any (fun e => agentOf e.1 == n) ||
    s.warps.any fun e => e.2.frags.any fun f => (f.waitOp.map agentOf) == some n

/-- Ask for a token: a core stands once in the queue of at most 64 (R205). -/
def State.askToken (s : State) (ctx r core : Nat) : State :=
  s.mapToken ctx r fun t =>
    if t.asking.contains core || decide (64 ≤ t.asking.length) then t else { t with asking := t.asking ++ [core] }

/-- TOKEN_GRANT: the home grants a free token to the next core that asks (R205, R219). -/
def execTokenGrant (ctx region : Nat) (s : State) : Host.Outcome State Fault Refusal :=
  .next (match s.tokenRegion ctx region with
    | none => s
    | some t =>
      match t.holder, t.asking with
      | none, core :: rest =>
        (s.dropSectors core fun pa => s.paInRegion ctx t pa).mapToken ctx region fun t =>
          { t with holder := some core, asking := rest, leaving := none }
      | _, _ => s)

/-- TOKEN_PASS: the holder gives the token up because another asks (R205): a core once no warp of it is at its turn (R220), another
agent once its write is done or given up. -/
def execTokenPass (ctx region : Nat) (s : State) : Host.Outcome State Fault Refusal :=
  .next (match s.tokenRegion ctx region with
    | none => s
    | some t =>
      match t.asking, t.holder with
      | [], _ | _, none => s
      | _, some n =>
        if outsider ≤ n then if s.agentWaits n then s else s.mapToken ctx region fun t => { t with holder := none }
        else if t.keepers.any (s.keeps n) then s
        else s.passToken ctx region s.nextId true)

/-- The region that a token word names: none outside every region; a map or fabric address raises type-mismatch
(R238).  A word that is held keeps the record and the index that it issued with (R233). -/
def tokenWord (g : View → State → Option Nat → Res) (a : BitVec 7) (b : BitVec 4) :
    State → Host.Outcome State Fault Refusal :=
  issueWord (fun v => if v.f.waitOp.isSome then { long := true } else { reads := [.s a.toNat, .b b.toNat], long := true }) fun v s =>
    if v.f.waitOp.isSome then .hold s v.f.state else
    let buf := bufOf (v.w.breg b.toNat)
    let i := (loWord (v.w.sreg a.toNat)).toNat
    let bad := fun c a => Res.fault s { cause := c, lanes := v.act, addr := a,
                                        info := if c = causeBounds then BitVec.ofNat 32 i else 0 }
    match buf.index false buf.size i with
    | .dropped => .done s
    | .bad c x => bad c (BitVec.ofNat 64 x)
    | .at x =>
      if buf.fab || isMap x then bad causeType (BitVec.ofNat 64 x)
      else g v s (s.tokenNo v.crew.ctx x)

/-- Has a core the token of a region, and is it not to give it up? -/
def TokenRegion.heldBy (t : TokenRegion) (core : Nat) : Bool := t.holder == some core && t.leaving.isNone

/-- `tkacq [bN, sK]` (R238). -/
def execTkacq (a : BitVec 7) (b : BitVec 4) (s : State) : Host.Outcome State Fault Refusal :=
  tokenWord (fun v s r =>
    match r.bind fun r => (s.tokenRegion v.crew.ctx r).map fun t => (r, t) with
    | none => .done (s.endRegion v)
    | some (r, t) =>
      let s1 := s.mapToken v.crew.ctx r fun t => { t with keepers := t.keepers.filter (· != v.key) ++ [v.key] }
      if t.heldBy v.crew.core then .done (s1.endRegion v)
      else
        .hold (((s1.askToken v.crew.ctx r v.crew.core).addOp v.src (.tokenAcquire v.crew.ctx t.base) true false).mapFrag v.key v.no
          fun f => { f with waitOp := some s.nextId }) .held) a b s

/-- A `tkacq` that is held goes on once its core has the token, or once the region is registered no more (R238). -/
def State.tokenArrives (s : State) (o : Op) (ctx base : Nat) : State :=
  let go := (s.dropOp o.id).finishHeld o { long := true } true
  match ((Tab.lookup ctx s.ctxs).bind fun c => c.tokens.findIdx? fun t => t.base == base) with
  | none => go
  | some r => if (s.tokenRegion ctx r).any fun t => t.heldBy (s.coreOf o) then go else s.askToken ctx r (s.coreOf o)

/-- `tkrel [bN, sK]` (R238). -/
def execTkrel (a : BitVec 7) (b : BitVec 4) (s : State) : Host.Outcome State Fault Refusal :=
  tokenWord (fun v s r =>
    match r with
    | none => .done (s.endRegion v)
    | some r =>
      if (s.tokenRegion v.crew.ctx r).any fun t => t.holder == some v.crew.core then
        .done ((s.endRegion v).addOp v.src (.tokenRelease v.crew.ctx r) true false)
      else .done (s.endRegion v)) a b s

/-! ## Counters (R239, R240) -/

/-- The counter of a class: cp, gr, co, st, fb. -/
def Counters.get (c : Counters) (n : Nat) : Nat :=
  match n with
  | 0 => c.cp | 1 => c.gr | 2 => c.co | 3 => c.st | _ => c.fb

/-- Change the counter of a class. -/
def Counters.map (c : Counters) (n : Nat) (g : Nat → Nat) : Counters :=
  match n with
  | 0 => { c with cp := g c.cp } | 1 => { c with gr := g c.gr } | 2 => { c with co := g c.co }
  | 3 => { c with st := g c.st } | _ => { c with fb := g c.fb }

/-- `waitc.class N` (R239). -/
def execWaitc (n : BitVec 7) (c : BitVec 3) (s : State) : Host.Outcome State Fault Refusal :=
  issueWord (fun _ => { ok := decide (c.toNat < 5) })
    (fun v s => if v.w.oc.get c.toNat ≤ n.toNat then .done s else .hold s .held) s

/-- `yieldc.class N, label` (R240). -/
def execYieldc (o : BitVec 14) (n : BitVec 7) (c : BitVec 3) (s : State) : Host.Outcome State Fault Refusal :=
  issueWord (fun _ => { ok := decide (c.toNat < 5) }) (fun v s =>
    if v.w.oc.get c.toNat ≤ n.toNat then .goto s (v.addr + byteOff o) true else .hold s .yielded) s

/-! ## Buffer records (R233) -/

/-- `bset bD, sA` (R233). -/
def execBset (d a : BitVec 7) (s : State) : Host.Outcome State Fault Refusal :=
  issueWord (fun v =>
    { reads := [.s a.toNat, .s (a.toNat + 1)], writes := [.b d.toNat],
      ok := pair a && recordOk (v.w.sreg (a.toNat + 1) ++ v.w.sreg a.toNat) })
    (fun v s => onWarp v s fun w => w.setB d.toNat (v.w.sreg (a.toNat + 1) ++ v.w.sreg a.toNat)) s

/-- `bget sD, bA` (R233). -/
def execBget (d a : BitVec 7) (s : State) : Host.Outcome State Fault Refusal :=
  issueWord (fun _ => { reads := [.b a.toNat], writes := [.s d.toNat, .s (d.toNat + 1)], ok := pair d })
    (fun v s => onWarp v s fun w =>
      (w.setS d.toNat ((v.w.breg a.toNat).extractLsb' 0 64)).setS (d.toNat + 1) ((v.w.breg a.toNat).extractLsb' 64 64)) s

/-! ## Register windows and first-level cache words (R243, R244) -/

/-- `openw` (R243). -/
def execOpenw (s : State) : Host.Outcome State Fault Refusal :=
  issueWord (fun _ => { long := true }) (fun v s => onWarp v s fun w => { w with window := true, closing := false }) s

/-- Has a store that was made before number `limit` been accepted at the register window of a warp and not yet been
performed? -/
def State.windowBusy (s : State) (k limit : Nat) : Bool :=
  s.ops.any fun o => decide (o.id < limit) && o.completed &&
    match o.kind, s.crewOf o with
    | .store _ _ l, some c => l.any fun a =>
        match a.place with
        | .map x =>
          match s.mapTarget c true x.toNat with
          | .chip (.reg wk _ _) => wk == k
          | _ => false
        | _ => false
    | _, _ => false

/-- `closew` (R243): the window takes no further access, and closes when the accesses that reached it before have been
performed. -/
def execClosew (s : State) : Host.Outcome State Fault Refusal :=
  issueWord (fun _ => { long := true }) (fun v s =>
    if v.w.window && s.windowBusy v.key s.nextId then
      .done ((s.mapWarp v.key fun w => { w with closing := true }).addOp v.src .closeWindow true false)
    else onWarp v s fun w => { w with window := false, closing := false }) s

/-- `l1inv` (R244). -/
def execL1inv (s : State) : Host.Outcome State Fault Refusal :=
  issueWord (fun _ => { long := true }) (fun v s => .done (s.invalidate v.crew.core)) s

/-- `l1wb` (R244). -/
def execL1wb (s : State) : Host.Outcome State Fault Refusal :=
  issueWord (fun _ => { long := true }) (fun v s => .done (s.releaseCore v.crew.core)) s

end Sys2Proof.Machine
end

