-- ==== Sys2Proof/Machine/Fp.lean ====
section
/-! DEFINITION. Numbers: the bits of the element types and the values they denote (R139 to R144), `RoundTo` (R147,
R148), conversions (R150), the generator (R93, R151), block scales (R141, R145, R146), sums (R152 to R154, R160). -/

namespace Sys2Proof.Machine

/-! ## Element types -/

/-- The width of an element (R142): 64, 32, 16, 8 or 4 bits. -/
def elemWidth (ty : Nat) : Nat :=
  match ty with
  | 0 | 7 => 64
  | 3 | 4 | 9 | 10 => 16
  | 5 | 6 | 11 | 12 => 8
  | 13 => 4
  | _ => 32

/-- Is an element type a floating type (R73)?  fp4s as E2M1. -/
def isFloat (ty : Nat) : Bool := decide (7 ≤ ty ∧ ty ≤ 13)

/-- Exponent width, mantissa width and bias of a floating type (R139). -/
structure FloatFmt where
  e : Nat
  m : Nat
  bias : Nat
  deriving DecidableEq, Repr

/-- The table of R139. -/
def fmtOf (ty : Nat) : FloatFmt :=
  match ty with
  | 7 => ⟨11, 52, 1023⟩
  | 9 => ⟨8, 7, 127⟩
  | 10 => ⟨5, 10, 15⟩
  | 11 => ⟨4, 3, 7⟩
  | 12 => ⟨5, 2, 15⟩
  | 13 => ⟨2, 1, 1⟩
  | _ => ⟨8, 23, 127⟩

/-- What an encoding denotes: a NaN (its payload below the quiet bit aligned to 51 bits), an infinity, or a number
n ÷ d with a sign (n = 0 is a signed zero). -/
inductive FVal where
  | nan (neg sig : Bool) (payload : Nat)
  | inf (neg : Bool)
  | num (neg : Bool) (n d : Nat)
  deriving DecidableEq, Repr

/-- The number m × 2^(k - j). -/
def scaled (neg : Bool) (m k j : Nat) : FVal :=
  if j ≤ k then .num neg (m * 2 ^ (k - j)) 1 else .num neg m (2 ^ (j - k))

/-- The value of an encoding (R139, R140); with `ftz` a subnormal other than of E2M1 is read as zero (R159). -/
def readFloat (ty : Nat) (ftz : Bool) (bits : Nat) : FVal :=
  let f := fmtOf ty
  let neg := bits.testBit (f.e + f.m)
  let ex := bitsOf bits f.m f.e
  let mn := bitsOf bits 0 f.m
  if ty = 11 ∧ ex = 15 ∧ mn = 7 then .nan neg false 0
  else if ty ≠ 11 ∧ ty ≠ 13 ∧ ex = 2 ^ f.e - 1 then
    if mn = 0 then .inf neg else .nan neg (!mn.testBit (f.m - 1)) (mn % 2 ^ (f.m - 1) * 2 ^ (52 - f.m))
  else if ex = 0 then
    if ftz && ty != 13 then .num neg 0 1 else scaled neg mn 1 (f.m + f.bias)
  else scaled neg (2 ^ f.m + mn) ex (f.m + f.bias)

/-- The value of an integer element. -/
def readInt (ty bits : Nat) : FVal :=
  let x := valueOf (elemWidth ty) (typeSigned ty) bits
  .num (decide (x < 0)) x.natAbs 1

/-- The value of an element. -/
def readElem (ty : Nat) (ftz : Bool) (bits : Nat) : FVal := if isFloat ty then readFloat ty ftz bits else readInt ty bits

def FVal.isNan : FVal → Bool
  | .nan .. => true
  | _ => false

def FVal.isSig : FVal → Bool
  | .nan _ sig _ => sig
  | _ => false

/-- Is the value a zero? -/
def FVal.isZero : FVal → Bool
  | .num _ n _ => n == 0
  | _ => false

def FVal.neg : FVal → Bool
  | .nan s _ _ => s
  | .inf s => s
  | .num s _ _ => s

/-- The value with the other sign. -/
def FVal.flip : FVal → FVal
  | .nan s q p => .nan (!s) q p
  | .inf s => .inf (!s)
  | .num s n d => .num (!s) n d

/-- The bits of a sign in front of a magnitude. -/
def signed (ty : Nat) (neg : Bool) (mag : Nat) : Nat :=
  let f := fmtOf ty
  if neg then 2 ^ (f.e + f.m) + mag else mag

/-- The magnitude bits of infinity, or in fp8e4 of the NaN (R140). -/
def infMag (ty : Nat) : Nat :=
  let f := fmtOf ty
  if ty = 11 then 0x7F else (2 ^ f.e - 1) * 2 ^ f.m

/-- The magnitude bits of the largest finite value (R140). -/
def maxMag (ty : Nat) : Nat := if ty = 13 then 7 else infMag ty - 1

/-- The bits of ±Inf. -/
def infBits (ty : Nat) (neg : Bool) : Nat := signed ty neg (infMag ty)

/-- The default NaN (R140); E2M1, which has none, holds a zero in its place (R148). -/
def defaultNan (ty : Nat) : Nat :=
  if ty = 13 then 0 else if ty = 11 then 0x7F else infMag ty + 2 ^ ((fmtOf ty).m - 1)

/-- A quiet NaN with a sign and payload, in a type that has one (R143). -/
def nanBits (ty : Nat) (neg : Bool) (payload : Nat) : Nat :=
  if ty = 11 then signed 11 neg 0x7F else signed ty neg (defaultNan ty + payload / 2 ^ (52 - (fmtOf ty).m))

/-- The bits of a signed zero. -/
def zeroBits (ty : Nat) (neg : Bool) : Nat := if isFloat ty then signed ty neg 0 else 0

/-! ## Raises -/

def Exc.NV : Exc := { Exc.none with nv := 1 }
def Exc.DZ : Exc := { Exc.none with dz := 1 }
def Exc.SA : Exc := { Exc.none with sa := 1 }
def Exc.NX : Exc := { Exc.none with nx := 1 }
def Exc.UFNX : Exc := { Exc.none with uf := 1, nx := 1 }
/-- OF and NX, and SA when it clamps. -/
def Exc.over (sat : Bool) : Exc := { Exc.none with ov := 1, nx := 1, sa := sat.toNat }
/-- NV when a test holds. -/
def Exc.nvIf (b : Bool) : Exc := if b then Exc.NV else Exc.none

/-! ## RoundTo (R147, R148) -/

/-- What rounding depends on: the mode, SAT, FTZ, and the draw. -/
structure Rnd where
  mode : Nat
  sat : Bool
  ftz : Bool
  g : Nat
  deriving DecidableEq, Repr

/-- Round to nearest even with nothing else (R152 and others). -/
def Rnd.rne : Rnd := ⟨0, false, false, 0⟩

/-- ⌊log₂ (n ÷ d)⌋ of a positive quotient. -/
def floorLog2 (n d : Nat) : Int :=
  let k : Int := (Nat.log2 n : Int) - Nat.log2 d
  if (if 0 ≤ k then d * 2 ^ k.toNat ≤ n else d ≤ n * 2 ^ (-k).toNat) then k else k - 1

/-- Does the quantum count n with remainder `r` of `d` go up (R147)? -/
def roundsUp (r : Rnd) (neg : Bool) (n rem d : Nat) : Bool :=
  match r.mode with
  | 0 => decide (d < 2 * rem ∨ (2 * rem = d ∧ n % 2 = 1))
  | 1 => false
  | 2 => decide (0 < rem) && !neg
  | 3 => decide (0 < rem) && neg
  | 4 => decide (d ≤ 2 * rem)
  | _ => decide (0 < rem ∧ (d - rem) * 2 ^ 32 ≤ r.g * d)

/-- `RoundTo` a floating type of n ÷ d with a sign: bits and raises. -/
def roundFloat (ty : Nat) (r : Rnd) (neg : Bool) (n d : Nat) : Nat × Exc :=
  if n = 0 then (zeroBits ty neg, Exc.none)
  else
    let f := fmtOf ty
    let emin : Int := 1 - (f.bias : Int)
    let fl := floorLog2 n d
    if r.ftz && ty != 13 && decide (fl < emin) then (zeroBits ty neg, Exc.UFNX)
    else
      let qe : Int := (if fl < emin then emin else fl) - f.m
      let num := if 0 ≤ qe then n else n * 2 ^ (-qe).toNat
      let den := if 0 ≤ qe then d * 2 ^ qe.toNat else d
      let q := num / den
      let rem := num % den
      let y := q + (roundsUp r neg q rem den).toNat
      let mag := (qe + f.m - emin).toNat * 2 ^ f.m + y
      if maxMag ty < mag then
        (signed ty neg (if r.sat || ty == 13 then maxMag ty else infMag ty), Exc.over r.sat)
      else
        (signed ty neg mag,
          if rem = 0 then Exc.none else if fl < emin then Exc.UFNX else Exc.NX)

/-- The unsaturated answer of R148 for an integer destination. -/
def intIndefinite (ty : Nat) : Nat := if typeSigned ty then 2 ^ (elemWidth ty - 1) else 2 ^ elemWidth ty - 1

/-- The bits of the nearest end of an integer type's range. -/
def intEnd (ty : Nat) (neg : Bool) : Nat :=
  natOf (elemWidth ty) (if neg then minOf (elemWidth ty) (typeSigned ty) else maxOf (elemWidth ty) (typeSigned ty))

/-- `RoundTo` an integer type. -/
def roundInt (ty : Nat) (r : Rnd) (neg : Bool) (n d : Nat) : Nat × Exc :=
  let q := n / d
  let y := q + (roundsUp r neg q (n % d) d).toNat
  let x : Int := if neg then -(y : Int) else y
  if x < minOf (elemWidth ty) (typeSigned ty) ∨ maxOf (elemWidth ty) (typeSigned ty) < x then
    if r.sat then (intEnd ty neg, { Exc.none with nx := 1, sa := 1 }) else (intIndefinite ty, Exc.NV)
  else (natOf (elemWidth ty) x, if n % d = 0 then Exc.none else Exc.NX)

/-- `RoundTo` a type of a number. -/
def roundNum (ty : Nat) (r : Rnd) (neg : Bool) (n d : Nat) : Nat × Exc :=
  if isFloat ty then roundFloat ty r neg n d else roundInt ty r neg n d

/-- An infinity converted into a destination format (R148). -/
def convertInf (ty : Nat) (sat neg : Bool) : Nat × Exc :=
  if !isFloat ty then if sat then (intEnd ty neg, Exc.SA) else (intIndefinite ty, Exc.NV)
  else if ty = 13 then (signed 13 neg 7, if sat then Exc.SA else Exc.NV)
  else if ty = 11 then if sat then (signed 11 neg 0x7E, Exc.SA) else (signed 11 neg 0x7F, Exc.NV)
  else if ty = 12 then (infBits 12 neg, Exc.none)
  else if sat then (signed ty neg (maxMag ty), Exc.SA) else (infBits ty neg, Exc.none)

/-- A NaN converted into a destination format (R143, R148). -/
def convertNan (ty : Nat) (sat neg sig : Bool) (payload : Nat) : Nat × Exc :=
  if !isFloat ty then if sat then (0, { Exc.none with nv := 1, sa := 1 }) else (intIndefinite ty, Exc.NV)
  else if ty = 13 then (signed 13 neg 0, Exc.NV)
  else (nanBits ty neg payload, Exc.nvIf sig)

/-- `RoundTo` a type of any value (R147, R148). -/
def roundTo (ty : Nat) (r : Rnd) : FVal → Nat × Exc
  | .nan neg sig p => convertNan ty r.sat neg sig p
  | .inf neg => convertInf ty r.sat neg
  | .num neg n d => roundNum ty r neg n d

/-- The bits of a value that its type holds exactly; a NaN is quieted (R143). -/
def exactBits (ty : Nat) (x : FVal) : Nat :=
  match x with
  | .inf s => infBits ty s
  | .nan s _ p => nanBits ty s p
  | .num s n d => (roundNum ty Rnd.rne s n d).1

/-- Conversion of an element from one type to another (R150); into its own type the value is unchanged, an infinity with SAT
too (notes/assumptions/13). -/
def convert (src dst : Nat) (r : Rnd) (bits : Nat) : Nat × Exc :=
  if src = dst ∧ isFloat src then
    let x := readElem src r.ftz bits
    (exactBits src x, Exc.nvIf x.isSig)
  else if isFloat src || isFloat dst then roundTo dst r (readElem src r.ftz bits)
  else
    let x := valueOf (elemWidth src) (typeSigned src) bits
    let y := narrow (elemWidth dst) (typeSigned dst) r.sat x
    (natOf (elemWidth dst) y.1, if y.2 then Exc.SA else Exc.none)

/-! ## The generator (R93) -/

/-- `Gen`. -/
def gen (seed a b c : Word) : Word :=
  let x := seed ^^^ (a * 0x9E3779B9) ^^^ (b <<< 16) ^^^ c
  let x := x ^^^ (x >>> 16)
  let x := x * 0x85EBCA6B
  let x := x ^^^ (x >>> 13)
  let x := x * 0xC2B2AE35
  x ^^^ (x >>> 16)

/-! ## Arithmetic on values -/

/-- The first NaN of a list, quieted; NV when any of them signals (R143). -/
def nanOf (ty : Nat) (l : List FVal) : Option (Nat × Exc) :=
  (l.find? FVal.isNan).map fun x =>
    match x with
    | .nan neg _ p => (nanBits ty neg p, Exc.nvIf (l.any FVal.isSig))
    | _ => (defaultNan ty, Exc.none)

/-- The sign of an exact zero sum of two operands with these signs (R160). -/
def zeroSign (r : Rnd) (x y : FVal) : Bool :=
  if x.isZero && y.isZero && x.neg == y.neg then x.neg else r.mode == 3

/-- An exact sum rounded, for operands that are no NaNs (R160, R163). -/
def addNums (ty : Nat) (r : Rnd) (x y : FVal) : Nat × Exc :=
  match x, y with
  | .inf s, .inf t => if s == t then (infBits ty s, Exc.none) else (defaultNan ty, Exc.NV)
  | .inf s, _ => (infBits ty s, Exc.none)
  | _, .inf t => (infBits ty t, Exc.none)
  | .num s a b, .num t c d =>
    let u : Int := (if s then -1 else 1) * (a * d : Nat) + (if t then -1 else 1) * (c * b : Nat)
    if u = 0 then (zeroBits ty (zeroSign r x y), Exc.none)
    else roundNum ty r (decide (u < 0)) u.natAbs (b * d)
  | _, _ => (defaultNan ty, Exc.none)

/-- An exact product, for operands that are no NaNs; none for 0 × Inf. -/
def mulVals (x y : FVal) : Option FVal :=
  match x, y with
  | .inf s, .inf t => some (.inf (s != t))
  | .inf s, .num t n _ => if n = 0 then none else some (.inf (s != t))
  | .num s n _, .inf t => if n = 0 then none else some (.inf (s != t))
  | .num s a b, .num t c d => some (.num (s != t) (a * c) (b * d))
  | _, _ => none

/-- A value rounded as an arithmetic result: an infinite one is exact (R148). -/
def arithResult (ty : Nat) (r : Rnd) : FVal → Nat × Exc
  | .inf s => (infBits ty s, Exc.none)
  | .num s n d => roundNum ty r s n d
  | .nan .. => (defaultNan ty, Exc.none)

/-- A two-operand arithmetic operation on values (R163). -/
abbrev FloatFn := Nat → Rnd → FVal → FVal → Nat × Exc

/-- `fadd` (R163). -/
def fnFadd : FloatFn := fun ty r x y => (nanOf ty [x, y]).getD (addNums ty r x y)
/-- `fsub` (R163). -/
def fnFsub : FloatFn := fun ty r x y => (nanOf ty [x, y]).getD (addNums ty r x y.flip)
/-- `fmul` (R163). -/
def fnFmul : FloatFn := fun ty r x y =>
  (nanOf ty [x, y]).getD (match mulVals x y with
    | some p => arithResult ty r p
    | none => (defaultNan ty, Exc.NV))
/-- `fdiv` (R163). -/
def fnFdiv : FloatFn := fun ty r x y =>
  (nanOf ty [x, y]).getD (match x, y with
    | .inf s, .num t _ _ => (infBits ty (s != t), Exc.none)
    | .num s _ _, .inf t => (zeroBits ty (s != t), Exc.none)
    | .num s a b, .num t c d =>
      if c = 0 then if a = 0 then (defaultNan ty, Exc.NV) else (infBits ty (s != t), Exc.DZ)
      else roundNum ty r (s != t) (a * d) (b * c)
    | _, _ => (defaultNan ty, Exc.NV))

/-- The order of two values that are no NaNs: is the first below the second?  −0 ranks below +0 when `zeros`. -/
def FVal.below (zeros : Bool) (x y : FVal) : Bool :=
  match x, y with
  | .inf s, .inf t => s && !t
  | .inf s, _ => s
  | _, .inf t => !t
  | .num s a b, .num t c d =>
    let p : Int := (if s then -1 else 1) * (a * d : Nat)
    let q : Int := (if t then -1 else 1) * (c * b : Nat)
    decide (p < q) || (zeros && decide (p = q) && a == 0 && s && !t)
  | _, _ => false

/-- `fmin` and `fmax` (R164): `lower` for `fmin`. -/
def fnPick (lower : Bool) : FloatFn := fun ty _ x y =>
  let nv := Exc.nvIf (x.isSig || y.isSig)
  if x.isNan && y.isNan then (exactBits ty x, nv)
  else if x.isNan then (exactBits ty y, nv)
  else if y.isNan then (exactBits ty x, nv)
  else (exactBits ty (if (if lower then y.below true x else x.below true y) then y else x), nv)

/-- `ffma`: a × b + d with one rounding (R165). -/
def fnFfma (ty : Nat) (r : Rnd) (a b d : FVal) : Nat × Exc :=
  let bad := !a.isNan && !b.isNan && (mulVals a b).isNone
  match nanOf ty [a, b, d] with
  | some x => (x.1, (x.2.add (Exc.nvIf bad)).once)
  | none =>
    match mulVals a b with
    | none => (defaultNan ty, Exc.NV)
    | some p => addNums ty r p d

/-! ## Sums in the fixed order (R152 to R154) -/

/-- A node of a sum: rounded by RNE; a NaN gives the default NaN, and NV when an input signals (R154). -/
def sumNode (ty x y : Nat) : Nat × Exc :=
  let a := readFloat ty false x
  let b := readFloat ty false y
  if a.isNan || b.isNan then (defaultNan ty, Exc.nvIf (a.isSig || b.isSig)) else addNums ty Rnd.rne a b

/-- One level of a tree over nodes that may be empty: pairs of neighbours (R152, R133); `f` has the number of the node
within its level. -/
def treeLevel {α : Type} (f : Nat → α → α → α × Exc) : List (Option α) → Nat → List (Option α) × Exc
  | x :: y :: rest, k =>
    let (l, e) := treeLevel f rest (k + 1)
    match x, y with
    | some a, some b =>
      let (c, e1) := f k a b
      (some c :: l, e.add e1)
    | some a, none => (some a :: l, e)
    | none, b => (b :: l, e)
  | [x], _ => ([x], Exc.none)
  | [], _ => ([], Exc.none)

/-- The levels of a tree: `base` is the number of the first node of the level. -/
def treeSum {α : Type} (f : Nat → α → α → α × Exc) : Nat → Nat → List (Option α) → Exc → Option α × Exc
  | 0, _, l, e => (l.headD none, e)
  | n + 1, base, l, e =>
    let (l1, e1) := treeLevel (fun k => f (base + k)) l 0
    treeSum f n (base + 2 ^ n) l1 (e.add e1)

/-- The tree over 32 leaves (R152): nodes 0 to 15, 16 to 23, 24 to 27, 28, 29, and the root 30. -/
def tree32 {α : Type} (f : Nat → α → α → α × Exc) (l : List (Option α)) : Option α × Exc := treeSum f 5 0 l Exc.none

/-! ## Block scales (R141, R145, R146) -/

/-- The value of an E3M5 code, as n ÷ 128. -/
def scaleNum (code : Nat) : Nat :=
  let e := bitsOf code 5 3
  let m := bitsOf code 0 5
  if e = 0 then m else (32 + m) * 2 ^ (e - 1)

/-- The smallest E3M5 code whose value is at or above n ÷ d, none above 31.5. -/
def scaleAbove (n d : Nat) : Option Nat := (List.range 256).find? fun c => decide (n * 128 ≤ scaleNum c * d)

/-- The greatest of a list of magnitudes n ÷ d. -/
def maxAbs (l : List FVal) : Nat × Nat :=
  l.foldl (fun m x =>
    match x with
    | .num _ n d => if m.1 * d < n * m.2 then (n, d) else m
    | _ => m) (0, 1)

/-- The block scale of a block in a band (R146). -/
def blockScale (l : List FVal) (sn : FVal) : Nat × Exc :=
  if l.all FVal.isZero then (0, Exc.none)
  else if l.any fun x => x.isNan || x == .inf true || x == .inf false then (0xFF, Exc.NV)
  else
    match sn with
    | .num _ a b =>
      if a = 0 then (0xFF, Exc.SA)
      else
        let m := maxAbs l
        match scaleAbove (m.1 * b) (m.2 * 6 * a) with
        | some c => (c, Exc.none)
        | none => (0xFF, Exc.SA)
    | _ => (0xFF, Exc.SA)

/-- The code of an element of a block with scale code `sb` in a band with scale `sn` (R146). -/
def blockCode (r : Rnd) (sb : Nat) (sn x : FVal) : Nat × Exc :=
  let neg := x.neg != sn.neg
  let big : Nat × Exc := (signed 13 neg 7, if r.sat then Exc.SA else Exc.NV)
  match x, sn with
  | .num _ a b, .num _ c d =>
    if a = 0 then (signed 13 neg 0, Exc.none)
    else if c = 0 then big
    else roundNum 13 r neg (a * d * 128) (b * c * scaleNum sb)
  | .num _ a _, .inf _ => let _ := a; (signed 13 neg 0, Exc.none)
  | .num _ a _, .nan .. => (signed 13 neg 0, if a = 0 then Exc.none else Exc.NV)
  | .inf _, .num _ c _ => if c = 0 then (signed 13 neg 0, Exc.NV) else big
  | _, _ => (signed 13 neg 0, Exc.NV)

/-- The exact value of an element of a block (R145); none when the band scale is no number. -/
def blockValue (code sb : Nat) (sn : FVal) : Option FVal :=
  match readFloat 13 false code, sn with
  | .num s n d, .num t a b => some (.num (s != t) (n * scaleNum sb * a) (d * 128 * b))
  | _, _ => none

end Sys2Proof.Machine
end

