-- ==== Sys2Proof/Machine/Special.lean ====
section
/-! DEFINITION. The special functions, correctly rounded (R168): each is enclosed between two fractions that a finer
precision brings closer, until both round to the same result.  A result that is no fraction lies between them. -/

namespace Sys2Proof.Machine

/-- An enclosure lo ÷ den ≤ x ≤ hi ÷ den. -/
structure Enclosure where
  lo : Int
  hi : Int
  den : Nat
  deriving DecidableEq, Repr

/-- Round a real number from its enclosures at growing precision (R147). -/
def roundReal (ty : Nat) (r : Rnd) (enc : Nat → Enclosure) : Nat → Nat → Nat × Exc
  | 0, p => let e := enc p; roundNum ty r (decide (e.lo < 0)) e.lo.natAbs e.den
  | k + 1, p =>
    let e := enc p
    if 0 < e.lo ∨ e.hi < 0 then
      let a := roundNum ty r (decide (e.lo < 0)) e.lo.natAbs e.den
      if a = roundNum ty r (decide (e.hi < 0)) e.hi.natAbs e.den then a else roundReal ty r enc k (2 * p)
    else roundReal ty r enc k (2 * p)

/-- The binary digits of a square root, from bit i downward. -/
def isqrtFrom (n : Nat) : Nat → Nat → Nat
  | 0, r => if (r + 1) * (r + 1) ≤ n then r + 1 else r
  | i + 1, r =>
    let t := r + 2 ^ (i + 1)
    isqrtFrom n i (if t * t ≤ n then t else r)

/-- ⌊√n⌋. -/
def isqrt (n : Nat) : Nat := isqrtFrom n (Nat.log2 n / 2) 0

/-- √(n ÷ d) rounded: exact when n·d is a square. -/
def roundSqrt (ty : Nat) (r : Rnd) (n d : Nat) : Nat × Exc :=
  let q := isqrt (n * d)
  if q * q = n * d then roundNum ty r false q d
  else
    roundReal ty r (fun p =>
      let x : Nat := isqrt (n * 2 ^ (2 * p) / d)
      ⟨x, (x : Int) + 1, 2 ^ p⟩) 7 128

/-- Partial sums of 2^p·(z + z³/3 + z⁵/5 + …) for z² = n ÷ d, each term rounded down; `t` is the next power. -/
def atanhTerms (n d : Nat) : Nat → Nat → Nat → Nat → Nat
  | 0, _, _, acc => acc
  | k + 1, i, t, acc => atanhTerms n d k (i + 1) (t * n / d) (acc + t / (2 * i + 1))

/-- 2^p·ln(n ÷ d) for 1 ≤ n ÷ d < 2, between the answer and the answer and its slack. -/
def lnScaled (p n d : Nat) : Nat × Nat :=
  let a := n - d
  let b := n + d
  let k := p / 3 + 2
  (2 * atanhTerms (a * a) (b * b) k 0 (2 ^ p * a / b) 0, 8 * k + 16)

/-- log₂ (n ÷ d) enclosed, for n ÷ d with floor of the logarithm e. -/
def log2Enc (n d : Nat) (e : Int) (p : Nat) : Enclosure :=
  let n1 := if 0 ≤ e then n else n * 2 ^ (-e).toNat
  let d1 := if 0 ≤ e then d * 2 ^ e.toNat else d
  let (a, da) := lnScaled p n1 d1
  let (b, db) := lnScaled p 4 3
  let (c, dc) := lnScaled p 3 2
  let ln2 := b + c
  ⟨e * (2 ^ p : Nat) + (a * 2 ^ p / (ln2 + db + dc) : Nat), e * (2 ^ p : Nat) + ((a + da) * 2 ^ p / ln2 + 1 : Nat), 2 ^ p⟩

/-- The sum of the exponential series of y ÷ 2^p < 1, k terms, each rounded down. -/
def expLow (p y : Nat) : Nat → Nat → Nat → Nat → Nat
  | 0, _, _, acc => acc
  | k + 1, i, t, acc => expLow p y k (i + 1) (t * y / (2 ^ p * (i + 1))) (acc + t)

/-- The same, each term rounded up. -/
def expHigh (p y : Nat) : Nat → Nat → Nat → Nat → Nat
  | 0, _, t, acc => acc + 2 * t + 4
  | k + 1, i, t, acc => expHigh p y k (i + 1) (t * y / (2 ^ p * (i + 1)) + 1) (acc + t)

/-- e^y for y between a ÷ 2^p and b ÷ 2^p, below 1. -/
def expEnc (p a b : Nat) : Nat × Nat :=
  (expLow p a (p / 4 + 16) 0 (2 ^ p) 0, expHigh p b (p / 4 + 16) 0 (2 ^ p) 0)

/-- 2^x enclosed, for x = ±n ÷ d that is no integer. -/
def exp2Enc (neg : Bool) (n d p : Nat) : Enclosure :=
  let i0 : Int := if neg then -((n / d : Nat) : Int) - 1 else (n / d : Nat)
  let f := if neg then d - n % d else n % d
  let (b, db) := lnScaled p 4 3
  let (c, dc) := lnScaled p 3 2
  let (lo, hi) := expEnc p (f * (b + c) / d) (f * (b + c + db + dc) / d + 1)
  let i := if i0 < -5000 then -5000 else if 5000 < i0 then 5000 else i0
  if 0 ≤ i then ⟨(lo * 2 ^ i.toNat : Nat), (hi * 2 ^ i.toNat : Nat), 2 ^ p⟩ else ⟨lo, hi, 2 ^ (p + (-i).toNat)⟩

/-- Square an enclosed number k times. -/
def squareEnc (p : Nat) : Nat → Nat × Nat → Nat × Nat
  | 0, x => x
  | k + 1, x => squareEnc p k (x.1 * x.1 / 2 ^ p, x.2 * x.2 / 2 ^ p + 1)

/-- tanh (n ÷ d) enclosed, for 0 < n ÷ d < 64: from e^(2n÷d), which is e^(2n÷256d) squared eight times. -/
def tanhEnc (n d p : Nat) : Enclosure :=
  let y := 2 * n * 2 ^ p / (d * 256)
  let (lo, hi) := squareEnc p 8 (expEnc p y (y + 1))
  ⟨((lo - 2 ^ p) * 2 ^ p / (lo + 2 ^ p) : Nat), ((hi - 2 ^ p) * 2 ^ p / (hi + 2 ^ p) + 1 : Nat), 2 ^ p⟩

/-- Partial sums of 2^p·(1/x − 1/3x³ + …). -/
def atanTerms (x : Nat) : Nat → Nat → Nat → Int → Int
  | 0, _, _, acc => acc
  | k + 1, i, t, acc =>
    atanTerms x k (i + 1) (t / (x * x)) (if i % 2 = 0 then acc + (t / (2 * i + 1) : Nat) else acc - (t / (2 * i + 1) : Nat))

/-- 2^p·π and its slack, by Machin's formula. -/
def piScaled (p : Nat) : Nat × Nat :=
  let k := p / 4 + 4
  ((16 * atanTerms 5 k 0 (2 ^ p / 5) 0 - 4 * atanTerms 239 k 0 (2 ^ p / 239) 0).toNat - 20 * k, 40 * k)

/-- The alternating series of sine (from x, i = 1) and cosine (from 1, i = 0) for x ÷ 2^p. -/
def trigTerms (p : Nat) (x : Int) : Nat → Nat → Int → Int → Int
  | 0, _, _, acc => acc
  | k + 1, i, t, acc =>
    trigTerms p x k (i + 2) (-(Int.fdiv (t * x * x) ((2 ^ (2 * p) * ((i + 1) * (i + 2)) : Nat) : Int))) (acc + t)

/-- The sine (or, with a quarter turn more, the cosine) of ±n ÷ d enclosed. -/
def sinEnc (quarter neg : Bool) (n d p : Nat) : Enclosure :=
  let q := p + (floorLog2 n d + 2).toNat
  let (pi, dpi) := piScaled q
  let k := n * 2 * 2 ^ q / (d * pi)
  let r : Int := ((n * 2 ^ q / d : Nat) : Int) - (k * (pi + dpi) / 2 + 1 : Nat)
  let slack : Int := (k * dpi * 2 + q + 64 : Nat)
  let terms := q / 8 + 16
  let j := (k + quarter.toNat) % 4
  let v := if j % 2 = 0 then trigTerms q r terms 1 r 0 else trigTerms q r terms 0 ((2 ^ q : Nat) : Int) 0
  let v := if 2 ≤ j then -v else v
  let v := if neg && !quarter then -v else v
  ⟨v - slack, v + slack, 2 ^ q⟩

/-- Is n ÷ d an integer power of two?  Then its exponent. -/
def powerOfTwo (n d : Nat) : Option Int :=
  let e := floorLog2 n d
  if (if 0 ≤ e then n == d * 2 ^ e.toNat else n * 2 ^ (-e).toNat == d) then some e else none

/-- A special function: type, rounding, operand (R168). -/
abbrev SpecialFn := Nat → Rnd → FVal → Nat × Exc

/-- An operand that is a NaN gives it back quieted (R143). -/
def onNumber (f : SpecialFn) : SpecialFn := fun ty r x => (nanOf ty [x]).getD (f ty r x)

/-- `frcp` (R168). -/
def fnFrcp : SpecialFn := onNumber fun ty r x =>
  match x with
  | .num s n d => if n = 0 then (infBits ty s, Exc.DZ) else roundNum ty r s d n
  | .inf s => (zeroBits ty s, Exc.none)
  | .nan .. => (defaultNan ty, Exc.none)

/-- `frsq` (R168). -/
def fnFrsq : SpecialFn := onNumber fun ty r x =>
  match x with
  | .num s n d =>
    if n = 0 then (infBits ty s, Exc.DZ) else if s then (defaultNan ty, Exc.NV) else roundSqrt ty r d n
  | .inf s => if s then (defaultNan ty, Exc.NV) else (zeroBits ty false, Exc.none)
  | .nan .. => (defaultNan ty, Exc.none)

/-- `fsqrt` (R168). -/
def fnFsqrt : SpecialFn := onNumber fun ty r x =>
  match x with
  | .num s n d =>
    if n = 0 then (zeroBits ty s, Exc.none) else if s then (defaultNan ty, Exc.NV) else roundSqrt ty r n d
  | .inf s => if s then (defaultNan ty, Exc.NV) else (infBits ty false, Exc.none)
  | .nan .. => (defaultNan ty, Exc.none)

/-- `fexp2` (R168). -/
def fnFexp2 : SpecialFn := onNumber fun ty r x =>
  match x with
  | .num s n d =>
    if n % d = 0 then
      let k := Nat.min (n / d) 5000
      if s then roundNum ty r false 1 (2 ^ k) else roundNum ty r false (2 ^ k) 1
    else roundReal ty r (exp2Enc s n d) 7 128
  | .inf s => if s then (zeroBits ty false, Exc.none) else (infBits ty false, Exc.none)
  | .nan .. => (defaultNan ty, Exc.none)

/-- `flog2` (R168). -/
def fnFlog2 : SpecialFn := onNumber fun ty r x =>
  match x with
  | .num s n d =>
    if n = 0 then (infBits ty true, Exc.DZ)
    else if s then (defaultNan ty, Exc.NV)
    else
      match powerOfTwo n d with
      | some e => roundNum ty r (decide (e < 0)) e.natAbs 1
      | none => roundReal ty r (log2Enc n d (floorLog2 n d)) 7 128
  | .inf s => if s then (defaultNan ty, Exc.NV) else (infBits ty false, Exc.none)
  | .nan .. => (defaultNan ty, Exc.none)

/-- `fsin` (R168). -/
def fnFsin : SpecialFn := onNumber fun ty r x =>
  match x with
  | .num s n d => if n = 0 then (zeroBits ty s, Exc.none) else roundReal ty r (sinEnc false s n d) 7 128
  | _ => (defaultNan ty, Exc.NV)

/-- `fcos` (R168). -/
def fnFcos : SpecialFn := onNumber fun ty r x =>
  match x with
  | .num s n d => if n = 0 then roundNum ty r false 1 1 else roundReal ty r (sinEnc true s n d) 7 128
  | _ => (defaultNan ty, Exc.NV)

/-- `ftanh` (R168).  From 64 upward the result lies above 1 − 2⁻²⁰⁰ and below 1, where every type, mode and draw
rounds alike. -/
def fnFtanh : SpecialFn := onNumber fun ty r x =>
  match x with
  | .num s n d =>
    if n = 0 then (zeroBits ty s, Exc.none)
    else if 64 * d ≤ n then roundNum ty r s (2 ^ 200 - 1) (2 ^ 200)
    else
      roundReal ty r (fun p =>
        let e := tanhEnc n d p
        if s then ⟨-e.hi, -e.lo, e.den⟩ else e) 7 128
  | .inf s => roundNum ty r s 1 1
  | .nan .. => (defaultNan ty, Exc.none)

end Sys2Proof.Machine
end

