-- ==== Sys2Proof/Machine/Float.lean ====
section
/-! DEFINITION. Floating-point words: arithmetic, comparison, special functions, conversions, the butterfly, the
generator, packing, flags (R135 to R137, R155 to R170, R172, R175 to R178), and reductions and scans (R132, R133). -/

namespace Sys2Proof.Machine

/-! ## Operands and results (R142, R159, R161) -/

/-- The bits of an element 0 of a lane operand in a type. -/
def View.elem (v : View) (ty r n : Nat) : Nat := v.w.laneBits (typeWide ty) r n % 2 ^ elemWidth ty

/-- A lane operand as a value of MODE.TYPE, flushed under FTZ (R159). -/
def View.opnd (v : View) (r n : Nat) : FVal := readFloat v.type (modeFtz v.f.mode) (v.elem v.type r n)

/-- The draw of a lane for an element (R149). -/
def View.draw (v : View) (n b : Nat) : Nat :=
  (gen v.w.rseed (BitVec.ofNat 32 n) (BitVec.ofNat 32 b) (v.w.rdraw.get n)).toNat

/-- How element b of a lane rounds under MODE (R147, R149). -/
def View.rnd (v : View) (n b : Nat) : Rnd :=
  let m := modeRnd v.f.mode
  ⟨m, modeSat v.f.mode, modeFtz v.f.mode, if m = 5 then v.draw n b else 0⟩

/-- One more draw is taken in some lanes. -/
def Warp.advance (w : Warp) (m : LaneMask) : Warp :=
  { w with rdraw := Lanes.ofFn fun n => if m.getLsbD n then w.rdraw.get n + 1 else w.rdraw.get n }

/-- RDRAW after a word that rounds under MODE.RND (R149, R161). -/
def View.advance (v : View) (w : Warp) : Warp := if modeRnd v.f.mode = 5 then w.advance v.act else w

/-- What a function gives in the active lanes, and all that they raise, each lane each flag once (R158). -/
def View.elems (v : View) (f : Nat → Nat × Exc) : List Nat × Exc :=
  let rs := (List.range 32).map fun n => if v.act.getLsbD n then f n else (0, Exc.none)
  (rs.map (·.1), Exc.sum (rs.map (·.2.once)))

/-- Write results of MODE.TYPE at once: zeros above a narrow one, a pair for a wide one (R135, R159). -/
def View.putElems (v : View) (w : Warp) (d : Nat) (r : List Nat × Exc) : Warp :=
  (w.writeLanes v.type (typeWide v.type) d v.act fun n => r.1.getD n 0).raiseExc r.2

/-- Results that are written, with their flags, when the word completes (R84, R161). -/
def View.laterElems (v : View) (s : State) (d : Nat) (r : List Nat × Exc) : State :=
  let bits := fun n => r.1.getD n 0
  s.addOp v.src (.result (.v d v.act (Lanes.ofFn fun n => BitVec.ofNat 32 (bits n)) ::
    (if typeWide v.type then [.v (d + 1) v.act (Lanes.ofFn fun n => BitVec.ofNat 32 (bits n / 2 ^ 32))] else [])) r.2)
    true false

/-- Do the special functions and the arithmetic words accept a type (R159)? -/
def fpType (ty : Nat) : Bool := decide (7 ≤ ty ∧ ty ≤ 10)

/-- The shape of a word with the types of its operands checked (R159). -/
def shapeF (types : Nat → Bool) (d a b : BitVec 7) (long : Bool := false) (v : View) : Shape :=
  let x := shapeR d a b long v
  { x with ok := x.ok && types v.type }

/-- The shape of a word with one register source. -/
def shapeF1 (types : Nat → Bool) (d a : BitVec 7) (long : Bool := false) (v : View) : Shape :=
  let x := shapeI d a long v
  { x with ok := x.ok && types v.type }

/-! ## Immediates (R79, R163) -/

/-- The immediate of a floating word as bits of MODE.TYPE; none where the type cannot hold a 7-bit one exactly. -/
def View.immBits (v : View) (i : BitVec 7) : Option Nat :=
  match v.c.long with
  | some l =>
    let m := modeRnd v.f.mode
    some (roundTo v.type ⟨if m = 5 then 0 else m, modeSat v.f.mode, false, 0⟩ (readFloat 8 false l.toNat)).1
  | none =>
    let r := roundNum v.type Rnd.rne (decide (i.toInt < 0)) i.toInt.natAbs 1
    if r.2 = Exc.none then some r.1 else none

/-- The immediate as a value. -/
def View.immVal (v : View) (i : BitVec 7) : FVal :=
  readFloat v.type (modeFtz v.f.mode) ((v.immBits i).getD 0)

/-- The shape of an immediate form. -/
def shapeFI (types : Nat → Bool) (d a i : BitVec 7) (long : Bool := false) (v : View) : Shape :=
  let x := shapeF1 types d a long v
  { x with ok := x.ok && (v.immBits i).isSome }

/-! ## Arithmetic (R163 to R165) -/

/-- A two-operand form that rounds. -/
def floatR (f : FloatFn) (d a b : BitVec 7) : State → Host.Outcome State Fault Refusal :=
  issueWord (shapeF fpType d a b) fun v s =>
    onWarp v s fun w => v.advance (v.putElems w d.toNat (v.elems fun n =>
      f v.type (v.rnd n 0) (v.opnd a.toNat n) (v.opnd b.toNat n)))

/-- Its immediate form. -/
def floatI (f : FloatFn) (d a i : BitVec 7) : State → Host.Outcome State Fault Refusal :=
  issueWord (shapeFI fpType d a i) fun v s =>
    onWarp v s fun w => v.advance (v.putElems w d.toNat (v.elems fun n =>
      f v.type (v.rnd n 0) (v.opnd a.toNat n) (v.immVal i)))

/-- A form that chooses and never rounds: types 7 to 13, no draw (R161, R164). -/
def pickR (lower : Bool) (d a b : BitVec 7) : State → Host.Outcome State Fault Refusal :=
  issueWord (shapeF isFloat d a b) fun v s =>
    onWarp v s fun w => v.putElems w d.toNat (v.elems fun n =>
      fnPick lower v.type Rnd.rne (v.opnd a.toNat n) (v.opnd b.toNat n))

/-- Its immediate form. -/
def pickI (lower : Bool) (d a i : BitVec 7) : State → Host.Outcome State Fault Refusal :=
  issueWord (shapeFI isFloat d a i) fun v s =>
    onWarp v s fun w => v.putElems w d.toNat (v.elems fun n =>
      fnPick lower v.type Rnd.rne (v.opnd a.toNat n) (v.immVal i))

/-- `fadd vD, vA, vB` (R163). -/
def execFadd (d a b : BitVec 7) (s : State) : Host.Outcome State Fault Refusal := floatR fnFadd d a b s
/-- `fadd vD, vA, imm` (R163). -/
def execFaddI (d a i : BitVec 7) (s : State) : Host.Outcome State Fault Refusal := floatI fnFadd d a i s
/-- `fsub vD, vA, vB` (R163). -/
def execFsub (d a b : BitVec 7) (s : State) : Host.Outcome State Fault Refusal := floatR fnFsub d a b s
/-- `fsub vD, vA, imm` (R163). -/
def execFsubI (d a i : BitVec 7) (s : State) : Host.Outcome State Fault Refusal := floatI fnFsub d a i s
/-- `fmul vD, vA, vB` (R163). -/
def execFmul (d a b : BitVec 7) (s : State) : Host.Outcome State Fault Refusal := floatR fnFmul d a b s
/-- `fmul vD, vA, imm` (R163). -/
def execFmulI (d a i : BitVec 7) (s : State) : Host.Outcome State Fault Refusal := floatI fnFmul d a i s
/-- `fmin vD, vA, vB` (R164). -/
def execFmin (d a b : BitVec 7) (s : State) : Host.Outcome State Fault Refusal := pickR true d a b s
/-- `fmin vD, vA, imm` (R164). -/
def execFminI (d a i : BitVec 7) (s : State) : Host.Outcome State Fault Refusal := pickI true d a i s
/-- `fmax vD, vA, vB` (R164). -/
def execFmax (d a b : BitVec 7) (s : State) : Host.Outcome State Fault Refusal := pickR false d a b s
/-- `fmax vD, vA, imm` (R164). -/
def execFmaxI (d a i : BitVec 7) (s : State) : Host.Outcome State Fault Refusal := pickI false d a i s

/-- `fdiv vD, vA, vB` (R163): long-latency. -/
def execFdiv (d a b : BitVec 7) (s : State) : Host.Outcome State Fault Refusal :=
  issueWord (shapeF fpType d a b true) (fun v s =>
    .done ((v.laterElems s d.toNat (v.elems fun n =>
      fnFdiv v.type (v.rnd n 0) (v.opnd a.toNat n) (v.opnd b.toNat n))).mapWarp v.key v.advance)) s

/-- `fdiv vD, vA, imm` (R163). -/
def execFdivI (d a i : BitVec 7) (s : State) : Host.Outcome State Fault Refusal :=
  issueWord (shapeFI fpType d a i true) (fun v s =>
    .done ((v.laterElems s d.toNat (v.elems fun n =>
      fnFdiv v.type (v.rnd n 0) (v.opnd a.toNat n) (v.immVal i))).mapWarp v.key v.advance)) s

/-- `ffma vD, vA, vB` (R165). -/
def execFfma (d a b : BitVec 7) (s : State) : Host.Outcome State Fault Refusal :=
  issueWord (fun v => { shapeRD d a b v with ok := (shapeF fpType d a b false v).ok }) (fun v s =>
    onWarp v s fun w => v.advance (v.putElems w d.toNat (v.elems fun n =>
      fnFfma v.type (v.rnd n 0) (v.opnd a.toNat n) (v.opnd b.toNat n) (v.opnd d.toNat n)))) s

/-! ## Comparison and classification (R166, R167) -/

/-- Equal as values. -/
def FVal.same (x y : FVal) : Bool := !(x.below false y) && !(y.below false x)

/-- `fcmp.cc pD, vA, vB`: `f` has the operands; NV for a signalling NaN. -/
def fcmpWord (f : FVal → FVal → Bool) (d a b : BitVec 7) : State → Host.Outcome State Fault Refusal :=
  issueWord (fun v =>
    let w := typeWide v.type
    { reads := laneRegs w a.toNat ++ laneRegs w b.toNat, writes := [.p d.toNat],
      ok := pairOk w a.toNat && pairOk w b.toNat && isFloat v.type }) fun v s =>
    let r := v.elems fun n =>
      let x := v.opnd a.toNat n
      let y := v.opnd b.toNat n
      ((f x y).toNat, Exc.nvIf (x.isSig || y.isSig))
    onWarp v s fun w => (w.setP d.toNat v.act (maskOf fun n => r.1.getD n 0 == 1)).raiseExc r.2

/-- Is neither operand a NaN? -/
def ordered (x y : FVal) : Bool := !x.isNan && !y.isNan

/-- `fcmp.eq pD, vA, vB` (R166). -/
def execFcmpEq (d a b : BitVec 7) (s : State) : Host.Outcome State Fault Refusal :=
  fcmpWord (fun x y => ordered x y && x.same y) d a b s
/-- `fcmp.ne pD, vA, vB` (R166). -/
def execFcmpNe (d a b : BitVec 7) (s : State) : Host.Outcome State Fault Refusal :=
  fcmpWord (fun x y => !(ordered x y && x.same y)) d a b s
/-- `fcmp.lt pD, vA, vB` (R166). -/
def execFcmpLt (d a b : BitVec 7) (s : State) : Host.Outcome State Fault Refusal :=
  fcmpWord (fun x y => ordered x y && x.below false y) d a b s
/-- `fcmp.le pD, vA, vB` (R166). -/
def execFcmpLe (d a b : BitVec 7) (s : State) : Host.Outcome State Fault Refusal :=
  fcmpWord (fun x y => ordered x y && !(y.below false x)) d a b s
/-- `fcmp.gt pD, vA, vB` (R166). -/
def execFcmpGt (d a b : BitVec 7) (s : State) : Host.Outcome State Fault Refusal :=
  fcmpWord (fun x y => ordered x y && y.below false x) d a b s
/-- `fcmp.ge pD, vA, vB` (R166). -/
def execFcmpGe (d a b : BitVec 7) (s : State) : Host.Outcome State Fault Refusal :=
  fcmpWord (fun x y => ordered x y && !(x.below false y)) d a b s
/-- `fcmp.un pD, vA, vB` (R166). -/
def execFcmpUn (d a b : BitVec 7) (s : State) : Host.Outcome State Fault Refusal :=
  fcmpWord (fun x y => !ordered x y) d a b s
/-- `fcmp.ord pD, vA, vB` (R166). -/
def execFcmpOrd (d a b : BitVec 7) (s : State) : Host.Outcome State Fault Refusal :=
  fcmpWord (fun x y => ordered x y) d a b s

/-- The class bit of an encoding (R167). -/
def classOf (ty bits : Nat) : Nat :=
  match readFloat ty false bits with
  | .nan _ sig _ => if sig then 0 else 1
  | .inf s => if s then 2 else 9
  | .num s n _ =>
    if n = 0 then if s then 5 else 6
    else if bitsOf bits (fmtOf ty).m (fmtOf ty).e = 0 then if s then 4 else 7
    else if s then 3 else 8

/-- `fclass vD, vA` (R167). -/
def execFclass (d a : BitVec 7) (s : State) : Host.Outcome State Fault Refusal :=
  issueWord (fun v =>
    let w := typeWide v.type
    { reads := laneRegs w a.toNat, writes := [.v d.toNat], ok := pairOk w a.toNat && isFloat v.type }) (fun v s =>
    onWarp v s fun w => w.writeLanes v.type false d.toNat v.act fun n => 2 ^ classOf v.type (v.elem v.type a.toNat n)) s

/-! ## Special functions (R168) -/

/-- A special function of a lane register. -/
def specialWord (f : SpecialFn) (d a : BitVec 7) : State → Host.Outcome State Fault Refusal :=
  issueWord (shapeF1 fpType d a true) fun v s =>
    .done ((v.laterElems s d.toNat (v.elems fun n => f v.type (v.rnd n 0) (v.opnd a.toNat n))).mapWarp v.key v.advance)

/-- `frcp vD, vA` (R168). -/
def execFrcp (d a : BitVec 7) (s : State) : Host.Outcome State Fault Refusal := specialWord fnFrcp d a s
/-- `frsq vD, vA` (R168). -/
def execFrsq (d a : BitVec 7) (s : State) : Host.Outcome State Fault Refusal := specialWord fnFrsq d a s
/-- `fsqrt vD, vA` (R168). -/
def execFsqrt (d a : BitVec 7) (s : State) : Host.Outcome State Fault Refusal := specialWord fnFsqrt d a s
/-- `fexp2 vD, vA` (R168). -/
def execFexp2 (d a : BitVec 7) (s : State) : Host.Outcome State Fault Refusal := specialWord fnFexp2 d a s
/-- `flog2 vD, vA` (R168). -/
def execFlog2 (d a : BitVec 7) (s : State) : Host.Outcome State Fault Refusal := specialWord fnFlog2 d a s
/-- `fsin vD, vA` (R168). -/
def execFsin (d a : BitVec 7) (s : State) : Host.Outcome State Fault Refusal := specialWord fnFsin d a s
/-- `fcos vD, vA` (R168). -/
def execFcos (d a : BitVec 7) (s : State) : Host.Outcome State Fault Refusal := specialWord fnFcos d a s
/-- `ftanh vD, vA` (R168). -/
def execFtanh (d a : BitVec 7) (s : State) : Host.Outcome State Fault Refusal := specialWord fnFtanh d a s

/-! ## Conversion (R135, R150, R169) -/

/-- `fcvt.src vD, vA` (R169). -/
def execFcvt (d a : BitVec 7) (src : BitVec 4) (s : State) : Host.Outcome State Fault Refusal :=
  issueWord (fun v =>
    { reads := laneRegs (typeWide src.toNat) a.toNat, writes := laneRegs (typeWide v.type) d.toNat,
      ok := pairOk (typeWide src.toNat) a.toNat && pairOk (typeWide v.type) d.toNat && decide (src.toNat < 14) })
    (fun v s => onWarp v s fun w => v.advance (v.putElems w d.toNat (v.elems fun n =>
      convert src.toNat v.type (v.rnd n 0) (v.elem src.toNat a.toNat n)))) s

/-! ## Block quantisation (R170 to R172) -/

/-- A band scale: bits [15:0] of a uniform register as bf16 (R170).  A word that rounds reads a subnormal one as zero under
FTZ (R159); `bscale` reads it raw (R172). -/
def View.bandScale (v : View) (ftz : Bool) (b : BitVec 7) : FVal := readFloat 9 ftz ((v.w.sreg b.toNat).toNat % 65536)

/-- The eight registers of a tile. -/
def tileRegs (t : Nat) : List Reg := (List.range 8).map fun i => .v (8 * t + i)

/-- The number of registers that eight packed elements take (R170). -/
def packedRegs (ty : Nat) : Nat := if elemWidth ty = 16 then 4 else 2

/-- The registers of eight packed elements, with the block scale of fp4s. -/
def packedList (ty r : Nat) : List Reg := (List.range (packedRegs ty)).map fun i => .v (r + i)

/-- Is a type one of `qcvt` and `dqcvt` (R159)? -/
def packType (ty : Nat) : Bool := decide (9 ≤ ty ∧ ty ≤ 13)

/-- Elements of width w, element 0 lowest. -/
def packBits (w : Nat) : List Nat → Nat
  | [] => 0
  | x :: xs => x + 2 ^ w * packBits w xs

/-- Quantise eight fp32 patterns of one lane (R170): the bits of all result registers, and what is raised. -/
def quantise (v : View) (n : Nat) (sn : FVal) (xs : List Nat) : Nat × Exc :=
  let ty := v.type
  let vals := xs.map (readFloat 8 (modeFtz v.f.mode))
  if ty = 13 then
    let (sb, e0) := blockScale vals sn
    let rs := (List.range 8).map fun j => blockCode (v.rnd n j) sb sn (vals.getD j (.num false 0 1))
    (packBits 4 (rs.map (·.1)) + 2 ^ 32 * sb, (e0.add (Exc.sum (rs.map (·.2)))).once)
  else
    let rs := (List.range 8).map fun j =>
      match sn, vals.getD j (.num false 0 1) with
      | .num t a b, x =>
        if a = 0 then (defaultNan ty, Exc.NV)
        else
          match x with
          | .num s c d => roundNum ty (v.rnd n j) (s != t) (c * b) (d * a)
          | .inf s => roundTo ty (v.rnd n j) (.inf (s != t))
          | y => roundTo ty (v.rnd n j) y
      | _, _ => (defaultNan ty, Exc.NV)
    (packBits (elemWidth ty) (rs.map (·.1)), (Exc.sum (rs.map (·.2))).once)

/-- The packed elements of one lane and, for fp4s, the block scale. -/
def View.packed (v : View) (r n : Nat) : List Nat × Nat :=
  let w := elemWidth v.type
  let bits := packBits 32 ((List.range (packedRegs v.type)).map fun i => ((v.w.vreg (r + i)).get n).toNat)
  ((List.range 8).map fun j => bitsOf bits (w * j) w, bitsOf bits 32 8)

/-- One element of `dqcvt` (R171). -/
def dequantise (v : View) (n j code sb : Nat) (sn : FVal) : Nat × Exc :=
  if v.type = 13 then
    match blockValue code sb sn with
    | some x => roundTo 8 (v.rnd n j) x
    | none => (defaultNan 8, Exc.NV)
  else
    match sn, readFloat v.type (modeFtz v.f.mode) code with
    | .num t a b, .num s c d => roundNum 8 (v.rnd n j) (s != t) (c * a) (d * b)
    | .num t a _, .inf s => if a = 0 then (defaultNan 8, Exc.NV) else convertInf 8 (modeSat v.f.mode) (s != t)
    | .num _ _ _, .nan s q p => convertNan 8 (modeSat v.f.mode) s q p
    | _, _ => (defaultNan 8, Exc.NV)

/-- `dqcvt tD, vA, sB` (R171). -/
def execDqcvt (d a b : BitVec 7) (s : State) : Host.Outcome State Fault Refusal :=
  issueWord (fun v =>
    { reads := .s b.toNat :: packedList v.type a.toNat, writes := tileRegs d.toNat, long := true,
      ok := packType v.type && a.toNat % packedRegs v.type == 0 && decide (d.toNat < 16) }) (fun v s =>
    let sn := v.bandScale (modeFtz v.f.mode) b
    let r := fun (n : Nat) =>
      let p := v.packed a.toNat n
      (List.range 8).map fun j => dequantise v n j (p.1.getD j 0) p.2 sn
    let exc := (v.elems fun n => (0, (Exc.sum ((r n).map (·.2))).once)).2
    .done ((s.addOp v.src (.result (((List.range 8).map fun j =>
        .v (8 * d.toNat + j) v.act (Lanes.ofFn fun n => BitVec.ofNat 32 (((r n).getD j (0, Exc.none)).1))) ++
        [.tag d.toNat ⟨8, 0, 0⟩]) exc) true false).mapWarp v.key v.advance)) s

/-- `bscale vD, vA, sB` (R172). -/
def execBscale (d a b : BitVec 7) (s : State) : Host.Outcome State Fault Refusal :=
  issueWord (fun _ => { reads := [.v a.toNat, .s b.toNat], writes := [.v d.toNat] }) (fun v s =>
    let r := v.elems fun n => blockScale [readFloat 8 false ((v.w.vreg a.toNat).get n).toNat] (v.bandScale false b)
    onWarp v s fun w => (w.writeLanes v.type false d.toNat v.act fun n => r.1.getD n 0).raiseExc r.2) s

/-! ## The Hadamard butterfly (R155, R175) -/

/-- A difference of fp32 rounded by RNE (R155). -/
def diffNode (x y : Nat) : Nat × Exc :=
  let b := readFloat 8 false y
  if b.isNan then sumNode 8 x y else sumNode 8 x (y ^^^ 2 ^ 31)

/-- What the nodes of the lanes of a mask raised (R155, R157). -/
def raisedIn (m : LaneMask) (l : List (Nat × Exc)) : Exc := Exc.sum (l.mapIdx fun i x => if m.getLsbD i then x.2 else Exc.none)

/-- One stage of the butterfly; `m` holds the active lanes. -/
def hadStage (m : LaneMask) (st : Nat) (l : List Nat) : List Nat × Exc :=
  let rs := (List.range 32).map fun i =>
    let j := i ^^^ 2 ^ st
    if i.testBit st then diffNode (l.getD j 0) (l.getD i 0) else sumNode 8 (l.getD i 0) (l.getD j 0)
  (rs.map (·.1), raisedIn m rs)

/-- The product with 0x3E35_04F3 rounded by RNE. -/
def hadScale (x : Nat) : Nat × Exc :=
  let a := readFloat 8 false x
  if a.isNan then (defaultNan 8, Exc.nvIf a.isSig) else fnFmul 8 Rnd.rne a (readFloat 8 false 0x3E3504F3)

/-- The transform of 32 fp32 patterns; a lane outside the mask raises no flag. -/
def hadamard (m : LaneMask) (l : List Nat) : List Nat × Exc :=
  let r := (List.range 5).foldl (fun r st =>
    let q := hadStage m st r.1
    (q.1, r.2.add q.2)) (l, Exc.none)
  let out := r.1.map hadScale
  (out.map (·.1), (r.2.add (raisedIn m out)).once)

/-- `had32 vD, vA` (R175). -/
def execHad32 (d a : BitVec 7) (s : State) : Host.Outcome State Fault Refusal :=
  issueWord (fun _ => { reads := [.v a.toNat], writes := [.v d.toNat] }) (fun v s =>
    let r := hadamard v.act ((List.range 32).map fun n => if v.act.getLsbD n then ((v.w.vreg a.toNat).get n).toNat else 0)
    onWarp v s fun w => (w.writeLanes v.type false d.toNat v.act fun n => r.1.getD n 0).raiseExc r.2) s

/-! ## The generator (R176) -/

/-- `rngseed sA` (R176). -/
def execRngseed (a : BitVec 7) (s : State) : Host.Outcome State Fault Refusal :=
  issueWord (fun _ => { reads := [.s a.toNat] }) (fun v s =>
    onWarp v s fun w => { w with
      rseed := loWord (v.w.sreg a.toNat)
      rdraw := Lanes.ofFn fun n => if (w.unexited 0xFF).getLsbD n then 0 else w.rdraw.get n }) s

/-- `rng vD` (R176). -/
def execRng (d : BitVec 7) (s : State) : Host.Outcome State Fault Refusal :=
  issueWord (fun _ => { writes := [.v d.toNat] }) (fun v s =>
    onWarp v s fun w => (w.writeLanes v.type false d.toNat v.act fun n => v.draw n 0).advance v.act) s

/-! ## Packing (R177) -/

/-- The element widths that `pack` and `unpack` move (R159, R177). -/
def moveType (ty : Nat) : Bool := decide (3 ≤ ty ∧ ty ≤ 6 ∨ 9 ≤ ty ∧ ty ≤ 13)

/-- `pack vD, vA, i` (R177). -/
def execPack (d a i : BitVec 7) (s : State) : Host.Outcome State Fault Refusal :=
  issueWord (fun v => { reads := [.v a.toNat, .v d.toNat], writes := [.v d.toNat],
                        ok := moveType v.type && decide (i.toNat * elemWidth v.type < 32) }) (fun v s =>
    let w := elemWidth v.type
    let at' := w * i.toNat
    onWarp v s fun wp => wp.writeLanes v.type false d.toNat v.act fun n =>
      let old := ((v.w.vreg d.toNat).get n).toNat
      old - bitsOf old at' w * 2 ^ at' + bitsOf ((v.w.vreg a.toNat).get n).toNat 0 w * 2 ^ at') s

/-- `unpack vD, vA, i` (R177). -/
def execUnpack (d a i : BitVec 7) (s : State) : Host.Outcome State Fault Refusal :=
  issueWord (fun v => { reads := [.v a.toNat], writes := [.v d.toNat],
                        ok := moveType v.type && decide (i.toNat * elemWidth v.type < 32) }) (fun v s =>
    let w := elemWidth v.type
    onWarp v s fun wp => wp.writeLanes v.type false d.toNat v.act fun n =>
      let e := bitsOf ((v.w.vreg a.toNat).get n).toNat (w * i.toNat) w
      if v.type = 3 ∨ v.type = 5 then natOf 32 (valueOf w true e) else e) s

/-! ## Flags (R178) -/

/-- `rdflg sD, n` (R178). -/
def execRdflg (d n : BitVec 7) (s : State) : Host.Outcome State Fault Refusal :=
  issueWord (fun _ => { writes := [.s d.toNat], ok := decide (n.toNat < 7) }) (fun v s =>
    if s.raisersLeft v.key then .hold s .held else onWarp v s fun w => w.setS d.toNat
      (if n.toNat = 6 then w.flags.setWidth 64 else BitVec.ofNat 64 (w.xc.get n.toNat))) s

/-- `clrflg mask` (R178). -/
def execClrflg (m : BitVec 7) (s : State) : Host.Outcome State Fault Refusal :=
  issueWord (fun _ => { ok := decide (m.toNat < 64) }) (fun v s =>
    if s.raisersLeft v.key then .hold s .held else onWarp v s fun w => { w with flags := w.flags &&& ~~~ (m.setWidth 32), xc := w.xc.clear m }) s

/-! ## Reductions and scans (R132, R133) -/

/-- A combination of two leaves or nodes: node number, the two, the result and what it raises. -/
abbrev Combine := Nat → Nat → Nat → Nat × Exc

/-- How `red` and `scan` combine under MODE: X[2:0] of add, min, max, and, or, xor. -/
def View.combine (v : View) (op : Nat) : Combine := fun node x y =>
  let ty := v.type
  if isFloat ty then
    let low := (lowestLane v.act).getD 0
    let a := readFloat ty (modeFtz v.f.mode) x
    let b := readFloat ty (modeFtz v.f.mode) y
    if a.isNan || b.isNan then (defaultNan ty, Exc.none)
    else if op = 0 then fnFadd ty { v.rnd low 0 with g := if modeRnd v.f.mode = 5 then v.draw low node else 0 } a b
    else fnPick (op == 1) ty Rnd.rne a b
  else
    let w := elemWidth ty
    let sg := typeSigned ty
    let a := valueOf w sg x
    let b := valueOf w sg y
    let r : Int × Exc :=
      match op with
      | 0 => fnAdd w sg (modeSat v.f.mode) a b
      | 1 => fnMin w sg false a b
      | 2 => fnMax w sg false a b
      | 3 => fnAnd w sg false a b
      | 4 => fnOr w sg false a b
      | _ => fnXor w sg false a b
    (natOf w r.1, r.2)

/-- The identity that NSKIP puts in place of a NaN leaf (R133). -/
def nskipIdentity (ty op : Nat) : Nat :=
  match op with
  | 0 => zeroBits ty false
  | 1 => infBits ty false
  | _ => infBits ty true

/-- The 32 leaves of a reduction or scan: named present lanes, zeros for named absent ones, none for the rest. -/
def View.leaves (v : View) (op : Nat) (named : LaneMask) (a : Nat) : List (Option (Nat × Exc)) :=
  (List.range 32).map fun n =>
    if !named.getLsbD n then none
    else if !v.act.getLsbD n then some (0, Exc.none)
    else
      let x := v.elem v.type a n
      if isFloat v.type then
        let f := readFloat v.type (modeFtz v.f.mode) x
        if f.isNan then
          if modeNskip v.f.mode then some (nskipIdentity v.type op, Exc.none)
          else some (defaultNan v.type, Exc.nvIf f.isSig)
        else some (exactBits v.type f, Exc.none)
      else some (x, Exc.none)

/-- The ascending fold of a scan: the value of every position and all that is raised. -/
def scanFold (f : Combine) : Option Nat → Nat → List (Option Nat) → List Nat × Exc
  | _, _, [] => ([], Exc.none)
  | acc, i, x :: xs =>
    let (here, e) : Option Nat × Exc :=
      match acc, x with
      | some a, some b => let r := f i a b; (some r.1, r.2)
      | some a, none => (some a, Exc.none)
      | none, b => (b, Exc.none)
    let (l, e1) := scanFold f here (i + 1) xs
    (here.getD 0 :: l, e.add e1)

/-- Does MODE.TYPE allow the operation (R132, R133)? -/
def combineOk (ty op : Nat) : Bool := !isFloat ty || (fpType ty && decide (op < 3))

/-- `red.op` and `scan.op` (R132): the value of every position. -/
def combineWord (scan : Bool) (op : Nat) (d a m : BitVec 7) : State → Host.Outcome State Fault Refusal :=
  issueWord (fun v =>
    let w := typeWide v.type
    { reads := .s m.toNat :: laneRegs w a.toNat, writes := laneRegs w d.toNat,
      ok := pairOk w d.toNat && pairOk w a.toNat && combineOk v.type op }) fun v s =>
    let named := v.members m
    let leaves := v.leaves op named a.toNat
    let e0 := Exc.sum (leaves.map fun x => (x.map (·.2)).getD Exc.none)
    let vals := leaves.map fun x => x.map (·.1)
    let r : List Nat × Exc :=
      if scan then scanFold (v.combine op) none 0 vals
      else
        let t := tree32 (v.combine op) vals
        (List.replicate 32 (t.1.getD 0), t.2)
    let bits := fun n =>
      let x := r.1.getD n 0
      if isFloat v.type then x
      else natOf (if typeWide v.type then 64 else 32) (valueOf (elemWidth v.type) (typeSigned v.type) x)
    let s1 := s.mapWarp v.key fun w =>
      let w1 := (w.writeLanes v.type (typeWide v.type) d.toNat v.act bits).raiseExc (e0.add r.2).once
      if isFloat v.type && op == 0 then v.advance w1 else w1
    .done (s1.noteAbsent v named (v.anyAbsent named))

/-- `red.add vD, vA, sM` (R132). -/
def execRedAdd (d a m : BitVec 7) (s : State) : Host.Outcome State Fault Refusal :=
  combineWord false 0 d a m s
/-- `red.min vD, vA, sM` (R132). -/
def execRedMin (d a m : BitVec 7) (s : State) : Host.Outcome State Fault Refusal :=
  combineWord false 1 d a m s
/-- `red.max vD, vA, sM` (R132). -/
def execRedMax (d a m : BitVec 7) (s : State) : Host.Outcome State Fault Refusal :=
  combineWord false 2 d a m s
/-- `red.and vD, vA, sM` (R132). -/
def execRedAnd (d a m : BitVec 7) (s : State) : Host.Outcome State Fault Refusal :=
  combineWord false 3 d a m s
/-- `red.or vD, vA, sM` (R132). -/
def execRedOr (d a m : BitVec 7) (s : State) : Host.Outcome State Fault Refusal :=
  combineWord false 4 d a m s
/-- `red.xor vD, vA, sM` (R132). -/
def execRedXor (d a m : BitVec 7) (s : State) : Host.Outcome State Fault Refusal :=
  combineWord false 5 d a m s
/-- `scan.add vD, vA, sM` (R132). -/
def execScanAdd (d a m : BitVec 7) (s : State) : Host.Outcome State Fault Refusal :=
  combineWord true 0 d a m s
/-- `scan.min vD, vA, sM` (R132). -/
def execScanMin (d a m : BitVec 7) (s : State) : Host.Outcome State Fault Refusal :=
  combineWord true 1 d a m s
/-- `scan.max vD, vA, sM` (R132). -/
def execScanMax (d a m : BitVec 7) (s : State) : Host.Outcome State Fault Refusal :=
  combineWord true 2 d a m s
/-- `scan.and vD, vA, sM` (R132). -/
def execScanAnd (d a m : BitVec 7) (s : State) : Host.Outcome State Fault Refusal :=
  combineWord true 3 d a m s
/-- `scan.or vD, vA, sM` (R132). -/
def execScanOr (d a m : BitVec 7) (s : State) : Host.Outcome State Fault Refusal :=
  combineWord true 4 d a m s
/-- `scan.xor vD, vA, sM` (R132). -/
def execScanXor (d a m : BitVec 7) (s : State) : Host.Outcome State Fault Refusal :=
  combineWord true 5 d a m s

end Sys2Proof.Machine
end

