-- ==== Sys2Proof/Machine/Wavelet.lean ====
section
/-! DEFINITION. Tiles as elements (R275), the Haar transform of a tile, its thresholds (R276, R299), reconstruction
(R302), and `qcvt`, which may reconstruct (R170, R174). -/

namespace Sys2Proof.Machine

/-- Elements per lane of a tile in an element type (R275). -/
def tileCount (ty : Nat) : Nat := 256 / elemWidth ty

/-- Element e of lane n of a tile, as bits of the type (R142, R275). -/
def Warp.tileElem (w : Warp) (ty t n e : Nat) : Nat :=
  let b := elemWidth ty
  if b = 64 then w.laneBits true (8 * t + 2 * e) n
  else
    let c := 32 / b
    bitsOf ((w.vreg (8 * t + e / c)).get n).toNat (b * (e % c)) b

/-- The eight words of one lane of a tile, from its elements. -/
def packTile (ty : Nat) (es : List Nat) : List Word :=
  let bits := packBits (elemWidth ty) es
  (List.range 8).map fun i => BitVec.ofNat 32 (bits / 2 ^ (32 * i))

/-- Half of an exact sum of two fp32 patterns, rounded by RNE (R276); the first NaN is kept, quieted (R143). -/
def halfNode (x y : Nat) : Nat × Exc :=
  let a := readFloat 8 false x
  let b := readFloat 8 false y
  (nanOf 8 [a, b]).getD (match a, b with
    | .num s p q, .num t u v =>
      let z : Int := (if s then -1 else 1) * (p * v : Nat) + (if t then -1 else 1) * (u * q : Nat)
      if z = 0 then (zeroBits 8 (zeroSign Rnd.rne a b), Exc.none)
      else roundNum 8 Rnd.rne (decide (z < 0)) z.natAbs (q * v * 2)
    | _, _ => addNums 8 Rnd.rne a b)

/-- The other sign of an fp32 pattern that is no NaN. -/
def flip32 (x : Nat) : Nat := if (readFloat 8 false x).isNan then x else x ^^^ 2 ^ 31

/-- One level of the transform along the first `k` columns of one feature: sums first, then differences; the rest
stays (R276, R298). -/
def haarLevel (k : Nat) (l : List Nat) : List Nat × Exc :=
  let pairs := (List.range (k / 2)).map fun q => (l.getD (2 * q) 0, l.getD (2 * q + 1) 0)
  let s := pairs.map fun p => halfNode p.1 p.2
  let d := pairs.map fun p => halfNode p.1 (flip32 p.2)
  ((s ++ d).map (·.1) ++ l.drop k, Exc.sum ((s ++ d).map (·.2)))

/-- L levels of the transform of one feature over 32 columns. -/
def haarForward : Nat → Nat → List Nat → List Nat × Exc
  | 0, _, l => (l, Exc.none)
  | n + 1, k, l =>
    let r := haarLevel k l
    let q := haarForward n (k / 2) r.1
    (q.1, r.2.add q.2)

/-- One level back: sums and differences of the first k columns into k sequence columns (R302). -/
def haarBackLevel (k : Nat) (l : List Nat) : List Nat × Exc :=
  let rs := (List.range (k / 2)).flatMap fun q =>
    let a := l.getD q 0
    let d := l.getD (k / 2 + q) 0
    [fnFadd 8 Rnd.rne (readFloat 8 false a) (readFloat 8 false d), fnFsub 8 Rnd.rne (readFloat 8 false a) (readFloat 8 false d)]
  (rs.map (·.1) ++ l.drop k, Exc.sum (rs.map (·.2)))

/-- From level `n` back to the sequence domain; `k` columns are involved at the present level. -/
def haarBackward : Nat → Nat → List Nat → List Nat × Exc
  | 0, _, l => (l, Exc.none)
  | n + 1, k, l =>
    let r := haarBackLevel k l
    let q := haarBackward n (2 * k) r.1
    (q.1, r.2.add q.2)

/-- An element of a type decoded to an fp32 pattern, and what that raises: NV when a NaN signals (R143, R276, R302).  fp64 is
rounded. -/
def toFp32 (ty bits : Nat) : Nat × Exc := if ty = 8 then (bits, Exc.none) else roundTo 8 Rnd.rne (readElem ty false bits)

/-- The first column of the details: the approximation has 32 ÷ 2^L columns. -/
def approxCols (level : Nat) : Nat := 32 / 2 ^ level

/-- Is the magnitude of an fp32 pattern below the threshold pattern T, as numbers (R299)? -/
def belowT (x t : Nat) : Bool :=
  match readFloat 8 false (x % 2 ^ 31), readFloat 8 false t with
  | .nan .., _ => false
  | _, .nan .. => false
  | a, b => a.below false b

/-- The survival map of a transformed tile: columns of the approximation, and detail columns none of whose
coefficients is a NaN and whose largest is not below T (R299). -/
def survivors (level t : Nat) (cols : Nat → List Nat) : Word :=
  maskOf fun j => decide (j < approxCols level) || !((cols j).all fun x => belowT x t)

/-- A tile in registers, transformed to a level: for each of 32 columns the fp32 features 0 to 31, and what was
raised (R276, steps 2 and 3). -/
def Warp.forwardTile (w : Warp) (t level : Nat) : List (List Nat) × Exc :=
  let ty := (w.tag t).fmt
  let rs := (List.range 32).map fun f =>
    let src := (List.range 32).map fun n => if f < tileCount ty then toFp32 ty (w.tileElem ty t n f) else (0, Exc.none)
    let r := haarForward level 32 (src.map (·.1))
    (r.1, (Exc.sum (src.map (·.2))).add r.2)
  (rs.map (·.1), (Exc.sum (rs.map (·.2))).once)

/-- The coefficient of column j, feature f. -/
def coef (fs : List (List Nat)) (j f : Nat) : Nat := (fs.getD f []).getD j 0

/-- The copy of a tile tagged HAAR that R302 builds: element e of lane n in the tile's format, and what was raised. -/
def Warp.reconstruct (w : Warp) (t : Nat) : (Nat → Nat → Nat) × Exc :=
  let tg := w.tag t
  let ty := tg.fmt
  let rs := (List.range (tileCount ty)).map fun e =>
    let src := (List.range 32).map fun n =>
      if tg.survival.getLsbD n then toFp32 ty (w.tileElem ty t n e) else (0, Exc.none)
    let r := haarBackward tg.level (2 * approxCols tg.level) (src.map (·.1))
    (r.1, (Exc.sum (src.map (·.2))).add r.2)
  let out := rs.map fun r => r.1.map fun x => if ty = 8 then (x, Exc.none) else roundTo ty Rnd.rne (readFloat 8 false x)
  (fun n e => ((out.getD e []).getD n (0, Exc.none)).1,
    ((Exc.sum (rs.map (·.2))).add (Exc.sum (out.map fun l => Exc.sum (l.map (·.2))))).once)

/-- A counter of 32 bits that stops at its greatest value, one more. -/
def countUp (x : Word) : Word := if x = BitVec.allOnes 32 then x else x + 1

/-- `qcvt vD, tA, sB` (R170, R174). -/
def execQcvt (d a b : BitVec 7) (s : State) : Host.Outcome State Fault Refusal :=
  issueWord (fun v =>
    { reads := .s b.toNat :: tileRegs a.toNat, writes := packedList v.type d.toNat, long := true,
      ok := packType v.type && d.toNat % packedRegs v.type == 0 && decide (a.toNat < 16) && (v.w.tag a.toNat).fmt == 8 })
    (fun v s =>
    let haar := (v.w.tag a.toNat).level != 0
    let copy := v.w.reconstruct a.toNat
    let vals := fun (n : Nat) => (List.range 8).map fun j =>
      if haar then copy.1 n j else ((v.w.vreg (8 * a.toNat + j)).get n).toNat
    let r := v.elems fun n => quantise v n (v.bandScale (modeFtz v.f.mode) b) (vals n)
    let exc := if haar then r.2.add copy.2 else r.2
    .done ((s.addOp v.src (.result (((List.range (packedRegs v.type)).map fun i =>
        .v (d.toNat + i) v.act (Lanes.ofFn fun n => BitVec.ofNat 32 (r.1.getD n 0 / 2 ^ (32 * i)))) ++
        (if haar then [.haarcnt] else [])) exc) true false).mapWarp v.key v.advance)) s

end Sys2Proof.Machine
end

