-- ==== Sys2Proof/Machine/Mem.lean ====
section
/-! DEFINITION. Loads, stores, compacting stores, prefetches and page requests as they issue (R186 to R200, R224 to
R231, R276). -/

namespace Sys2Proof.Machine

/-! ## Pages and lanes -/

/-- The element type that a typed page stores (R195). -/
def PageType.stored : PageType → Option Nat
  | .fp4s => some 13 | .fp8e4 => some 11 | .fp8e5 => some 12 | .bf16 => some 9
  | _ => none

/-- The number of stored elements in a lane's bytes (R197). -/
def storedCount (stored size : Nat) : Nat := 8 * size / elemWidth stored

/-- Is the layout of R197 met: a floating MODE.TYPE, at least one element, 8, 16, 32 or 64 bits in registers, an even D
for 64? -/
def layoutOk (ty d stored size : Nat) : Bool :=
  let bits := storedCount stored size * elemWidth ty
  isFloat ty && decide (0 < storedCount stored size) && [8, 16, 32, 64].contains bits && (bits != 64 || d % 2 == 0)

/-- Do the bytes lie in the code area of an FP4S page (R196)? -/
def inCodes (x : Xlat) (size : Nat) : Bool :=
  let g := fp4sGeom x.leaf.w1
  decide (x.pa - (x.pa - x.pa % 2 ^ x.log) + size ≤ g.1 * g.2 / 2)

/-- The number of bytes of an object's header (R246, R253). -/
def headerBytes : Nat := 64

/-- The offset of an address in its sketch object (R196). -/
def objectOffset (x : Xlat) : Nat := x.pa % 2 ^ x.log % 2 ^ x.leaf.w1

/-- Does a page's type admit a load (R195, R197, R224)?  A HAAR page admits a tile load, whose D is a multiple of 8; the rest
of its checks come afterwards. -/
def loadTypeOk (v : View) (b : Buf) (d : Nat) (_ : Nat) (x : Xlat) : Bool :=
  match b.pageType x with
  | .plain => true
  | .haar => d % 8 == 0
  | .fp4s => layoutOk v.type d 13 b.size && inCodes x b.size
  | .fp8e4 => layoutOk v.type d 11 b.size
  | .fp8e5 => layoutOk v.type d 12 b.size
  | .bf16 => layoutOk v.type d 9 b.size
  | .sketch => decide (objectOffset x + b.size ≤ headerBytes)

/-- PLAIN pages only. -/
def plainOnly (b : Buf) (_ : Nat) (x : Xlat) : Bool := b.pageType x == .plain

/-- What the active lanes come to. -/
def View.reachAll (v : View) (s : State) (b : Buf) (clamp soft read write mapOk : Bool) (typeOk : Nat → Xlat → Bool)
    (u : BitVec 1) (a : BitVec 7) : List LaneFault × List (Nat × Reached) :=
  splitLanes ((laneList v.act).map fun n =>
    (n, s.reach v.crew b clamp soft b.size read write mapOk typeOk n (v.indexAt u a n)))

/-- The lanes of a list of answers that satisfy a test. -/
def reachedLanes (l : List (Nat × Reached)) (p : Reached → Bool) : LaneMask :=
  maskOf fun n => l.any fun e => e.1 == n && p e.2

/-- The page of an answer. -/
def Reached.page (b : Buf) : Reached → Page
  | .mem _ x => b.page x
  | _ => Page.none

/-- The accesses of the lanes that reached a place, with their data. -/
def accessesOf (l : List (Nat × Reached)) (size : Nat) (data : Nat → List (BitVec 8)) : List Access :=
  l.filterMap fun e => e.2.place.map fun p => ⟨e.1, BitVec.ofNat 64 e.2.addr, p, size, data e.1, none⟩

/-- The page of a group of accesses of one line. -/
def groupPage (b : Buf) (l : List (Nat × Reached)) (g : List Access) : Page :=
  match g with
  | [] => Page.none
  | x :: _ => ((l.find? fun e => e.1 == x.lane).map fun e => e.2.page b).getD Page.none

/-- Registers beyond those that the word's form shows: their checks (R75, R85), and that of an uncorrectable error in those that the
word reads (R71). -/
def View.extraFault (v : View) (regs : List Reg) (reads : Bool := false) : Option FaultInfo :=
  if !regs.all v.w.hasReg then some v.illegal
  else if regs.any (v.w.hazard v.f.mask) then some (v.cause causeHazard)
  else if reads && regs.any v.w.bad.contains then some (v.cause causeData)
  else none

/-- Make further registers pending (R85). -/
def State.pend (s : State) (v : View) (regs : List Reg) : State :=
  if regs.isEmpty then s
  else s.mapWarp v.key fun w => { w with pending := w.pending ++ [⟨s.nextId, regs, v.c.flag, v.f.mask⟩] }

/-- The generator state of the issuing warp. -/
def View.draws (v : View) : Draws := ⟨v.w.rseed, v.w.rdraw⟩

/-- A fault of a whole word in some lanes. -/
def laneFault (c : Nat) (m : LaneMask) (a : Nat) : FaultInfo := { cause := c, lanes := m, addr := BitVec.ofNat 64 a }

/-- Add one request for each line, in ascending order (R189). -/
def State.addLines (s : State) (src : Src) (gs : List (List Access)) (kind : List Access → OpKind)
    (granted : List Access → Bool) : State :=
  gs.foldl (fun t g => t.addPart s.nextId src (kind g) (granted g)) s

/-- Do accesses stand outside memory, in the map or the fabric? -/
def offMemory (g : List Access) : Bool := g.any fun x => match x.place with
  | .pa _ => false
  | _ => true

/-- Do accesses stand in the map?  What they read comes from no home, and what they write goes to none, so that they take no
miss-status entry and no write-buffer slot (R190). -/
def onMapOnly (g : List Access) : Bool := g.any fun x => match x.place with
  | .map _ => true
  | _ => false

/-! ## What a lane takes over the fabric (R330) -/

/-- One byte more marks the data of an access through a RAW record to the fabric, whose pages are PLAIN to it (R195). -/
def Buf.rawMark (b : Buf) : List (BitVec 8) := if b.fab && b.raw then [1] else []

/-- What a load over the fabric keeps of its word in place of the page: 1 through a RAW record, 2 for `ld.acq`, which admits PLAIN
pages only (R195, R231). -/
def Buf.fabLook (b : Buf) (strong : Bool) : Page := { Page.none with geom := if !b.fab then 0 else if b.raw then 1 else if strong then 2 else 0 }

/-- A tile as it stands, for a target that turns out to be a HAAR page (R276): its eight registers in every lane, its format and
level, and the threshold. -/
def View.tileBytes (v : View) (t : Nat) : List (BitVec 8) :=
  ((List.range 8).flatMap fun i => (List.range 32).flatMap fun n => leBytes ((v.w.vreg (8 * t + i)).get n).toNat 4) ++
    leBytes (v.w.tag t).fmt 1 ++ leBytes (v.w.tag t).level 1 ++ leBytes (v.w.wt.getD v.w.wsel 0).toNat 4

/-- What keeps registers that only a typed target page makes a store read (R197, R276) from being read: 1 a pending write (R85), 2
an uncorrectable error (R71). -/
def View.mark (v : View) (regs : List Reg) : Nat :=
  if regs.any (v.w.hazard v.f.mask) then 1 else if regs.any v.w.bad.contains then 2 else 0

/-- What a lane of `st` carries to its target: its register and the next, the generator state, the register's number with 128 more
under RAW, the marks of the next register and, times 4, of the tile, and of a tile's first register the tile. -/
def View.fabBytes (v : View) (b : Buf) (d n : Nat) : List (BitVec 8) :=
  leBytes (v.w.laneBits true d n) 8 ++ leBytes v.w.rseed.toNat 4 ++ leBytes (v.w.rdraw.get n).toNat 4 ++
    [BitVec.ofNat 8 (d + 128 * b.raw.toNat), BitVec.ofNat 8 (v.mark [.v (d + 1)] + 4 * v.mark (tileRegs (d / 8)))] ++
    (if d % 8 = 0 ∧ !b.raw then v.tileBytes (d / 8) else [])

/-- What a lane of a strong or compacting store carries: its bytes, which a PLAIN page takes; as `st` does through a RAW record to
the fabric. -/
def View.plainBytes (v : View) (b : Buf) (d n : Nat) : List (BitVec 8) :=
  if b.fab && b.raw then v.fabBytes b d n else leBytes (v.w.laneBits (b.esz == 3) d n) b.size

/-! ## Loads (R224) -/

/-- The registers that a load's form shows. -/
def shapeLoad (d a : BitVec 7) (b : BitVec 4) (p : Option (BitVec 3)) (u : BitVec 1) (ok : Bool) (v : View) : Shape :=
  let buf := bufOf (v.w.breg b.toNat)
  { reads := [indexReg u a, .b b.toNat],
    writes := laneRegs (buf.esz == 3) d.toNat ++ (match p with
      | some p => [.p p.toNat]
      | none => []),
    long := true, ok := ok && pairOk (buf.esz == 3) d.toNat }

/-- The causes of the lanes of a tile access (R224, R276), given those that lanes have of their own: the lowest lane in extent must
stand at the start of a slot, and every lane in extent fails when their indexes differ or the tile's format is not admitted.  A
lane with several causes has the lowest (R55). -/
def tileFaults (l : List (Nat × Reached)) (own : List LaneFault) (idx : Nat → Nat) (extent : Nat) (formatOk : Bool) :
    List LaneFault :=
  let at' := fun (n : Nat) => match l.find? fun e => e.1 == n && e.2.inExtent, own.find? fun x => x.lane == n && decide (idx n < extent) with
    | some e, _ => some (BitVec.ofNat 64 e.2.addr)
    | none, some x => some x.addr
    | none, none => none
  let ins := (List.range 32).filterMap fun n => (at' n).map fun a => (n, a)
  match ins with
  | (n0, a0) :: _ =>
    let bad := !formatOk || ins.any fun e => idx e.1 != idx n0
    let tile : List LaneFault := ins.filterMap fun e =>
      if e.1 = n0 ∧ a0.toNat % 8192 ≠ 0 then some ⟨e.1, causeMisaligned, e.2, 0, none⟩
      else if bad then some ⟨e.1, causeType, e.2, 0, none⟩
      else none
    own.filter (fun x => !tile.any fun y => y.lane == x.lane && decide (y.cause < x.cause)) ++
      tile.filter fun y => !own.any fun x => x.lane == y.lane && decide (x.cause ≤ y.cause)
  | [] => own

/-- Writes of zero to a register, or to a pair. -/
def zeroWrites (d : Nat) (wide : Bool) (m : LaneMask) : List RegWrite :=
  if m = 0 then [] else .v d m Lanes.zero :: (if wide then [.v (d + 1) m Lanes.zero] else [])

/-- Writes of zero to the eight registers of a tile (R276). -/
def zeroTile (t : Nat) (m : LaneMask) : List RegWrite :=
  if m = 0 then [] else (List.range 8).map fun j => .v (8 * t + j) m Lanes.zero

/-- What the issuing load writes when its last lane has its value (R54, R84). -/
def View.loadWord (v : View) (s : State) (d size : Nat) (also : List RegWrite) (ordinary : Bool) : LoadWord :=
  ⟨s.nextId, d, size, v.draws, also, ordinary⟩

/-- A load none of whose lanes reads: one request, which only writes what the word writes besides (R183, R224). -/
def State.addEmptyLoad (s : State) (v : View) (d size : Nat) (also : List RegWrite) : State :=
  s.addOp v.src (.load (v.loadWord s d size also true) Page.none false [] []) true false

/-- The 4-byte words of a slot that a tile load under an element type reads: MAP, and the features of each of 32 columns
(R276). -/
def slotWords (ty : Nat) : List Nat :=
  0 :: (List.range 32).flatMap fun c => (List.range (tileCount ty)).map fun f => 64 + 128 * c + 4 * f

/-- The lines of a slot, ascending, each with its words of a list (R189). -/
def slotLines (ws : List Nat) : List (List Nat) :=
  ((List.range 17).map fun i => ws.filter fun w => w / 256 == i).filter fun l => !l.isEmpty

/-- A tile load of the slot that the lowest lane in extent names (R224, R276): one request for each line; lanes out of extent
under CLAMP receive zero. -/
def tileLoad (v : View) (s : State) (cached : Bool) (d : Nat) (also : List RegWrite) (l : List (Nat × Reached)) : Res :=
  match l.find? fun e => e.2.place.isSome with
  | some (n0, .mem a x) =>
    match v.extraFault ((tileRegs (d / 8)).drop 1) with
    | some x => .fault s x
    | none =>
      let s1 := s.pend v ((tileRegs (d / 8)).drop 1)
      let word := v.loadWord s1 (d / 8) 4 (zeroTile (d / 8) (reachedLanes l fun r => !r.inExtent) ++ also) cached
      let page : Page := ⟨.haar, x.pa - x.pa % 2 ^ x.log, x.log, x.leaf.w1⟩
      .done (((slotLines (slotWords v.type)).foldl (fun s ws => s.addOp v.src
        (.tile word page cached ⟨n0, BitVec.ofNat 64 a, .pa x.pa, 4160, [], none⟩ (reachedLanes l Reached.inExtent) ws [])
        false false) s1).mapWarp v.key v.advance)
  | _ => .done s

/-- Is the page of a record's BASE a HAAR page, for a tile load none of whose lanes names a slot? -/
def State.haarBase (s : State) (v : View) (b : Buf) : Bool :=
  !b.raw && !b.fab && !isMap b.base &&
    match s.translate v.crew.ctx v.crew.core b.base true false with
    | .ok x => b.pageType x == .haar
    | .error _ => false

/-- May the first-level cache serve and take what a load reads there: an `ld` without BYP, on no SKETCH page (R180, R199)? -/
def Buf.cached (b : Buf) (home : Bool) (x : Xlat) : Bool := !home && !b.byp && x.leaf.typeCode != 6

/-- The effect of a load: `home` for `ldn`, which the first-level cache neither serves nor sees. -/
def loadBody (home : Bool) (d a : BitVec 7) (b : BitVec 4) (p : Option (BitVec 3)) (u : BitVec 1) (v : View) (s : State) :
    Res :=
  let buf := bufOf (v.w.breg b.toNat)
  let r := v.reachAll s buf buf.clamp buf.soft true false true (loadTypeOk v buf d.toNat) u a
  let isTile := r.2.any fun e => match e.2 with
    | .mem _ x => buf.pageType x == .haar
    | _ => false
  let bad := if isTile then tileFaults r.2 r.1 (v.indexAt u a) buf.extent (isFloat v.type && v.type != 13)
    else r.1 ++ s.dataFaults v.crew.core (buf.cached home) buf.size r.2
  if !bad.isEmpty then .fault s (mergeFaults bad true false)
  else
    let s1 := s.rememberAll v.crew r.2
    let soft := reachedLanes r.2 Reached.isSoft
    let zero := reachedLanes r.2 fun x => x.place.isNone
    let soft' : List RegWrite := match p with
      | some p => [.p p.toNat v.act soft]
      | none => []
    if isTile then
      match tileLoad v s1 (!home && !buf.byp) d.toNat soft' r.2 with
      | .fault _ x => .fault s x
      | res => res
    else if zero != 0 && (r.2.all fun e => e.2 == .dropped) && d.toNat % 8 == 0 && s.haarBase v buf then
      match v.extraFault ((tileRegs (d.toNat / 8)).drop 1) with
      | some x => .fault s x
      | none =>
        .done ((s1.pend v ((tileRegs (d.toNat / 8)).drop 1)).addEmptyLoad v d.toNat buf.size (zeroTile (d.toNat / 8) zero ++ soft'))
    else
      let typed := fun (e : Nat × Reached) => match e.2 with
        | .mem _ x => ((buf.pageType x).stored.map fun t => storedCount t buf.size * elemWidth v.type)
        | _ => none
      let wide := buf.esz != 3 && r.2.any fun e => typed e == some 64
      let extra : List Reg := if wide then [.v (d.toNat + 1)] else []
      match v.extraFault extra with
      | some x => .fault s x
      | none =>
        let also := zeroWrites d.toNat (buf.esz == 3 || wide) zero ++ soft'
        let s2 := s1.pend v extra
        let gs := groupLines (accessesOf r.2 buf.size fun _ => [])
        let page := fun (g : List Access) => if buf.fab then buf.fabLook false else groupPage buf r.2 g
        let cached := fun (g : List Access) => !offMemory g && r.2.any fun e => match g, e.2 with
          | y :: _, .mem _ x => e.1 == y.lane && buf.cached home x
          | _, _ => false
        let s3 := if gs.isEmpty then if also.isEmpty then s2 else s2.addEmptyLoad v d.toNat buf.size also
          else s2.addLines v.src gs (fun g => .load (v.loadWord s2 d.toNat buf.size also (!home && !buf.byp)) (page g) (cached g) g [])
            onMapOnly
        .done (if r.2.any fun e => (typed e).isSome then s3.mapWarp v.key v.advance else s3)

/-- A load (R224). -/
def loadWord (home : Bool) (d a : BitVec 7) (b : BitVec 4) (p : BitVec 3) (u q : BitVec 1) :
    State → Host.Outcome State Fault Refusal :=
  let pr := if q == 1 then some p else none
  issueWord (shapeLoad d a b pr u (q == 1 || p == 0)) (loadBody home d a b pr u)

/-- `ld vD, [bN, vI], pN` (R224). -/
def execLd (d a : BitVec 7) (b : BitVec 4) (p : BitVec 3) (u q : BitVec 1) (s : State) :
    Host.Outcome State Fault Refusal := loadWord false d a b p u q s

/-- `ldn vD, [bN, vI], pN` (R224). -/
def execLdn (d a : BitVec 7) (b : BitVec 4) (p : BitVec 3) (u q : BitVec 1) (s : State) :
    Host.Outcome State Fault Refusal := loadWord true d a b p u q s

/-- `ldk vD, [bN, vI]` (R225): it completes when the queries have been performed, and a cause found there is a fault of this
word (R388).  A lane that asks nothing has the answer 0 from the start. -/
def execLdk (d a : BitVec 7) (b : BitVec 4) (u : BitVec 1) (s : State) : Host.Outcome State Fault Refusal :=
  issueWord (fun v =>
    let buf := bufOf (v.w.breg b.toNat)
    let x := shapeLoad d a b none u (decide (2 ≤ buf.esz)) v
    { x with reads := x.reads ++ laneRegs (buf.esz == 3) d.toNat }) (fun v s =>
    let buf := bufOf (v.w.breg b.toNat)
    let r := v.reachAll s buf buf.clamp buf.soft true false false (fun _ x => buf.pageType x == .sketch) u a
    if !r.1.isEmpty then .fault s (mergeFaults r.1 true false)
    else
      let s1 := s.rememberAll v.crew r.2
      let zeros := (r.2.filter fun e => e.2.place.isNone).map fun e => (e.1, 0)
      let accs := (accessesOf r.2 buf.size fun n => leBytes (v.w.laneBits (buf.esz == 3) d.toNat n) 8 ++ buf.rawMark).map fun x =>
        (x, ((r.2.find? fun e => e.1 == x.lane).map fun e => e.2.page buf).getD Page.none)
      .done (if !accs.isEmpty then s1.addOp v.src (.query d.toNat buf.esz 0 0 accs zeros []) true false
        else if zeros.isEmpty then s1
        else s1.addEmptyLoad v d.toNat buf.size (zeroWrites d.toNat (buf.esz == 3) (reachedLanes r.2 fun x => x.place.isNone)))) s

/-! ## Stores (R226) -/

/-- The registers that a store's form shows. -/
def shapeStore (d a : BitVec 7) (b : BitVec 4) (u : BitVec 1) (ok : Bool) (v : View) : Shape :=
  let buf := bufOf (v.w.breg b.toNat)
  { reads := [indexReg u a, .b b.toNat] ++ laneRegs (buf.esz == 3) d.toNat,
    long := true, ok := ok && pairOk (buf.esz == 3) d.toNat }

/-- The packed elements of MODE.TYPE in a lane's register or pair (R197). -/
def View.packedElems (v : View) (d n count : Nat) : List Nat :=
  let w := elemWidth v.type
  let bits := v.w.laneBits (count * w == 64) d n
  (List.range count).map fun j => bitsOf bits (w * j) w

/-- An element of MODE.TYPE encoded in a stored type (R197): `RoundTo`, which clamps an infinity under SAT (R148). -/
def encodeElem (ty t : Nat) (r : Rnd) (bits : Nat) : Nat × Exc := roundTo t r (readElem ty r.ftz bits)

/-- A lane's bytes for a page, with what encoding raised (R195, R197). -/
def View.encode (v : View) (page : PageType) (d size n : Nat) : List (BitVec 8) × Exc :=
  match page.stored with
  | none => (leBytes (v.w.laneBits (size == 8) d n) size, Exc.none)
  | some 13 =>
    let es := v.packedElems d n (storedCount 13 size)
    (leBytes (packBits (elemWidth v.type) es) 8, Exc.none)
  | some t =>
    let es := v.packedElems d n (storedCount t size)
    let rs := es.mapIdx fun j x => encodeElem v.type t (v.rnd n j) x
    (leBytes (packBits (elemWidth t) (rs.map (·.1))) size, (Exc.sum (rs.map (·.2))).once)

/-- Does a page's type admit a store (R195, R197)?  A HAAR page admits a tile store, whose D is a multiple of 8 (R276); the
rest of its checks, and SKETCH pages, come afterwards. -/
def storeTypeOk (v : View) (b : Buf) (d : Nat) (_ : Nat) (x : Xlat) : Bool :=
  match b.pageType x with
  | .plain | .sketch => true
  | .haar => d % 8 == 0
  | .fp4s => layoutOk v.type d 13 b.size && inCodes x b.size
  | .fp8e4 => layoutOk v.type d 11 b.size
  | .fp8e5 => layoutOk v.type d 12 b.size
  | .bf16 => layoutOk v.type d 9 b.size

/-- The 4-byte words of a transformed tile, from the start of its slot, and what the transform raised (R276, R299). -/
def Warp.tileWords (w : Warp) (t level : Nat) : List Word × Exc :=
  let r := w.forwardTile t level
  let cols := fun (j : Nat) => (List.range 32).map fun f => coef r.1 j f
  let map := survivors level (w.wt.getD w.wsel 0).toNat cols
  (map :: List.replicate 15 0 ++ ((laneList map).flatMap fun j => (cols j).map (BitVec.ofNat 32 ·)), r.2)

/-- A tile store (R226, R276). -/
def tileStore (v : View) (s : State) (d : Nat) (l : List (Nat × Reached)) : Res :=
  match l.find? fun e => e.2.place.isSome with
  | some (n0, .mem a x) =>
    match v.extraFault (tileRegs (d / 8)) true with
    | some x => .fault s x
    | none =>
      let r := v.w.tileWords (d / 8) x.leaf.w1
      let gs := groupLines (r.1.mapIdx fun i w => ⟨n0, BitVec.ofNat 64 (a + 4 * i), .pa (x.pa + 4 * i), 4, leBytes w.toNat 4, none⟩)
      let s1 := s.addLines v.src (gs.take 1) (fun g => .store none r.2 g) fun _ => false
      .done (s1.addLines v.src (gs.drop 1) (fun g => .store none Exc.none g) fun _ => false)
  | _ => .done s

/-- The causes of lanes of a store on SKETCH pages (R226). -/
def sketchFaults (buf : Buf) (l : List (Nat × Reached)) : List LaneFault :=
  l.filterMap fun e => match e.2 with
    | .mem a x =>
      if buf.pageType x != .sketch then none
      else if buf.esz < 2 then some ⟨e.1, causeType, BitVec.ofNat 64 a, 0, none⟩
      else if objectOffset x < headerBytes then some ⟨e.1, causeHeader, BitVec.ofNat 64 a, 0, none⟩
      else none
    | _ => none

/-- The requests of a store's lanes: their bytes as encoded, line by line, and the inserts of those on SKETCH pages.  What a word
that ends in a fault makes for its other lanes raises no flags and takes no draw (R149, R157). -/
def storeLanes (v : View) (s : State) (buf : Buf) (d : Nat) (good : List (Nat × Reached)) (faulted : Bool) : State :=
  let src : Src := { v.src with faulted := faulted }
  let page := fun (n : Nat) => ((good.find? fun e => e.1 == n).map fun e => e.2.page buf).getD Page.none
  let enc := fun (n : Nat) => v.encode (page n).type d buf.size n
  let fab := fun (n : Nat) => good.any fun e => e.1 == n && match e.2 with
    | .fab _ => true
    | _ => false
  let accs := accessesOf good buf.size fun n =>
    if fab n then v.fabBytes buf d n else (enc n).1
  let isSk := fun (x : Access) => (page x.lane).type == .sketch
  let s1 := s.addLines src (groupLines (accs.filter fun x => !isSk x)) (fun g =>
    match g with
    | [] => .store none Exc.none g
    | x :: _ =>
      if (page x.lane).type == .fp4s then .fp4s (page x.lane) v.draws g
      else if fab x.lane then .store none Exc.none g
      else .store none (if faulted then Exc.none else Exc.sum (g.map fun y => (enc y.lane).2)) (highestWrites g)) onMapOnly
  let ins := (accs.filter isSk).map fun x => (x, page x.lane)
  let s2 := if ins.isEmpty then s1 else (s1.addOp src (.insert false buf.esz 0 ins) false false).endRegion v
  if !faulted && good.any fun e => (page e.1).type.stored.isSome then s2.mapWarp v.key v.advance else s2

/-- The effect of a store (R54, R226): a cause in any lane keeps every lane from being stored, but for an ESZ that no insert
takes, beside which the lanes that have no cause of their own are written. -/
def storeBody (d a : BitVec 7) (b : BitVec 4) (u : BitVec 1) (v : View) (s : State) : Res :=
  let buf := bufOf (v.w.breg b.toNat)
  let r := v.reachAll s buf buf.clamp false false true true (storeTypeOk v buf d.toNat) u a
  let isTile := r.2.any fun e => match e.2 with
    | .mem _ x => buf.pageType x == .haar
    | _ => false
  let tg := v.w.tag (d.toNat / 8)
  let bad := if isTile then tileFaults r.2 r.1 (v.indexAt u a) buf.extent (tg.level == 0 && isFloat tg.fmt && tg.fmt != 13) else r.1
  let sk := sketchFaults buf (r.2.filter fun e => !bad.any fun x => x.lane == e.1)
  let all := bad ++ sk
  if !all.isEmpty && (sk.isEmpty || 2 ≤ buf.esz) then .fault s (mergeFaults all false true)
  else
    let s1 := s.rememberAll v.crew r.2
    if isTile && all.isEmpty then tileStore v s1 d.toNat r.2
    else
      let good := r.2.filter fun e => !all.any fun x => x.lane == e.1
      let wide := buf.esz != 3 && good.any fun e =>
        ((e.2.page buf).type.stored.map fun t => storedCount t buf.size * elemWidth v.type) == some 64
      match v.extraFault (if wide then [.v (d.toNat + 1)] else []) true with
      | some x => .fault s x
      | none =>
        let s2 := storeLanes v s1 buf d.toNat good (!all.isEmpty)
        if all.isEmpty then .done s2 else .fault s2 (mergeFaults all false true)

/-- `st [bN, vI], vD` (R226). -/
def execSt (d a : BitVec 7) (b : BitVec 4) (u : BitVec 1) (s : State) : Host.Outcome State Fault Refusal :=
  issueWord (shapeStore d a b u true) (storeBody d a b u) s

/-- The elements of a compacting store, lane by lane, up to the first that fails (R227): the accesses, and the failing
lane's element index with its fault. -/
def compact (v : View) (s : State) (b : Buf) (data : Nat → List (BitVec 8)) :
    List Nat → Nat → List (Nat × Reached) → List (Nat × Reached) × Option (Nat × LaneFault)
  | [], _, acc => (acc, none)
  | n :: ns, i, acc =>
    match s.reach v.crew b b.clamp false b.size false true true (plainOnly b) n i with
    | .error x => (acc, some (i, x))
    | .ok r => compact v s b data ns ((i + 1) % 2 ^ 32) (acc ++ [(n, r)])

/-- `cstore [bN, sK], vD` (R227). -/
def execCstore (d a : BitVec 7) (b : BitVec 4) (u : BitVec 1) (s : State) : Host.Outcome State Fault Refusal :=
  issueWord (shapeStore d a b u true) (fun v s =>
    let buf := bufOf (v.w.breg b.toNat)
    let lanes := laneList v.act
    let data := v.plainBytes buf d.toNat
    let i0 := v.indexAt u a (lanes.headD 0)
    let r := compact v s buf data lanes i0 []
    let s1 := (s.rememberAll v.crew r.1).addLines { v.src with first := some i0 } (groupLines (accessesOf r.1 buf.size data))
      (fun g => .store none Exc.none (highestWrites g)) onMapOnly
    match r.2 with
    | none => .done s1
    | some (i, x) =>
      .fault s1 { cause := x.cause, lanes := maskOf fun n => v.act.getLsbD n && decide (x.lane ≤ n), addr := x.addr,
                  info := BitVec.ofNat 32 i, granule := x.granule, read := false, write := true }) s

/-! ## Prefetches and page requests (R228, R229) -/

/-- `pref [bN, vI]` (R228). -/
def execPref (a : BitVec 7) (b : BitVec 4) (u : BitVec 1) (s : State) : Host.Outcome State Fault Refusal :=
  issueWord (fun _ => { reads := [indexReg u a, .b b.toNat], long := true }) (fun v s =>
    let buf := bufOf (v.w.breg b.toNat)
    let r := v.reachAll s buf buf.clamp false true false false (fun _ _ => true) u a
    let silent := fun (x : LaneFault) => !(buf.raw && !s.privileged v.crew.ctx) && decide (0x12 ≤ x.cause ∧ x.cause ≤ 0x15) &&
      !isMap x.addr.toNat
    let bad := r.1.filter fun x => !silent x
    if !bad.isEmpty then .fault s (mergeFaults bad true false)
    else
      let sectors := (r.2.filterMap fun e => match e.2 with
        | .mem _ x => if x.leaf.leafOk x.log && x.leaf.typeCode != 6 then some (x.pa / 64) else none
        | _ => none).eraseDups
      let s1 := s.rememberAll v.crew r.2
      .done (if sectors.isEmpty then s1 else s1.addOp v.src (.prefetch sectors) false false)) s

/-- The page-request records of a `pgreq`: each granule with its lanes and its lowest address, ascending (R229). -/
def insertGranule (n a : Nat) : List (Nat × LaneMask × Nat) → List (Nat × LaneMask × Nat)
  | [] => [(a / 65536, maskOf (· == n), a)]
  | (g, m, x) :: rest =>
    if a / 65536 = g then (g, m ||| maskOf (· == n), Nat.min x a) :: rest
    else if a / 65536 < g then (a / 65536, maskOf (· == n), a) :: (g, m, x) :: rest
    else (g, m, x) :: insertGranule n a rest

/-- `pgreq [bN, vI]` (R229): its records go to the producer of the fault queue, and it completes when the queue has accepted
them.  A fabric address names the granule that it lies in, as any address does (notes/assumptions/45). -/
def execPgreq (a : BitVec 7) (b : BitVec 4) (u : BitVec 1) (s : State) : Host.Outcome State Fault Refusal :=
  issueWord (fun _ => { reads := [indexReg u a, .b b.toNat], long := true }) (fun v s =>
    let buf := bufOf (v.w.breg b.toNat)
    let rs := (laneList v.act).map fun n => (n, buf.index buf.clamp buf.size (v.indexAt u a n))
    let raw := buf.raw && !s.privileged v.crew.ctx
    let bad : List LaneFault := rs.filterMap fun e => match e.2 with
      | .bad c x => some ⟨e.1, c, BitVec.ofNat 64 x, v.indexAt u a e.1, none⟩
      | .at x =>
        if raw then some ⟨e.1, causePermission, 0, 0, none⟩
        else if isMap x && !buf.fab then some ⟨e.1, causeType, BitVec.ofNat 64 x, 0, none⟩
        else none
      | .dropped => none
    if !bad.isEmpty then .fault s (mergeFaults bad true false)
    else
      let gs := rs.foldl (fun l e => match e.2 with
        | .at x => insertGranule e.1 x l
        | _ => l) []
      let records := gs.map fun g => s.recordOf v.w v.f
        { cause := causePageRequest, lanes := g.2.1, addr := BitVec.ofNat 64 g.2.2 } v.c.pos v.c.header v.f.region.isNone 0 false
      let s1 := records.foldl (fun s x => s.postFault v.crew.ctx x) s
      .done (if records.isEmpty then s1 else s1.addOp v.src (.pageRequest (records.map FaultRecord.words)) true false)) s

/-! ## Strong accesses (R231) -/

/-- `ld.acq vD, [bN, vI], obs` (R231): holds its fragment until the load has completed and the acquire is had; held, it keeps the
record that it issued with (R233). -/
def execLdAcq (d a : BitVec 7) (o : BitVec 6) (u : BitVec 1) (b : BitVec 4) (s : State) : Host.Outcome State Fault Refusal :=
  issueWord (fun v => if v.f.waitOp.isSome then { long := true } else shapeLoad d a b none u (o != 0) v) (fun v s =>
    match v.f.waitOp with
    | some lim => if s.loadsDone v.key lim then .done (s.acquire v.crew.core o) else .hold s .held
    | none =>
      let buf := bufOf (v.w.breg b.toNat)
      let r := v.reachAll s buf buf.clamp false true false true (plainOnly buf) u a
      let bad := r.1 ++ s.dataFaults v.crew.core (fun _ => false) buf.size r.2
      if !bad.isEmpty then .fault s (mergeFaults bad true false)
      else
        let also := zeroWrites d.toNat (buf.esz == 3) (reachedLanes r.2 fun x => x.place.isNone)
        let s1 := (s.rememberAll v.crew r.2).pend v (laneRegs (buf.esz == 3) d.toNat)
        let gs := groupLines (accessesOf r.2 buf.size fun _ => [])
        let s2 := if gs.isEmpty then if also.isEmpty then s1 else s1.addEmptyLoad v d.toNat buf.size also
          else s1.addLines v.src gs (fun g => .load (v.loadWord s1 d.toNat buf.size also false) (buf.fabLook true) false g []) onMapOnly
        v.holdAt s2 .held) s

/-- `st.rel [bN, vI], vD, obs` (R231); with no active lane it acts as `fence.rel`. -/
def execStRel (d a : BitVec 7) (o : BitVec 6) (u : BitVec 1) (b : BitVec 4) (s : State) : Host.Outcome State Fault Refusal :=
  issueWord (shapeStore d a b u (o != 0)) (fun v s =>
    if v.act = 0 then v.afterRelease s o .held fun t => .done t
    else
      let buf := bufOf (v.w.breg b.toNat)
      let r := v.reachAll s buf buf.clamp false false true true (plainOnly buf) u a
      if !r.1.isEmpty then .fault s (mergeFaults r.1 false true)
      else
        .done ((s.rememberAll v.crew r.2).addLines v.src
          (groupLines (accessesOf r.2 buf.size (v.plainBytes buf d.toNat)))
          (fun g => .store (some o) Exc.none (highestWrites g)) onMapOnly)) s

/-! ## Atomics (R230) -/

/-- Is MODE.TYPE one that the operation takes at a width (R230)? -/
def atomTypeOk (op : AtomOp) (ty esz : Nat) : Bool :=
  match op with
  | .add | .min | .max => decide (ty < 7 ∨ (ty = 8 ∧ esz = 2) ∨ (ty = 7 ∧ esz = 3))
  | _ => true

/-- An atomic or `cas` (R230): `cmp` says that D is compared with. -/
def atomWord (op : AtomOp) (d a bv : BitVec 7) (n : BitVec 4) : State → Host.Outcome State Fault Refusal :=
  issueWord (fun v =>
    let buf := bufOf (v.w.breg n.toNat)
    let wide := buf.esz == 3
    { reads := [.v a.toNat, .b n.toNat] ++ laneRegs wide bv.toNat ++ (if op == .cas then laneRegs wide d.toNat else []),
      writes := laneRegs wide d.toNat, long := true,
      ok := decide (2 ≤ buf.esz) && pairOk wide d.toNat && pairOk wide bv.toNat && atomTypeOk op v.type buf.esz }) fun v s =>
    let buf := bufOf (v.w.breg n.toNat)
    let wide := buf.esz == 3
    let r := v.reachAll s buf buf.clamp false true true false (plainOnly buf) 0 a
    let bad := r.1 ++ s.dataFaults v.crew.core (fun _ => false) buf.size r.2
    if !bad.isEmpty then .fault s (mergeFaults bad true true)
    else
      let s1 := s.rememberAll v.crew r.2
      let zeros := zeroWrites d.toNat wide (reachedLanes r.2 fun x => x.place.isNone)
      let s2 := if zeros.isEmpty then s1 else s1.addOp v.src (.result zeros Exc.none) true false
      let accs := accessesOf r.2 buf.size fun l => leBytes (v.w.laneBits wide bv.toNat l) buf.size ++ buf.rawMark
      let touched := fun (pa : Nat) => accs.any fun x => match x.place with
        | .pa y => y / 64 == pa / 64
        | _ => false
      let s3 := (s2.writeBack v.crew.core touched).dropSectors v.crew.core touched
      .done ((if accs.isEmpty then s3
        else s3.addOp v.src (.atomic op d.toNat buf.size
          (accs.map fun x => BitVec.ofNat 64 (v.w.laneBits wide d.toNat x.lane)) accs) true false).endRegion v)

/-- `atom.add vD, [bN, vI], vB` (R230). -/
def execAtomAdd (d a b : BitVec 7) (n : BitVec 4) (s : State) : Host.Outcome State Fault Refusal := atomWord .add d a b n s
/-- `atom.min vD, [bN, vI], vB` (R230). -/
def execAtomMin (d a b : BitVec 7) (n : BitVec 4) (s : State) : Host.Outcome State Fault Refusal := atomWord .min d a b n s
/-- `atom.max vD, [bN, vI], vB` (R230). -/
def execAtomMax (d a b : BitVec 7) (n : BitVec 4) (s : State) : Host.Outcome State Fault Refusal := atomWord .max d a b n s
/-- `atom.and vD, [bN, vI], vB` (R230). -/
def execAtomAnd (d a b : BitVec 7) (n : BitVec 4) (s : State) : Host.Outcome State Fault Refusal := atomWord .and d a b n s
/-- `atom.or vD, [bN, vI], vB` (R230). -/
def execAtomOr (d a b : BitVec 7) (n : BitVec 4) (s : State) : Host.Outcome State Fault Refusal := atomWord .or d a b n s
/-- `atom.xor vD, [bN, vI], vB` (R230). -/
def execAtomXor (d a b : BitVec 7) (n : BitVec 4) (s : State) : Host.Outcome State Fault Refusal := atomWord .xor d a b n s
/-- `atom.exch vD, [bN, vI], vB` (R230). -/
def execAtomExch (d a b : BitVec 7) (n : BitVec 4) (s : State) : Host.Outcome State Fault Refusal := atomWord .exch d a b n s
/-- `cas vD, [bN, vI], vB` (R230). -/
def execCas (d a b : BitVec 7) (n : BitVec 4) (s : State) : Host.Outcome State Fault Refusal := atomWord .cas d a b n s

end Sys2Proof.Machine
end

