-- ==== Sys2Proof/Machine/Sketch.lean ====
section
/-! DEFINITION. Sketch objects: headers, kinds and parameters (R246, R253, R254), hashes (R247, R256), estimates (R262),
quantiles (R264, R265), reports and events (R257 to R259), merging and folding (R269, R271). -/

namespace Sys2Proof.Machine

/-! ## Objects (R246, R253) -/

/-- An object as its home reads it: physical and virtual base, log₂ size, the header words, and the body cells. -/
structure Sketch where
  pa : Nat
  va : Nat
  osz : Nat
  d : List Nat
  body : List Nat
  deriving DecidableEq, Repr

/-- Header word i. -/
def Sketch.h (x : Sketch) (i : Nat) : Nat := x.d.getD i 0

def Sketch.kind (x : Sketch) : Nat := bitsOf (x.h 0) 0 8
def Sketch.mix (x : Sketch) : Bool := bitsOf (x.h 0) 8 1 == 1
def Sketch.reports (x : Sketch) : Bool := bitsOf (x.h 0) 9 1 == 1
def Sketch.wide (x : Sketch) : Nat := bitsOf (x.h 0) 10 1
def Sketch.k (x : Sketch) : Nat := bitsOf (x.h 0) 16 4
def Sketch.res (x : Sketch) : Nat := bitsOf (x.h 0) 20 4
def Sketch.size (x : Sketch) : Nat := bitsOf (x.h 0) 32 32
def Sketch.thr (x : Sketch) : Nat := bitsOf (x.h 1) 0 16
def Sketch.fill (x : Sketch) : Nat := bitsOf (x.h 1) 32 32
def Sketch.n (x : Sketch) : Nat := x.h 2

/-- EMIN and ECOUNT of a quantile summary. -/
def Sketch.emin (x : Sketch) : Int := valueOf 8 true (bitsOf x.size 24 8)
def Sketch.ecount (x : Sketch) : Nat := bitsOf x.size 16 8
/-- Buckets per side of a quantile summary (R264). -/
def Sketch.buckets (x : Sketch) : Nat := x.ecount * 2 ^ x.res

/-- Bytes of a counter, and its greatest value. -/
def Sketch.cell (x : Sketch) : Nat := 2 + 2 * x.wide
def Sketch.max (x : Sketch) : Nat := 2 ^ (8 * x.cell) - 1

/-- p of a distinct counter. -/
def Sketch.p (x : Sketch) : Nat := Nat.log2 x.size

/-- Body bytes that the parameters need. -/
def Sketch.need (x : Sketch) : Nat :=
  match x.kind with
  | 1 => (x.size + 7) / 8
  | 2 => x.k * x.size * x.cell
  | 3 => 6 * x.size / 8
  | 4 => (1 + 2 * x.buckets) * x.cell
  | _ => 0

/-- Are a header's fields ones that R253 gives for its kind, the body's size aside? -/
def Sketch.fieldsOk (x : Sketch) : Bool :=
  bitsOf (x.h 0) 24 8 == 0 && bitsOf (x.h 0) 11 5 == 0 && bitsOf (x.h 1) 20 12 == 0 &&
  match x.kind with
  | 1 => decide (1 ≤ x.size ∧ x.res = 0 ∧ 1 ≤ x.k ∧ x.k ≤ 8 ∧ x.wide = 0)
  | 2 => decide (1 ≤ x.size ∧ x.res = 0 ∧ 1 ≤ x.k ∧ x.k ≤ 8 ∧ x.thr = 0)
  | 3 => decide (x.size = 2 ^ x.p ∧ 4 ≤ x.p ∧ x.p ≤ 16 ∧ x.res = 0 ∧ x.k = 1 ∧ x.wide = 0 ∧ x.thr = 0)
  | 4 => decide (bitsOf x.size 0 16 = 0 ∧ 1 ≤ x.ecount ∧ x.emin + x.ecount ≤ 128 ∧ x.res ≤ 7 ∧ x.k = 0 ∧ x.thr = 0)
  | _ => false

/-- The kind that the object holds, 0 when its header holds no valid one (R225, R253). -/
def Sketch.held (x : Sketch) : Nat := if x.fieldsOk && decide (x.need + 64 ≤ 2 ^ x.osz) then x.kind else 0

/-- The object on a page that contains a physical address; `va` is the virtual address of the access. -/
def State.sketchAt (s : State) (p : Page) (a : Nat) (va : Addr) : Sketch :=
  let o := (a - p.base) % 2 ^ p.geom
  let pa := a - o
  ⟨pa, va.toNat - va.toNat % 2 ^ p.geom, p.geom, (List.range 8).map fun i => s.dword (pa + 8 * i), []⟩

/-- Body byte i of an object. -/
def State.bodyByte (s : State) (x : Sketch) (i : Nat) : Nat := (s.byte (x.pa + 64 + i)).toNat

/-- Body bit b. -/
def State.bodyBit (s : State) (x : Sketch) (b : Nat) : Bool := (s.bodyByte x (b / 8)).testBit (b % 8)

/-- A counter. -/
def State.counter (s : State) (x : Sketch) (i : Nat) : Nat := leNat (s.bytes (x.pa + 64 + i * x.cell) x.cell)

/-- A register of a distinct counter (R254). -/
def State.register (s : State) (x : Sketch) (j : Nat) : Nat :=
  (s.bodyByte x (6 * j / 8) + 256 * s.bodyByte x (6 * j / 8 + 1)) / 2 ^ (6 * j % 8) % 64

/-- The bytes of the body in which a cell stands: the first, and how many (R254). -/
def Sketch.cellSpan (x : Sketch) (i : Nat) : Nat × Nat :=
  match x.kind with
  | 1 => (i / 8, 1)
  | 3 => (6 * i / 8, if 2 < 6 * i % 8 then 2 else 1)
  | _ => (i * x.cell, x.cell)

/-- How many cells an object has. -/
def Sketch.count (x : Sketch) : Nat :=
  match x.kind with
  | 1 | 3 => x.size
  | 2 => x.k * x.size
  | 4 => 1 + 2 * x.buckets
  | _ => 0

/-- Does an operation that reads the header and some cells of an object consume uncorrectable data (R71)? -/
def State.objectBad (s : State) (x : Sketch) (cells : List Nat) : Bool :=
  s.uncorrectable x.pa 64 || cells.any fun i => s.uncorrectable (x.pa + 64 + (x.cellSpan i).1) (x.cellSpan i).2

/-- Every cell of an object, in the order of R254. -/
def State.cells (s : State) (x : Sketch) : List Nat :=
  match x.kind with
  | 1 => (List.range x.size).map fun b => (s.bodyBit x b).toNat
  | 2 => (List.range (x.k * x.size)).map (s.counter x)
  | 3 => (List.range x.size).map (s.register x)
  | 4 => (List.range (1 + 2 * x.buckets)).map (s.counter x)
  | _ => []

/-- Write a run of bytes that lies anywhere in an object, in pieces of 4 bytes. -/
def State.writeRun (s : State) (writer a : Nat) (bs : List (BitVec 8)) : State :=
  (List.range ((bs.length + 3) / 4)).foldl (fun s i => s.homeWrite writer (a + 4 * i) ((bs.drop (4 * i)).take 4)) s

/-- Write a header word. -/
def State.setHeader (s : State) (writer : Nat) (x : Sketch) (i v : Nat) : State :=
  s.homeWrite writer (x.pa + 8 * i) (leBytes v 8)

/-- Write a counter. -/
def State.setCounter (s : State) (writer : Nat) (x : Sketch) (i v : Nat) : State :=
  s.homeWrite writer (x.pa + 64 + i * x.cell) (leBytes v x.cell)

/-- Write a register of a distinct counter. -/
def State.setRegister (s : State) (writer : Nat) (x : Sketch) (j v : Nat) : State :=
  let at0 := 6 * j / 8
  let sh := 2 ^ (6 * j % 8)
  let old := s.bodyByte x at0 + 256 * s.bodyByte x (at0 + 1)
  let new := old - old / sh % 64 * sh + v * sh
  let s1 := s.homeWrite writer (x.pa + 64 + at0) (leBytes new 1)
  if 2 < 6 * j % 8 then s1.homeWrite writer (x.pa + 64 + at0 + 1) (leBytes (new / 256) 1) else s1

/-- The bytes of cells in the layout of R254. -/
def cellBytes (kind cell : Nat) (cs : List Nat) : List (BitVec 8) :=
  match kind with
  | 1 => (List.range ((cs.length + 7) / 8)).map fun i => BitVec.ofNat 8 (leBits 2 ((cs.drop (8 * i)).take 8))
  | 3 => (List.range ((6 * cs.length + 7) / 8)).map fun i =>
    let j := 8 * i / 6
    BitVec.ofNat 8 (leBits 64 ((cs.drop j).take 3) / 2 ^ (8 * i - 6 * j))
  | _ => cs.flatMap fun c => leBytes c cell
where
  /-- Digits to a base, least first. -/
  leBits (b : Nat) : List Nat → Nat
  | [] => 0
  | c :: cs => c + b * leBits b cs

/-! ## Hashes (R247, R256) -/

/-- `Mix`. -/
def mixKey (k : DWord) : DWord :=
  let k := k ^^^ (k >>> 31)
  let k := k * 0xD1B54A32D192ED03
  let k := k ^^^ (k >>> 29)
  let k := k * 0xAEF17502108EF2D9
  k ^^^ (k >>> 32)

/-- Hash i of a key. -/
def Sketch.hash (x : Sketch) (key i : Nat) : Nat :=
  let k : DWord := BitVec.ofNat 64 key
  let k := if x.mix then mixKey k else k
  let seed : DWord := BitVec.ofNat 64 (x.h (4 + i % 4)) + BitVec.ofNat 64 (i / 4) * 0x9E3779B97F4A7C15
  (k * (seed ||| 1)).toNat

/-- A hash reduced to an index below n. -/
def reduce (n h : Nat) : Nat :=
  if n = 2 ^ Nat.log2 n then h / 2 ^ (64 - Nat.log2 n) % n else h / 2 ^ 32 * n / 2 ^ 32

/-- Filter bit b_j of a key. -/
def Sketch.bitOf (x : Sketch) (key j : Nat) : Nat :=
  (reduce x.size (x.hash key 0) + j * reduce x.size (x.hash key 1)) % x.size

/-- The number of a key's counter in a row. -/
def Sketch.cellOf (x : Sketch) (key row : Nat) : Nat := row * x.size + reduce x.size (x.hash key row)

/-! ## Reports and events (R257 to R259) -/

/-- The sticky bits that report. -/
inductive Report where
  | sat | range | zclamp
  deriving DecidableEq, Repr

/-- Bit of d1, statistics counter, EVT. -/
def Report.bit : Report → Nat
  | .sat => 16 | .range => 18 | .zclamp => 17
def Report.stat : Report → Nat
  | .sat => 0 | .range => 1 | .zclamp => 2
def Report.evt : Report → Nat
  | .sat => 1 | .range => 2 | .zclamp => 3

/-- One more in a statistics counter of a context (R259). -/
def State.countStat (s : State) (ctx i : Nat) : State :=
  s.mapCtx ctx fun c => { c with skstats := (List.range 4).map fun j =>
    let x := c.skstats.getD j 0
    if j = i && x != BitVec.allOnes 32 then x + 1 else x }

/-- Write an event into the context's event queue, or drop it and count it (R258); `n` is N after the operation that
reports. -/
def State.writeEvent (s : State) (ctx : Nat) (x : Sketch) (n evt : Nat) : State × Bool :=
  match (Tab.lookup ctx s.ctxs).bind (·.eventQ) with
  | none => (s.countStat ctx 3, false)
  | some q =>
    match s.walkCtx ctx (q.base + 32 * (q.next % q.slots)) with
    | none => (s.countStat ctx 3, false)
    | some y =>
      if (s.word y.pa).getLsbD 23 then (s.countStat ctx 3, false)
      else
        let va : DWord := BitVec.ofNat 64 x.va
        let n : DWord := BitVec.ofNat 64 n
        let ws : List Word := [field 24 evt ||| field 23 1 ||| field 0 x.kind, 0, loWord va, hiWord va, loWord n, hiWord n,
          loWord s.time, hiWord s.time]
        let s1 := (s.homeWrite 0 (y.pa + 4) (wordsBytes (ws.drop 1))).homeWrite 0 y.pa (wordsBytes (ws.take 1))
        (s1.mapCtx ctx fun c => { c with eventQ := some { q with next := (q.next + 1) % q.slots } }, true)

/-- Set a sticky bit of a header. -/
def State.setSticky (s : State) (writer : Nat) (x : Sketch) (bit : Nat) : State :=
  let d1 := s.dword (x.pa + 8)
  if d1.testBit bit then s else s.setHeader writer x 1 (d1 + 2 ^ bit)

/-- `Report(bit)` (R257): the bit, the statistics counter, and under REPORT the event with EVENT when it was written; `n` is N
after the operation that reports. -/
def State.report (s : State) (writer ctx : Nat) (x : Sketch) (n : Nat) (r : Report) : State :=
  if (s.dword (x.pa + 8)).testBit r.bit then s
  else
    let s1 := (s.setSticky writer x r.bit).countStat ctx r.stat
    if !x.reports then s1
    else match s1.writeEvent ctx x n r.evt with
      | (t, true) => t.setSticky writer x 19
      | (t, false) => t

/-- Has the filter reached its threshold (R248)? -/
def Sketch.full (x : Sketch) (fill : Nat) : Bool := decide (x.thr * x.size ≤ fill * 65536)

/-! ## Estimates (R262) -/

/-- The exact decimal expression of α, as a fraction. -/
def alphaOf (p : Nat) : Nat × Nat :=
  match p with
  | 4 => (673, 1000) | 5 => (697, 1000) | 6 => (709, 1000)
  | _ => (7213 * 1000 * 2 ^ p, 10000 * (1000 * 2 ^ p + 1079))

/-- m·ln (m ÷ V) enclosed, for 0 < V < m. -/
def countingEnc (m v p : Nat) : Enclosure :=
  let e := (floorLog2 m v).toNat
  let a := lnScaled p m (v * 2 ^ e)
  let b := lnScaled p 4 3
  let c := lnScaled p 3 2
  ⟨(m * (e * (b.1 + c.1) + a.1) : Nat), (m * (e * (b.1 + c.1 + b.2 + c.2) + a.1 + a.2) : Nat), 2 ^ p⟩

/-- A fp64 pattern as a fraction. -/
def fracOf (bits : Nat) : Nat × Nat :=
  match readFloat 7 false bits with
  | .num _ n d => (n, d)
  | _ => (0, 1)

/-- The estimate of a distinct counter from its registers. -/
def estimateOf (p : Nat) (regs : List Nat) : Nat :=
  let m := 2 ^ p
  let v := (regs.filter (· == 0)).length
  let z := regs.foldl (fun n r => n + 2 ^ (64 - r)) 0
  let al := alphaOf p
  let a := fracOf (roundNum 7 Rnd.rne false al.1 al.2).1
  let e := fracOf (roundNum 7 Rnd.rne false (a.1 * m * m * 2 ^ 64) (a.2 * z)).1
  let e := if 2 * e.1 ≤ 5 * m * e.2 ∧ 0 < v then
      if v = m then (0, 1) else fracOf (roundReal 7 Rnd.rne (countingEnc m v) 7 128).1
    else e
  let q := e.1 / e.2
  Nat.min (q + (roundsUp Rnd.rne false q (e.1 % e.2) e.2).toNat) (2 ^ 64 - 1)

/-- The estimate that an object gives now. -/
def State.estimate (s : State) (x : Sketch) : Nat := estimateOf x.p (s.cells x)

/-- Bytes read from a header: d3 of a distinct counter reads as the estimate (R246, R262). -/
def State.headerRead (s : State) (x : Sketch) (a : Nat) (bs : List (BitVec 8)) : List (BitVec 8) :=
  if x.held = 3 then
    let est := leBytes (s.estimate x) 8
    bs.mapIdx fun i b => if x.pa + 24 ≤ a + i ∧ a + i < x.pa + 32 then est.getD (a + i - (x.pa + 24)) b else b
  else bs

/-! ## Quantiles (R264, R265) -/

/-- The cell of a value; `none` for a NaN.  The flag says that RANGE reports. -/
def Sketch.bucket (x : Sketch) (v : FVal) : Option Nat × Bool :=
  match v with
  | .nan .. => (none, true)
  | .inf s => (some ((if s then x.buckets else 0) + x.buckets), true)
  | .num s n d =>
    if n = 0 then (some 0, false)
    else
      let e := floorLog2 n d
      let r : Nat × Bool :=
        if e < x.emin then (1, true)
        else if x.emin + x.ecount ≤ e then (x.buckets, true)
        else
          let u := pow e
          let t := (n * u.2 - d * u.1) * 2 ^ x.res / (d * u.1)
          (1 + (e - x.emin).toNat * 2 ^ x.res + t, false)
      (some ((if s then x.buckets else 0) + r.1), r.2)
where
  /-- 2 to a power, as a fraction. -/
  pow (e : Int) : Nat × Nat := if 0 ≤ e then (2 ^ e.toNat, 1) else (1, 2 ^ (-e).toNat)

/-- `Mid(P)` with a sign, as fp32. -/
def Sketch.mid (x : Sketch) (neg : Bool) (p : Nat) : Nat :=
  let e : Int := x.emin + ((p - 1) / 2 ^ x.res : Nat) - x.res
  let a := 2 ^ x.res + (p - 1) % 2 ^ x.res
  let num := 2 * a * (a + 1)
  let den := 2 * a + 1
  if 0 ≤ e then (roundNum 8 Rnd.rne neg (num * 2 ^ e.toNat) den).1 else (roundNum 8 Rnd.rne neg num (den * 2 ^ (-e).toNat)).1

/-- The first index of a walk at which the running sum reaches k. -/
def reachSum (k : Nat) (cs : List Nat) : List Nat → Nat → Nat
  | [], _ => 0
  | i :: is, z => if k ≤ z + cs.getD i 0 then i else reachSum k cs is (z + cs.getD i 0)

/-- The answer to a quantile, as fp32. -/
def Sketch.quantile (x : Sketch) (cs : List Nat) (q : FVal) : Nat :=
  let t := cs.foldl (· + ·) 0
  let b := x.buckets
  match q with
  | .num s n d =>
    if (s && n != 0) || d < n || t = 0 then 0x7FC00000
    else
      let k := Nat.max 1 ((n * t + d - 1) / d)
      let walk := ((List.range b).map fun i => 2 * b - i) ++ [0] ++ ((List.range b).map fun i => i + 1)
      let i := reachSum k cs walk 0
      if i = 0 then 0 else if i ≤ b then x.mid false i else x.mid true (i - b)
  | _ => 0x7FC00000

/-! ## Merging and folding (R269, R271) -/

/-- Do two objects agree in what a merge compares? -/
def Sketch.sameAs (x y : Sketch) : Bool :=
  x.kind == y.kind && x.size == y.size && x.res == y.res && x.k == y.k && x.wide == y.wide && x.mix == y.mix &&
    x.d.drop 4 == y.d.drop 4

/-- A merged cell. -/
def Sketch.mergeCell (x : Sketch) (a b : Nat) : Nat :=
  match x.kind with
  | 1 | 3 => Nat.max a b
  | _ => Nat.min (a + b) x.max

/-- The header word d0 after a fold; `none` when the fold's requirement is not met. -/
def Sketch.foldHeader (x : Sketch) : Option Nat :=
  let half := x.h 0 - x.size * 2 ^ 32 + x.size / 2 * 2 ^ 32
  match x.held with
  | 1 | 2 => if x.size % 2 = 0 then some half else none
  | 3 => if 5 ≤ x.p then some half else none
  | 4 => if 1 ≤ x.res then some (x.h 0 - 2 ^ 20) else none
  | _ => none

/-- The cells after a fold; a register of 63, which no insert leaves, has no value after it that 6 bits hold: a free value
(notes/assumptions/2). -/
def Sketch.foldCells (x : Sketch) (cs : List Nat) : List Nat :=
  let c := fun (i : Nat) => cs.getD i 0
  let two := fun (i j : Nat) => Nat.min (c i + c j) x.max
  match x.kind with
  | 1 => (List.range (x.size / 2)).map fun b =>
    ((List.range (x.k + 1)).any fun s => c ((2 * b + s) % x.size) == 1).toNat
  | 2 => (List.range (x.k * (x.size / 2))).map fun i =>
    let row := i / (x.size / 2)
    let j := i % (x.size / 2)
    two (row * x.size + 2 * j) (row * x.size + 2 * j + 1)
  | 3 =>
    let g := fun (j : Nat) => if c j = 0 then 0 else if j % 2 = 1 then 1
      else if c j = 63 then (Config.word 63).toNat % 64 else c j + 1
    (List.range (x.size / 2)).map fun j => Nat.max (g (2 * j)) (g (2 * j + 1))
  | 4 =>
    let b := x.buckets
    c 0 :: ((List.range (b / 2)).map fun i => two (1 + 2 * i) (2 + 2 * i)) ++
      ((List.range (b / 2)).map fun i => two (b + 1 + 2 * i) (b + 2 + 2 * i))
  | _ => cs

end Sys2Proof.Machine
end

