-- ==== Sys2Proof/Machine/Perform.lean ====
section
/-! DEFINITION. Loads, stores and atomics as they are performed, miss-status entries and write-buffer slots, completion,
and what the first-level cache does of itself (R84, R179 to R184, R190, R197 to R206, R208, R230). -/

namespace Sys2Proof.Machine

/-! ## Requests among each other -/

/-- Do two accesses name a common byte? -/
def Access.meets (x y : Access) : Bool :=
  match x.place, y.place with
  | .pa a, .pa b => decide (a < b + y.size ∧ b < a + x.size)
  | .map a, .map b | .fab a, .fab b => decide (a.toNat < b.toNat + y.size ∧ b.toNat < a.toNat + x.size)
  | _, _ => false

/-- The place at which an access of a request stands: a fabric address that leads to this module stands for a place of it, which
other accesses may name otherwise (R208, R330). -/
def State.standing (s : State) (o : Op) (x : Access) : Access :=
  match x.place with
  | .fab a =>
    if s.remote o.src.ctx o.id a then x
    else match s.acceptedAt o.src.ctx a with
      | some pa => { x with place := .pa pa }
      | none => x
  | _ => x

/-- The requests that a warp made before a request and that name a byte in common with it. -/
def State.earlier (s : State) (o : Op) : List Op :=
  s.ops.filter fun x => x.src.warp == o.src.warp && decide (x.id < o.id) &&
    x.kind.accs.any fun a => o.kind.accs.any fun b => (s.standing x a).meets (s.standing o b)

/-- Is a request a plain store, whose bytes a later load of the warp takes from the write buffer (R208)? -/
def OpKind.isStore : OpKind → Bool
  | .store .. => true
  | _ => false

/-- Is a request an ordinary load: an `ld` through no BYP record (R180, R184)? -/
def OpKind.ordinary : OpKind → Bool
  | .load w .. | .tile w .. => w.ordinary
  | _ => false

/-- May a load be performed: nothing of its warp that it must follow is still to be performed?  It takes the bytes of earlier
stores to memory from the write buffer (R208), and follows an earlier load only when both are ordinary (R184). -/
def State.loadFree (s : State) (o : Op) : Bool :=
  !s.fenced o && (s.earlier o).all fun x =>
    (x.kind.isStore && !offMemory x.kind.accs) || (x.kind.isLoad && !(x.kind.ordinary && o.kind.ordinary))

/-- May a write be performed (R208)? -/
def State.writeFree (s : State) (o : Op) : Bool := (s.earlier o).isEmpty && s.ordered o

/-- Is a physical address in a region under a stope kernel's lease (R206)? -/
def State.leased (s : State) (pa : Nat) : Bool :=
  s.leases.any fun l => l.ranges.any fun r => decide (frameOf r.1 ≤ frameOf pa ∧ frameOf pa < frameOf r.1 + r.2)

/-- The physical places of accesses. -/
def pas (l : List Access) : List Nat := l.filterMap fun x => match x.place with
  | .pa a => some a
  | _ => none

/-- Does a lease stall a request (R206)? -/
def State.stalled (s : State) (o : Op) : Bool := (pas o.kind.accs).any s.leased

/-! ## What is one event (R203) -/

/-- One of several, as the n-th choice falls; of one there is no choice. -/
def pickOf {α : Type} (n : Nat) : List α → Option α
  | [] => none
  | [x] => some x
  | l => l[Config.pick n % l.length]?

/-- Is an access fully coalesced: 32 lanes in order on consecutive 4-byte elements of memory from a 128-byte boundary (R203)? -/
def coalesced (l : List Access) : Bool :=
  match l with
  | ⟨0, _, .pa a, 4, _, _⟩ :: _ => a % 128 == 0 && l.length == 32 &&
      (l.mapIdx fun i x => x.lane == i && x.place == .pa (a + 4 * i) && x.size == 4).all id
  | _ => false

/-- The accesses that the next event of a request performs: all of a fully coalesced one, else those of the lanes that name one
place (R189, R203). -/
def State.eventOf (s : State) (l : List Access) : List Access :=
  if coalesced l then l
  else match pickOf s.freeCtr l with
    | some x => l.filter fun y => y.place == x.place
    | none => []

/-- The accesses that an event leaves. -/
def leftAfter (l ev : List Access) : List Access := l.filter fun x => !ev.contains x

/-! ## Bytes with what the warp itself has written -/

/-- Bytes as a request of a warp sees them: over those given, what its earlier stores will write (R208). -/
def State.forward (s : State) (o : Op) (a : Nat) (bs : List (BitVec 8)) : List (BitVec 8) :=
  (s.earlier o).foldl (fun bs x => match x.kind with
    | .store _ _ l => l.foldl (fun bs y => match y.place with
        | .pa b => overlay a bs b y.data
        | _ => bs) bs
    | _ => bs) bs

/-- The bytes that a load reads: those of the first-level cache when it may serve the load and holds them, else those of the
home under what the warp itself has written in the core's cache; over both, the warp's stores on their way (R179, R180, R208). -/
def State.readBytes (s : State) (o : Op) (cached : Bool) (a n : Nat) : List (BitVec 8) :=
  s.forward o a (match if cached then s.sector (s.coreOf o) a else none with
    | some q => q.read (a % 64) n
    | none => s.ownDirty (s.coreOf o) o.src.warp a (s.bytes a n))

/-- A sharer reads `n` bytes of a line: its record is added or widened (R202). -/
def State.share (s : State) (who : SharerId) (pa n : Nat) : State :=
  { s with directory := Tab.put (pa / 256) (addSharer who (pa % 256 / 4) ((pa % 256 + n - 1) / 4)
      (Tab.get [] s.directory (pa / 256))) s.directory }

/-- A core of another die reads a line through its near slice, which becomes a sharer (R201, R202). -/
def State.shareRead (s : State) (core pa n : Nat) : State :=
  if homeSlice pa / 16 = dieOf core then s else s.share (.near (nearSlice core pa)) pa n

/-! ## Loaded values (R195, R197) -/

/-- How an element is rounded under the MODE and the draws of a word's issue (R84, R149). -/
def rndAt (mode : Word) (dr : Draws) (lane j : Nat) : Rnd :=
  let m := modeRnd mode
  ⟨m, modeSat mode, modeFtz mode,
    if m = 5 then (gen dr.seed (BitVec.ofNat 32 lane) (BitVec.ofNat 32 j) (dr.counts.get lane)).toNat else 0⟩

/-- Where the scales of an element of an FP4S page stand: the byte of its block's, and the first of the two of its band's (R196). -/
def scalePlaces (p : Page) (elem : Nat) : Nat × Nat :=
  let g := fp4sGeom p.geom
  let codes := p.base + g.1 * g.2 / 2
  (codes + elem / 8, codes + g.1 * g.2 / 8 + 2 * (elem / g.1 / 64))

/-- The block and band scale of an element of an FP4S page (R145, R196), given what reads bytes. -/
def scalesBy (rd : Nat → Nat → List (BitVec 8)) (p : Page) (elem : Nat) : Nat × FVal :=
  (leNat (rd (scalePlaces p elem).1 1), readFloat 9 false (leNat (rd (scalePlaces p elem).2 2)))

/-- The scales as they stand at their homes. -/
def State.scalesOf (s : State) (p : Page) (elem : Nat) : Nat × FVal := scalesBy s.bytes p elem

/-- The first stored element of a lane's bytes on an FP4S page. -/
def firstElem (p : Page) (x : Access) : Nat := match x.place with
  | .pa a => 2 * (a - p.base)
  | _ => 0

/-- The scale bytes that an access of an FP4S page reads besides its codes: places and lengths. -/
def scaleBytes (p : Page) (x : Access) : List (Nat × Nat) :=
  if p.type == .fp4s then
    ((List.range (storedCount 13 x.size)).flatMap fun j => let q := scalePlaces p (firstElem p x + j); [(q.1, 1), (q.2, 2)]).eraseDups
  else []

/-- The value that a lane's bytes load: its bits, whether they fill a pair, and what decoding raised; `rd` reads scales. -/
def loadedBy (rd : Nat → Nat → List (BitVec 8)) (mode : Word) (p : Page) (dr : Draws) (x : Access) (bs : List (BitVec 8)) :
    Nat × Bool × Exc :=
  let ty := modeType mode
  match p.type.stored with
  | none =>
    let v := leNat bs
    if x.size < 4 ∧ (ty = 0 ∨ ty = 1 ∨ ty = 3 ∨ ty = 5) then (natOf 32 (valueOf (8 * x.size) true v), false, Exc.none)
    else (v, x.size == 8, Exc.none)
  | some t =>
    let n := storedCount t x.size
    let bits := leNat bs
    let rs := (List.range n).map fun j =>
      let code := bitsOf bits (elemWidth t * j) (elemWidth t)
      let r := rndAt mode dr x.lane j
      if t = 13 then
        let sc := scalesBy rd p (firstElem p x + j)
        match blockValue code sc.1 sc.2 with
        | some v => roundTo ty r v
        | none => (defaultNan ty, Exc.NV)
      else convert t ty r code
    (packBits (elemWidth ty) (rs.map (·.1)), n * elemWidth ty == 64, (Exc.sum (rs.map (·.2))).once)

/-- The value that a lane's bytes load, its scales read at their homes. -/
def State.loadedValue (s : State) (mode : Word) (p : Page) (dr : Draws) (x : Access) (bs : List (BitVec 8)) : Nat × Bool × Exc :=
  loadedBy s.bytes mode p dr x bs

/-- Write what a long-latency word leaves to its completion. -/
def Warp.applyWrite (w : Warp) (ty : Nat) : RegWrite → Warp
  | .v n m x => w.setV ty n m x
  | .p n m x => w.setP n m x
  | .s n x => w.setS n x
  | .tag n t => { w with tags := Tab.set Tag.launch w.tags n t }
  | .haarcnt => { w with haarcnt := countUp w.haarcnt }

/-- Write loaded values into the lanes of their accesses (R76, R84). -/
def Warp.takeLoad (w : Warp) (ty d : Nat) (l : List LaneValue) : Warp :=
  l.foldl (fun w e => (w.writeLanes ty e.wide d (maskOf (· == e.lane)) fun _ => e.bits).raiseExc e.exc) w

/-- A word over the fabric that met a typed page has rounded: under STOCH it has taken its draw (R149, R330). -/
def Warp.drawn (w : Warp) (x : Src) (typed : Bool) : Warp := if typed && modeRnd x.mode = 5 then w.advance x.lanes else w

/-- The requests that belong to one load. -/
def State.opsOfWord (s : State) (w : LoadWord) : List Op := s.ops.filter fun o => o.kind.wordNo == some w.first

/-- Has every lane of a load got its value? -/
def State.wordDone (s : State) (w : LoadWord) : Bool := (s.opsOfWord w).all fun o => o.kind.accs.isEmpty

/-- What the lanes of a load have got. -/
def State.wordValues (s : State) (w : LoadWord) : List LaneValue :=
  (s.opsOfWord w).flatMap fun o => match o.kind with
    | .load _ _ _ _ got => got
    | _ => []

/-- A load whose lanes have all got their values writes its destination and completes; until then it has written nothing (R54,
R84). -/
def State.finishLoad (s : State) (o : Op) (w : LoadWord) : State :=
  if !s.wordDone w then s
  else
    let vals := s.wordValues w
    let ty := modeType o.src.mode
    ((s.mapWarp o.src.warp fun q =>
      ((w.also.foldl (fun q x => q.applyWrite ty x) q).takeLoad ty w.dest vals).drawn o.src (vals.any (·.typed))).dropWord
      o).settleFlags o.src.warp

/-- Lanes of a load have got their values. -/
def State.gotLanes (s : State) (o : Op) (w : LoadWord) (p : Page) (cached : Bool) (rest : List Access) (got : List LaneValue) :
    State :=
  (s.putOp { o with kind := .load w p cached rest got }).finishLoad o w

/-- A read that the first-level cache did not serve: it goes to the home, by way of a near slice, and fills the sector when the
cache may hold it (R179, R199, R202). -/
def State.fetched (s : State) (core : Nat) (cached : Bool) (a n : Nat) : State :=
  (if cached then s.fillSector core (a / 64) else s).shareRead core a n

/-- The lanes of an event whose data, or whose scales on a page, are uncorrectable where they are read. -/
def State.badLanes (s : State) (core : Nat) (cached : Bool) (p : Page) (l : List Access) : List Access :=
  l.filter fun x => match x.place with
    | .pa a => s.readBad core cached a x.size || (scaleBytes p x).any fun e => s.readBad core cached e.1 e.2
    | _ => false

/-- What the requests of a load still have to read. -/
def State.wordLeft (s : State) (w : LoadWord) : List Access := (s.opsOfWord w).flatMap fun o => o.kind.accs

/-- The data-integrity cause of accesses. -/
def dataCause (l : List Access) : FaultInfo :=
  mergeFaults (l.map fun x => ⟨x.lane, causeData, x.addr, 0, none⟩) true false

/-- The bytes of memory that accesses of a page read: places and lengths. -/
def readSpans (p : Page) (l : List Access) : List (Nat × Nat) :=
  l.flatMap fun x => match x.place with
    | .pa a => (a, x.size) :: scaleBytes p x
    | _ => []

/-- LOAD_FILL_RETURN of one event of a line request: sector by sector served from the first-level cache, or from the home with a
fill (R179, R180, R199, R200, R203, R205). -/
def State.performLoad (s : State) (o : Op) (w : LoadWord) (p : Page) (cached : Bool) (l : List Access) (got : List LaneValue) :
    State :=
  let core := s.coreOf o
  let ev := s.eventOf l
  let fetch := (readSpans p ev).filter fun e => !(cached && (s.sector core e.1).isSome)
  if !s.loadFree o then s
  else if !fetch.isEmpty && (!o.granted || (fetch.any fun e => s.leased e.1) || !s.ordered o) then s
  else
    let bad := s.badLanes core cached p ev
    if !bad.isEmpty then
      let others := (s.wordLeft w).filter fun x => !ev.contains x
      (s.dropWord o).lateFault o (dataCause (bad ++ s.badLanes core cached p others))
    else
      let vals := ev.map fun x => match x.place with
        | .pa a =>
          let bs := s.readBytes o cached a x.size
          let bs := if p.type == .sketch then s.headerRead (s.sketchAt p a x.addr) a bs else bs
          let v := loadedBy (s.readBytes o cached) o.src.mode p w.draws x bs
          ⟨x.lane, v.1, v.2.1, v.2.2, false⟩
        | _ => ⟨x.lane, 0, false, Exc.none, false⟩
      (fetch.foldl (fun s e => s.fetched core cached e.1 e.2) s).gotLanes o w p cached (leftAfter l ev) (got ++ vals)

/-! ## Tile loads (R276, R306) -/

/-- The words of a slot that the requests of a tile load have read; a word whose data are uncorrectable is not among them. -/
def State.tileGot (s : State) (w : LoadWord) : List (Nat × Word) :=
  (s.opsOfWord w).flatMap fun o => match o.kind with
    | .tile _ _ _ _ _ _ got => got
    | _ => []

/-- The offset of the coefficient of a column of the map and a feature. -/
def coefAt (map : Word) (j f : Nat) : Nat := 64 + 128 * ((laneList map).filter (· < j)).length + 4 * f

/-- A tile load that has read its slot: the lanes receive their columns, each rounded to MODE.TYPE, and the tile its tag. -/
def State.finishTile (s : State) (o : Op) (w : LoadWord) (p : Page) (slot : Access) (lanes : LaneMask) : State :=
  if !s.wordDone w then s
  else
    let got := s.tileGot w
    let rd := fun (b : Nat) => (got.find? fun e => e.1 == b).map (·.2)
    let ty := modeType o.src.mode
    let map := (rd 0).getD 0
    let lost := (rd 0).isNone || (laneList (lanes &&& map)).any fun j =>
      (List.range (tileCount ty)).any fun f => (rd (coefAt map j f)).isNone
    if lost then (s.dropWord o).lateFault o (laneFault causeData lanes slot.addr.toNat)
    else
      let column := fun (j : Nat) => (List.range (tileCount ty)).map fun f =>
        if map.getLsbD j then
          roundTo ty (rndAt o.src.mode w.draws j f) (readFloat 8 false ((rd (coefAt map j f)).getD 0).toNat)
        else (0, Exc.none)
      let cols := (laneList lanes).map fun j => (j, column j)
      let word := fun (i n : Nat) => match cols.find? fun e => e.1 == n with
        | some e => (packTile ty (e.2.map (·.1))).getD i 0
        | none => 0
      ((s.mapWarp o.src.warp fun q =>
        let q0 := w.also.foldl (fun q x => q.applyWrite ty x) q
        let q1 := (List.range 8).foldl (fun q i => q.putV (8 * w.dest + i) lanes (Lanes.ofFn (word i))) q0
        let q2 := { q1 with tags := Tab.set Tag.launch q1.tags w.dest ⟨ty, bitsOf p.geom 0 3, map⟩ }
        q2.raiseExc (Exc.sum (cols.map fun e => (Exc.sum (e.2.map (·.2))).once))).dropWord o).settleFlags o.src.warp

/-- LOAD_FILL_RETURN of one word of a tile load (R276, R306). -/
def State.performTile (s : State) (o : Op) (w : LoadWord) (p : Page) (cached : Bool) (slot : Access) (lanes : LaneMask)
    (words : List Nat) (got : List (Nat × Word)) : State :=
  let core := s.coreOf o
  match slot.place, pickOf s.freeCtr words with
  | .pa a0, some i =>
    let a := a0 + i
    let hit := cached && (s.sector core a).isSome
    if !s.loadFree o then s
    else if !hit && (!o.granted || s.leased a || !s.ordered o) then s
    else
      let new : List (Nat × Word) :=
        if s.readBad core hit a 4 then [] else [(i, BitVec.ofNat 32 (leNat (s.readBytes o hit a 4)))]
      let s1 := if hit then s else s.fetched core cached a 4
      (s1.putOp { o with kind := .tile w p cached slot lanes (words.filter (· != i)) (got ++ new) }).finishTile o w p slot lanes
  | _, _ => s

/-- LOAD_FILL_RETURN (R179 to R181, R276). -/
def execLoadFillReturn (op : Nat) (s : State) : Host.Outcome State Fault Refusal :=
  .next (match s.op op with
    | none => s
    | some o =>
      match o.kind with
      | .load w p cached l got => if offMemory l then s else s.performLoad o w p cached l got
      | .tile w p cached slot lanes words got => s.performTile o w p cached slot lanes words got
      | _ => s)

/-! ## Stores at their homes (R181, R202, R205) -/

/-- The token regions of its context that a request writes into. -/
def State.regionsOf (s : State) (o : Op) : List Nat :=
  (o.kind.written.filterMap fun x => match x.place with
    | .pa _ => s.tokenNo o.src.ctx x.addr.toNat
    | _ => none).eraseDups

/-- Does a region's token let a request write: has its core the token, and is the request not one that comes after the core was to
give the token up (R205)? -/
def TokenRegion.serves (t : TokenRegion) (core id : Nat) : Bool := t.holder == some core && t.leaving.all fun n => decide (id < n)

/-- Does the core of a request hold the tokens of all regions that it writes into (R205)? -/
def State.tokensHeld (s : State) (o : Op) : Bool :=
  (s.regionsOf o).all fun r => (s.tokenRegion o.src.ctx r).any fun t => t.serves (s.coreOf o) o.id

/-- Ask for the tokens that a request needs and its core does not hold. -/
def State.askTokens (s : State) (o : Op) : State :=
  (s.regionsOf o).foldl (fun t r =>
    if (s.tokenRegion o.src.ctx r).any fun x => x.serves (s.coreOf o) o.id then t else t.askToken o.src.ctx r (s.coreOf o)) s

/-- The mask of `n` bytes from offset `o` of a sector. -/
def byteMask (o n : Nat) : BitVec 64 := BitVec.ofNat 64 ((2 ^ n - 1) * 2 ^ o)

/-- Write bytes into a valid sector of a core; for a warp they become dirty, as its writes (R179, R200). -/
def State.touchSector (s : State) (core a : Nat) (bs : List (BitVec 8)) (dirty : Option Nat) : State :=
  match s.sector core a with
  | none => s
  | some q =>
    let m := byteMask (a % 64) bs.length
    let q1 : Sector := { q with bytes := overlay 0 q.bytes (a % 64) bs }
    let q2 : Sector := match dirty with
      | some k => { q1 with dirty := q.dirty ||| m, writers := Tab.set 0 q.writers k (Tab.get 0 q.writers k ||| m) }
      | none => q1
    s.mapCore core fun c => { c with l1 := Tab.put (a / 64) q2 c.l1 }

/-- The parts of a write that lie in one sector each. -/
def sectorParts (a : Nat) (bs : List (BitVec 8)) : List (Nat × List (BitVec 8)) :=
  let n := 64 - a % 64
  (a, bs.take n) :: (List.range ((bs.length - n + 63) / 64)).map fun i => (a + n + 64 * i, ((bs.drop (n + 64 * i)).take 64))

/-- A write of a core: into the dirty sectors of a held token region, or at the home, updating the core's own valid copies
(R179, R200, R205). -/
def State.performWrite (s : State) (o : Op) (x : Access) : State :=
  match x.place with
  | .pa a =>
    let core := s.coreOf o
    let held := (s.tokenNo o.src.ctx x.addr.toNat).isSome
    (sectorParts a x.data).foldl (fun s e =>
      let s1 := if held && (s.sector core e.1).isNone then s.fillSector core (e.1 / 64) else s
      if held && (s1.sector core e.1).isSome then s1.touchSector core e.1 e.2 (some o.src.warp)
      else (s1.homeWrite o.src.warp e.1 e.2).touchSector core e.1 e.2 none) s
  | _ => s

/-- What becomes of a request when an event has performed part of it. -/
def State.putLeft (s : State) (o : Op) (kind : OpKind) (rest : List Access) : State :=
  if rest.isEmpty then (s.dropOp o.id).settleFlags o.src.warp else s.putOp { o with kind := kind }

/-- The release of a `st.rel` before its write, if a store is one (R182, R209). -/
def State.storeRelease (s : State) (o : Op) (rel : Option (BitVec 6)) : State × Bool :=
  match rel with
  | some m => s.releaseAt (s.coreOf o) o.src.warp o.id m
  | none => (s, true)

/-- STORE_PERFORM_HOME: one event of an accepted store is performed at its home, or in its core when the core holds the token
(R181, R182, R202, R203, R205, R209). -/
def execStorePerformHome (op : Nat) (s : State) : Host.Outcome State Fault Refusal :=
  .next (match s.op op with
    | none => s
    | some o =>
      match o.kind with
      | .store rel exc l =>
        let ev := s.eventOf l
        if offMemory l || !o.completed || !s.writeFree o || (pas ev).any s.leased then s
        else if !s.tokensHeld o then s.askTokens o
        else
          let r := s.storeRelease o rel
          if !r.2 then r.1
          else
            let rest := leftAfter l ev
            (ev.foldl (fun s x => s.performWrite o x) r.1).putLeft o (.store rel exc rest) rest
      | _ => s)

/-- The blocks of an FP4S page that accesses touch, with the elements written: index and MODE.TYPE bits, lane and
element place. -/
def fp4sElems (p : Page) (ty : Nat) (l : List Access) : List (Nat × Nat × Nat × Nat) :=
  l.flatMap fun x => (List.range (storedCount 13 x.size)).map fun j =>
    (firstElem p x + j, bitsOf (leNat x.data) (elemWidth ty * j) (elemWidth ty), x.lane, j)

/-- Put a 4-bit code at an element of an FP4S page. -/
def State.putCode (s : State) (writer : Nat) (p : Page) (elem code : Nat) : State :=
  let a := p.base + elem / 2
  let old := (s.byte a).toNat
  let new := if elem % 2 = 0 then old - old % 16 + code % 16 else old % 16 + 16 * (code % 16)
  s.homeWrite writer a [BitVec.ofNat 8 new]

/-- Encode the written elements of one block (R198): all 8 of them set the scale, fewer keep it. -/
def State.fp4sBlock (s : State) (o : Op) (p : Page) (dr : Draws) (block : Nat) (es : List (Nat × Nat × Nat × Nat)) :
    State × List (Nat × Exc) :=
  let ty := modeType o.src.mode
  let g := fp4sGeom p.geom
  let last := (List.range 8).filterMap fun i => (es.filter fun e => e.1 == 8 * block + i).getLast?
  let sc := s.scalesOf p (8 * block)
  let vals := last.map fun e => readElem ty (modeFtz o.src.mode) e.2.1
  let whole := last.length == 8
  let sb := if whole then blockScale vals sc.2 else (sc.1, Exc.none)
  let cs := (last.zip vals).map fun (e, x) =>
    let r := rndAt o.src.mode dr e.2.2.1 e.2.2.2
    let c := match x, sc.2 with
      | .num _ n _, .num _ a _ =>
        if n ≠ 0 ∧ a ≠ 0 ∧ scaleNum sb.1 = 0 then
          (signed 13 (x.neg != sc.2.neg) 7, if r.sat then Exc.SA else Exc.NV)
        else blockCode r sb.1 sc.2 x
      | .inf _, .num _ _ _ =>
        if scaleNum sb.1 = 0 then (signed 13 (x.neg != sc.2.neg) 0, Exc.NV) else blockCode r sb.1 sc.2 x
      | _, _ => blockCode r sb.1 sc.2 x
    (e, c)
  let s1 := cs.foldl (fun s c => s.putCode o.src.warp p c.1.1 c.2.1) s
  let s2 := if whole then s1.homeWrite o.src.warp (p.base + g.1 * g.2 / 2 + block) [BitVec.ofNat 8 sb.1] else s1
  (s2, cs.map fun c => (c.1.2.2.1, c.2.2.add sb.2))

/-- The accesses of a store to an FP4S page that the next event performs: all of a fully coalesced one (R203), else those that share
blocks with one of them (R198). -/
def State.fp4sEvent (s : State) (l : List Access) : List Access :=
  if coalesced l then l else
  let block := fun (x : Access) => match x.place with
    | .pa a => a / Nat.max 4 x.size
    | _ => 0
  match pickOf s.freeCtr l with
  | some x => l.filter fun y => block y == block x
  | none => []

/-- FP4S_STORE_PERFORM: a block of a store to an FP4S page, or the two of one lane, or all of a fully coalesced one, is encoded at
the home of its line (R198, R199, R203); the core's copies of the sectors that it writes leave it, what the core holds dirty of
what it reads and writes going home first. -/
def execFp4sStorePerform (op : Nat) (s : State) : Host.Outcome State Fault Refusal :=
  .next (match s.op op with
    | none => s
    | some o =>
      match o.kind with
      | .fp4s p dr l =>
        let ev := s.fp4sEvent l
        if !o.completed || !s.writeFree o || (pas ev).any s.leased then s
        else if !s.tokensHeld o then s.askTokens o
        else
          let es := fp4sElems p (modeType o.src.mode) ev
          let blocks := (es.map fun e => e.1 / 8).eraseDups
          let whole := blocks.filter fun b => (List.range 8).all fun i => es.any fun e => e.1 == 8 * b + i
          let read := (pas ev ++ (ev.flatMap (scaleBytes p)).map (·.1)).map (· / 64)
          let written := (pas ev ++ whole.map fun b => (scalePlaces p (8 * b)).1).map (· / 64)
          let s0 := (s.writeBack (s.coreOf o) fun pa => read.contains (pa / 64)).dropSectors (s.coreOf o) fun pa =>
            written.contains (pa / 64)
          let r := blocks.foldl (fun r b =>
            let q := r.1.fp4sBlock o p dr b (es.filter fun e => e.1 / 8 == b)
            (q.1, r.2 ++ q.2)) (s0, ([] : List (Nat × Exc)))
          let lanes := (ev.map (·.lane)).eraseDups
          let exc := Exc.sum (lanes.map fun n => (Exc.sum ((r.2.filter fun e => e.1 == n).map (·.2))).once)
          let rest := leftAfter l ev
          (r.1.mapWarp o.src.warp fun w => if o.src.faulted then w else w.raiseExc exc).putLeft o (.fp4s p dr rest) rest
      | _ => s)

/-! ## Miss-status entries and write-buffer slots (R190) -/

/-- The sectors of a load that must be fetched; a sector behind a fabric address, which no cache holds, counts by that address. -/
def State.missing (s : State) (core : Nat) (cached : Bool) (p : Page) (l : List Access) : List Nat :=
  ((((readSpans p l).map fun e => e.1 / 64).eraseDups).filter fun n => !(cached && (Tab.lookup n (s.core core).l1).isSome)) ++
    (l.filterMap fun x => match x.place with
      | .fab a => some (2 ^ 64 + a.toNat / 64)
      | _ => none).eraseDups

/-- The sectors that a request for data still has to fetch. -/
def State.missingOf (s : State) (core : Nat) (o : Op) : List Nat :=
  match o.kind with
  | .load _ p cached l _ => s.missing core cached p l
  | .tile _ _ cached .. => s.missing core cached Page.none o.kind.accs
  | .prefetch l => l.filter fun n => (Tab.lookup n (s.core core).l1).isNone
  | _ => []

/-- The sectors that hold miss-status entries of a core. -/
def State.missEntries (s : State) (core : Nat) : List Nat :=
  (s.ops.flatMap fun o => if o.granted && s.coreOf o == core then s.missingOf core o else []).eraseDups

/-- The write-buffer slots that a request takes until a home has accepted it: one for each line (R189, R190, R330). -/
def OpKind.slots : OpKind → Nat
  | .store _ _ l | .fp4s _ _ l => if onMapOnly l then 0 else 1
  | .insert false _ _ l => (groupLines (l.map (·.1))).length
  | _ => 0

/-- The write-buffer slots in use of a core. -/
def State.slotsUsed (s : State) (core : Nat) : Nat :=
  (s.ops.map fun o => if o.granted && !o.completed && s.coreOf o == core then o.kind.slots else 0).sum

/-- Is a request a store that takes a slot, or a load that takes entries? -/
def OpKind.buffered : OpKind → Option Bool
  | .store .. | .fp4s .. | .insert false .. => some true
  | .load .. | .tile .. | .prefetch .. => some false
  | _ => none

/-- MISS_ENTRY_GRANT: a waiting request takes the entries or the slot that it needs, in the order of arrival at the
memory unit (R190). -/
def execMissEntryGrant (op : Nat) (s : State) : Host.Outcome State Fault Refusal :=
  .next (match s.op op with
    | none => s
    | some o =>
      let core := s.coreOf o
      let first := s.ops.all fun x => !(decide (x.id < o.id) && !x.granted && !x.completed && x.kind.buffered.isSome &&
        x.kind.buffered == o.kind.buffered && s.coreOf x == core)
      if o.granted || o.completed || !first then s
      else
        match o.kind with
        | .load .. | .tile .. | .prefetch .. =>
          let held := s.missEntries core
          if held.length + ((s.missingOf core o).filter fun n => !held.contains n).length ≤ 64 then
            s.putOp { o with granted := true } else s
        | .store .. | .fp4s .. | .insert .. =>
          if s.slotsUsed core + o.kind.slots ≤ 32 then s.putOp { o with granted := true } else s
        | _ => s)

/-! ## Atomics (R10, R204, R230) -/

/-- The new value of an atomic (R230). -/
def atomValue (op : AtomOp) (ty size : Nat) (old b cmp : Nat) : Nat :=
  let w := 8 * size
  let ft := if size = 8 then 7 else 8
  let pick := fun (lower : Bool) =>
    if isFloat ty then (fnPick lower ft Rnd.rne (readFloat ft false old) (readFloat ft false b)).1
    else
      let x := valueOf w (typeSigned ty) old
      let y := valueOf w (typeSigned ty) b
      natOf w (if lower then min x y else max x y)
  match op with
  | .add => if isFloat ty then (sumNode ft old b).1 else (old + b) % 2 ^ w
  | .min => pick true
  | .max => pick false
  | .and => old &&& b
  | .or => old ||| b
  | .xor => old ^^^ b
  | .exch => b
  | .cas => if old = cmp % 2 ^ w then b else old

/-- One lane of an atomic at its home: the old value is written to its lane and the lane leaves the request.  Uncorrectable data
under any lane that is left are a fault of the word; the lanes performed before stay performed (notes/assumptions/43). -/
def State.performAtomic (s : State) (o : Op) (op : AtomOp) (d size : Nat) (cmp : List DWord) (l : List Access) : State :=
  let core := s.coreOf o
  let bad := s.badLanes core false Page.none l
  match l with
  | [] => (s.dropOp o.id).settleFlags o.src.warp
  | x :: rest =>
    if !bad.isEmpty then (s.dropOp o.id).lateFault o (dataCause bad)
    else
      match x.place with
      | .pa a =>
        let touched := fun (pa : Nat) => pa / 64 == a / 64
        let s1 := (s.writeBack core touched).dropSectors core touched
        let old := leNat (s1.bytes a size)
        let new := atomValue op (modeType o.src.mode) size old (leNat x.data) (cmp.headD 0).toNat
        let s2 := (s1.homeWrite o.src.warp a (leBytes new size)).mapWarp o.src.warp fun w =>
          w.writeLanes (modeType o.src.mode) (size == 8) d (maskOf (· == x.lane)) fun _ => old
        s2.putLeft o (.atomic op d size (cmp.drop 1) rest) rest
      | _ => s

/-- ATOMIC_PERFORM: the next lane of an atomic is performed at its home (R10, R204, R205). -/
def execAtomicPerform (op : Nat) (s : State) : Host.Outcome State Fault Refusal :=
  .next (match s.op op with
    | none => s
    | some o =>
      match o.kind with
      | .atomic aop d size cmp l =>
        if offMemory l || !s.writeFree o || s.stalled o then s
        else if !s.tokensHeld o then s.askTokens o
        else s.performAtomic o aop d size cmp l
      | _ => s)

/-! ## Completion (R84) -/

/-- Has a fault queue accepted all of some records: does it hold none of them back (R57, R229)? -/
def State.accepted (s : State) (ctx : Nat) (rs : List (List Word)) : Bool :=
  ((Tab.lookup ctx s.ctxs).bind (·.faultQ)).all fun q => !q.held.any rs.contains

/-- OPERATION_COMPLETION: a result is written with its flags; a store is accepted at its home; a token has left the
core; a window closes; macros lose their configuration once any arming of them has finished; sectors are filled; a fault queue
has accepted records (R84, R161, R228, R229, R238, R243, R289). -/
def execOperationCompletion (op : Nat) (s : State) : Host.Outcome State Fault Refusal :=
  .next (match s.op op with
    | none => s
    | some o =>
      match o.kind with
      | .result ws exc =>
        ((s.mapWarp o.src.warp fun w =>
          (ws.foldl (fun w x => w.applyWrite (modeType o.src.mode) x) w).raiseExc exc).dropOp op).settleFlags o.src.warp
      | .store _ exc l =>
        if o.completed || !o.granted || offMemory l then s
        else if !s.tokensHeld o then s.askTokens o
        else ((s.mapWarp o.src.warp fun w => w.raiseExc exc).putOp { o with completed := true, doneAt := s.nextId }).settleFlags o.src.warp
      | .fp4s .. | .insert .. =>
        if o.completed || !o.granted then s
        else if !s.tokensHeld o then s.askTokens o
        else (s.putOp { o with completed := true, doneAt := s.nextId }).settleFlags o.src.warp
      | .tokenRelease ctx r =>
        let t := if (s.tokenRegion ctx r).any fun t => t.holder == some (s.coreOf o) then s.passToken ctx r o.id false else s
        if (t.tokenRegion ctx r).any fun t => t.holder == some (s.coreOf o) then s
        else (t.dropOp op).settleFlags o.src.warp
      | .tokenAcquire ctx base => s.tokenArrives o ctx base
      | .closeWindow =>
        if s.windowBusy o.src.warp o.id then s
        else ((s.mapWarp o.src.warp fun w => if w.closing then { w with window := false, closing := false } else w).dropOp
          op).settleFlags o.src.warp
      | .pageRequest rs => if s.accepted o.src.ctx rs then (s.dropOp op).settleFlags o.src.warp else s
      | .disarm crew d =>
        let mine := fun (c : Crew) (m : Nat) => Tab.lookup m c.macros == some d
        if s.fenced o || (Tab.lookup crew s.crews).any fun c => c.arming.any (mine c) then s
        else
          let s1 := s.mapCrew crew fun c => { c with macros := c.macros.filter fun e => e.2 != d }
          ((s1.mapCore (s.coreOf o) fun c => { c with stage := [] }).dropOp op).settleFlags o.src.warp
      | .prefetch l =>
        if s.fenced o || !o.granted then s
        else ((l.foldl (fun s n => if s.leased (64 * n) then s else s.fillSector (s.coreOf o) n) s).dropOp op).settleFlags
          o.src.warp
      | _ => s)

/-! ## The first-level cache of itself (R179, R200) -/

/-- L1_EVICTION: a sector leaves a first-level cache, its dirty bytes going home. -/
def execL1Eviction (core sector : Nat) (s : State) : Host.Outcome State Fault Refusal :=
  let p := fun (pa : Nat) => pa / 64 == sector
  .next ((s.writeBack core p).dropSectors core p)

/-- The places at which a table maps a frame of memory: virtual address and leaf (R191, R192). -/
def State.mappings (s : State) (frame : Nat) : List (Nat × Nat × Nat) → Nat → Nat → List (Nat × Pte)
  | [], _, _ => []
  | (level, lo, n) :: ls, table, va => (List.range (2 ^ n)).flatMap fun i =>
    let e := table + 16 * i
    let p : Pte := ⟨s.dword e, s.dword (e + 8)⟩
    let v := va + i * 2 ^ lo
    if !p.valid then []
    else if p.leaf then
      let base := p.frame - p.frame % 2 ^ lo
      if 2 ≤ level ∧ p.resident ∧ base ≤ frame ∧ frame < base + 2 ^ lo then [(v + (frame - base), p)] else []
    else if level = 4 || !p.nodeOk level then []
    else s.mappings frame ls p.w1 v

/-- May a prefetcher fill the sector of a physical address: is it one of no SKETCH page, in any table or under a translation that a
drift still holds (R179, R199)? -/
def State.prefetchable (s : State) (pa : Nat) : Bool :=
  (s.tlb.all fun e => e.2.all fun t =>
    let p : Pte := ⟨t.w0.toNat, t.w1.toNat⟩
    !(p.typeCode == 6 && p.frame / 2 ^ t.log == frameOf pa / 2 ^ t.log)) &&
  s.ctxs.all fun e => (s.mappings (frameOf pa) tableLevels e.2.root 0).all fun m => m.2.typeCode != 6

/-- HW_PREFETCH: a prefetcher fills a sector from its home, except under a lease (R179, R206). -/
def execHwPrefetch (core pa : Nat) (s : State) : Host.Outcome State Fault Refusal :=
  .next (if s.leased pa || !s.prefetchable pa then s else s.fillSector core (pa / 64))

/-! ## Capacities (R5, R199, R201) -/

/-- Lines of a first-level cache of 128 KiB, of a slice's home share of 3 MiB, and of its near share of 1 MiB. -/
def l1Lines : Nat := 512
def homeLines : Nat := 12288
def nearLines : Nat := 4096

/-- Of lines that are more than a cache holds, those that leave it: as many as are too many, which ones no rule says. -/
def surplus (n size : Nat) : Nat → List Nat → List Nat
  | 0, _ => []
  | fuel + 1, l =>
    if l.length ≤ size then []
    else match l[Config.pick (n + fuel) % l.length]? with
      | some x => x :: surplus n size fuel (l.filter (· != x))
      | none => []

/-- A first-level cache that holds more lines than it has lets them go. -/
def State.trimL1 (s : State) (core : Nat) : State :=
  let l := ((s.core core).l1.map fun e => e.1 / 4).eraseDups
  let out := surplus s.freeCtr l1Lines l.length l
  let p := fun (pa : Nat) => out.contains (pa / 256)
  if out.isEmpty then s else (s.writeBack core p).dropSectors core p

/-- A home share that holds more lines than it has, of those whose newest bytes DRAM lacks, writes them to DRAM. -/
def State.trimHome (s : State) (slice : Nat) : State :=
  let l := (s.unflushed.map (·.1)).filter fun n => homeSlice (256 * n) == slice
  (surplus s.freeCtr homeLines l.length l).foldl (fun s n =>
    { s with dram := putBytes s.dram (256 * n) (s.bytes (256 * n) 256), unflushed := Tab.erase n s.unflushed }) s

/-- A near share that holds more lines than it has lets them go. -/
def State.trimNear (s : State) (slice : Nat) : State :=
  let l := (s.directory.filter fun e => e.2.any fun x => x.who == .near slice).map (·.1)
  (surplus s.freeCtr nearLines l.length l).foldl (fun s n =>
    { s with directory := Tab.put n ((Tab.get [] s.directory n).filter fun x => x.who != .near slice) s.directory }) s

/-- No cache holds more than it has: what is too much leaves, in no order that the spec gives. -/
def State.trim (s : State) : State :=
  let s1 := (s.cores.filter fun e => l1Lines < e.2.l1.length).foldl (fun s e => s.trimL1 e.1) s
  let s2 := if s1.unflushed.length ≤ homeLines then s1 else (List.range 64).foldl (fun s k => s.trimHome k) s1
  if s2.directory.length ≤ nearLines then s2 else (List.range 64).foldl (fun s k => s.trimNear k) s2

end Sys2Proof.Machine
end

