-- ==== Sys2Proof/Machine/Assay.lean ====
section
/-! DEFINITION. The assay engine at an object's home: inserts, deletions and queries, step by step, initialisation,
merges, folds, and the sketch words (R225, R248, R249, R257 to R272, R314 to R320, R388). -/

namespace Sys2Proof.Machine

/-! ## What an operation meets at the home -/

/-- The object that an access names, as it stands. -/
def State.objectOf (s : State) (x : Access) (p : Page) : Option Sketch :=
  match x.place with
  | .pa a => some (s.sketchAt p a x.addr)
  | _ => none

/-- May an operation of the assay engine be performed? -/
def State.assayFree (s : State) (o : Op) : Bool := s.writeFree o && !s.stalled o

/-- Is an insert or a deletion between its steps on an object, or a query (R268, R320)? -/
def State.midStep (s : State) (pa : Nat) : Bool :=
  s.ops.any fun o =>
    match o.kind with
    | .insert _ _ (_ + 1) ((x, p) :: _) => (s.objectOf x p).any fun y => y.pa == pa
    | .query _ _ (_ + 1) _ ((x, p) :: _) _ _ => (s.objectOf x p).any fun y => y.pa == pa
    | _ => false

/-- The record of a lane of an insert or a deletion that failed at the home (R388). -/
def State.assayRecord (s : State) (o : Op) (lane cause : Nat) (a : Addr) : State :=
  let id := ((Tab.lookup o.src.warp s.warps).map (·.id)).getD 0
  let crew := s.crewOf o
  s.postFault o.src.ctx { cause := cause, noRegion := true, lanes := maskOf (· == lane), addr := a, recCount := o.src.recCount,
                          warp := id, origin := 6, row := (crew.map (·.row)).getD 0, col := (crew.map (·.col)).getD 0,
                          time := s.time }

/-! ## Inserts and deletions (R248, R260, R262, R264) -/

/-- The key or value of a lane. -/
def keyOf (x : Access) : Nat := leNat x.data

/-- The value that a quantile summary takes. -/
def valueKey (esz : Nat) (x : Access) : FVal := readFloat (if esz = 3 then 7 else 8) false (keyOf x)

/-- N after one insert or one deletion. -/
def countN (delete : Bool) (n : Nat) : Nat :=
  if delete then if 0 < n ∧ n < 2 ^ 64 - 1 then n - 1 else n else Nat.min (n + 1) (2 ^ 64 - 1)

/-- Step j of a filter insert: one bit, FILL, and the saturation report (R248); `n` is N after the insert. -/
def State.filterStep (s : State) (w ctx : Nat) (x : Sketch) (n key j : Nat) : State :=
  let b := x.bitOf key j
  if s.bodyBit x b then s
  else
    let s1 := s.homeWrite w (x.pa + 64 + b / 8) [BitVec.ofNat 8 (s.bodyByte x (b / 8) + 2 ^ (b % 8))]
    let fill := x.fill + 1
    let s2 := s1.homeWrite w (x.pa + 12) (leBytes fill 4)
    if x.full fill then s2.report w ctx x n .sat else s2

/-- One more in a counter, with its report (R260, R264). -/
def State.raiseCell (s : State) (w ctx : Nat) (x : Sketch) (n i : Nat) : State :=
  let c := s.counter x i
  let s1 := if c < x.max then s.setCounter w x i (c + 1) else s
  if x.max ≤ c + 1 then s1.report w ctx x n .sat else s1

/-- One less in a counter; a saturated one keeps its value, one at zero reports (R260, R264). -/
def State.lowerCell (s : State) (w ctx : Nat) (x : Sketch) (n i : Nat) : State :=
  let c := s.counter x i
  if c = x.max then s else if c = 0 then s.report w ctx x n .zclamp else s.setCounter w x i (c - 1)

/-- A distinct counter takes a key (R262). -/
def State.distinctStep (s : State) (w : Nat) (x : Sketch) (key : Nat) : State :=
  let h := x.hash key 0
  let j := h / 2 ^ (64 - x.p)
  let y := h * 2 ^ x.p % 2 ^ 64
  let rank := if y = 0 then 65 - x.p else 64 - Nat.log2 y
  if s.register x j < rank then s.setRegister w x j rank else s

/-- The cells that an insert or a deletion of a key touches. -/
def Sketch.touches (x : Sketch) (esz : Nat) (a : Access) : List Nat :=
  match x.held with
  | 1 => (List.range x.k).map (x.bitOf (keyOf a))
  | 2 => (List.range x.k).map (x.cellOf (keyOf a))
  | 3 => [x.hash (keyOf a) 0 / 2 ^ (64 - x.p)]
  | 4 => (x.bucket (valueKey esz a)).1.toList
  | _ => []

/-- What one event of an insert or deletion does to an object: the next cell step, or after the last N and the end of the lane.
Answers the state, and whether the lane is finished. -/
def State.insertStep (s : State) (w ctx : Nat) (delete : Bool) (esz step : Nat) (a : Access) (x : Sketch) : State × Bool :=
  let n := countN delete (s.dword (x.pa + 16))
  let cell := fun (s : State) (i : Nat) => if delete then s.lowerCell w ctx x n i else s.raiseCell w ctx x n i
  let finish := fun (s : State) => (s.setHeader w x 2 n, true)
  match x.held with
  | 1 => if step < x.k then (s.filterStep w ctx x n (keyOf a) step, false) else finish s
  | 2 => if step < x.k then (cell s (x.cellOf (keyOf a) step), false) else finish s
  | 3 => finish (s.distinctStep w x (keyOf a))
  | _ =>
    match x.bucket (valueKey esz a) with
    | (none, _) => (s.report w ctx x (s.dword (x.pa + 16)) .range, true)
    | (some i, out) => finish (cell (if out then s.report w ctx x n .range else s) i)

/-- The lane at the head of an insert or a deletion is finished. -/
def State.nextLane (s : State) (o : Op) (delete : Bool) (esz : Nat) (rest : List (Access × Page)) : State :=
  if rest.isEmpty then (s.dropOp o.id).settleFlags o.src.warp
  else s.putOp { o with kind := .insert delete esz 0 rest }

/-- The part of an insert that its first lane makes, for the token which that lane needs (R205). -/
def Op.headOnly (o : Op) (a : Access) (p : Page) : Op := { o with kind := .insert false 0 0 [(a, p)] }

/-- One event of an insert or a deletion on objects of some kinds (R268, R388). -/
def State.performInsert (s : State) (op : Nat) (deletes : Bool) (kinds : Nat → Bool) : State :=
  match s.op op with
  | none => s
  | some o =>
    match o.kind with
    | .insert delete esz step ((a, p) :: rest) =>
      match s.objectOf a p with
      | none => s
      | some x =>
        if delete != deletes || !kinds x.held || !o.granted || !s.assayFree o then s
        else if !s.tokensHeld (o.headOnly a p) then s.askTokens (o.headOnly a p)
        else if step = 0 && s.objectBad x (x.touches esz a) then
          (s.assayRecord o a.lane causeData (a.via.getD a.addr)).nextLane o delete esz rest
        else if x.held = 0 || (delete && (x.held == 1 || x.held == 3)) then
          (s.assayRecord o a.lane causeType (a.via.getD a.addr)).nextLane o delete esz rest
        else
          let r := s.insertStep o.src.warp o.src.ctx delete esz step a x
          if r.2 then r.1.nextLane o delete esz rest
          else r.1.putOp { o with kind := .insert delete esz (step + 1) ((a, p) :: rest) }
    | _ => s

/-- FILT_INSERT: a step of an insert into a filter, or the failure of an insert into an object of no kind (R248,
R388). -/
def execFiltInsert (op : Nat) (s : State) : Host.Outcome State Fault Refusal :=
  .next (s.performInsert op false fun k => k == 1 || k == 0)
/-- FREQ_INSERT (R260). -/
def execFreqInsert (op : Nat) (s : State) : Host.Outcome State Fault Refusal := .next (s.performInsert op false (· == 2))
/-- FREQ_DELETE (R260), or the failure of a deletion from an object that forgets no key (R267, R388). -/
def execFreqDelete (op : Nat) (s : State) : Host.Outcome State Fault Refusal := .next (s.performInsert op true (· != 4))
/-- DIST_INSERT (R262). -/
def execDistInsert (op : Nat) (s : State) : Host.Outcome State Fault Refusal := .next (s.performInsert op false (· == 3))
/-- QUAN_INSERT (R264). -/
def execQuanInsert (op : Nat) (s : State) : Host.Outcome State Fault Refusal := .next (s.performInsert op false (· == 4))
/-- QUAN_DELETE (R264). -/
def execQuanDelete (op : Nat) (s : State) : Host.Outcome State Fault Refusal := .next (s.performInsert op true (· == 4))

/-! ## Queries (R225, R249, R260, R262, R265) -/

/-- One event of a query: the answer so far, and whether it is final.  Cells are read one by one in ascending order;
a distinct counter and a quantile summary are read as one event. -/
def State.queryStep (s : State) (esz step part : Nat) (a : Access) (x : Sketch) : Nat × Bool :=
  match x.held with
  | 1 =>
    let b := (s.bodyBit x (x.bitOf (keyOf a) step)).toNat
    (if step = 0 then b else Nat.min part b, decide (x.k ≤ step + 1))
  | 2 =>
    let c := s.counter x (x.cellOf (keyOf a) step)
    (if step = 0 then c else Nat.min part c, decide (x.k ≤ step + 1))
  | 3 => (if esz = 2 then Nat.min (s.estimate x) (2 ^ 32 - 1) else s.estimate x, true)
  | _ => (x.quantile (s.cells x) (readFloat 8 false (keyOf a % 2 ^ 32)), true)

/-- The cells that a query of a key reads. -/
def Sketch.asks (x : Sketch) (a : Access) : List Nat :=
  match x.held with
  | 1 => (List.range x.k).map (x.bitOf (keyOf a))
  | 2 => (List.range x.k).map (x.cellOf (keyOf a))
  | 0 => []
  | _ => List.range x.count

/-- May a query be performed?  It is a read that follows what the warp had completed (R181), but for inserts and deletions: only
a release orders those before it (R250). -/
def State.queryFree (s : State) (o : Op) : Bool :=
  !s.fenced o && !s.stalled o && s.ops.all fun x =>
    match x.kind with
    | .insert .. => true
    | _ => !(x.src.warp == o.src.warp && x.completed && x.kind.relaxed && decide (x.id < o.id ∧ x.doneAt ≤ o.id))

/-- The answers of a query are written with its flag, or its causes reported (R225, R388). -/
def State.finishQuery (s : State) (o : Op) (d esz : Nat) (ans : List (Nat × Nat)) (bad : List (Nat × Nat × Addr × Nat)) :
    State :=
  let s1 := s.dropOp o.id
  if !bad.isEmpty then
    let x := mergeFaults (bad.map fun e => ⟨e.1, e.2.1, e.2.2.1, 0, none⟩) true false
    s1.lateFault o { x with info := BitVec.ofNat 32 (((bad.find? fun e => e.2.1 == x.cause).map (·.2.2.2)).getD 0) }
  else
    let s2 := s1.mapWarp o.src.warp fun w => w.writeLanes (modeType o.src.mode) (esz == 3) d
      (maskOf fun n => ans.any fun e => e.1 == n) fun n => ((ans.find? fun e => e.1 == n).map (·.2)).getD 0
    s2.settleFlags o.src.warp

/-- The lane at the head of a query is answered, or fails. -/
def State.nextQuery (s : State) (o : Op) (d esz : Nat) (rest : List (Access × Page)) (ans : List (Nat × Nat))
    (bad : List (Nat × Nat × Addr × Nat)) : State :=
  if rest.isEmpty then s.finishQuery o d esz ans bad else s.putOp { o with kind := .query d esz 0 0 rest ans bad }

/-- One event of a query on objects of some kinds (R268, R388). -/
def State.performQuery (s : State) (op : Nat) (kinds : Nat → Bool) : State :=
  match s.op op with
  | none => s
  | some o =>
    match o.kind with
    | .query d esz step part ((a, p) :: rest) ans bad =>
      match s.objectOf a p with
      | none => s
      | some x =>
        if !kinds x.held || !s.queryFree o then s
        else if step = 0 && s.objectBad x (x.asks a) then s.nextQuery o d esz rest ans (bad ++ [(a.lane, causeData, a.via.getD a.addr, 0)])
        else if x.held = 0 then s.nextQuery o d esz rest ans (bad ++ [(a.lane, causeType, a.via.getD a.addr, 0)])
        else
          let r := s.queryStep esz step part a x
          if r.2 then s.nextQuery o d esz rest (ans ++ [(a.lane, r.1)]) bad
          else s.putOp { o with kind := .query d esz (step + 1) r.1 ((a, p) :: rest) ans bad }
    | _ => s

/-- FILT_QUERY: a step of a query of a filter, or the failure of a query of an object of no kind (R249, R388). -/
def execFiltQuery (op : Nat) (s : State) : Host.Outcome State Fault Refusal :=
  .next (s.performQuery op fun k => k == 1 || k == 0)
/-- FREQ_QUERY (R260). -/
def execFreqQuery (op : Nat) (s : State) : Host.Outcome State Fault Refusal := .next (s.performQuery op (· == 2))
/-- DIST_ESTIMATE (R262). -/
def execDistEstimate (op : Nat) (s : State) : Host.Outcome State Fault Refusal := .next (s.performQuery op (· == 3))
/-- QUAN_QUERY (R265). -/
def execQuanQuery (op : Nat) (s : State) : Host.Outcome State Fault Refusal := .next (s.performQuery op (· == 4))

/-! ## Initialisation, merges, folds (R269, R271, R315 to R317) -/

/-- Write a body: the cells in their layout, and zeros in what `old` bytes held before (R254). -/
def State.writeCells (s : State) (writer : Nat) (x : Sketch) (old : Nat) (cs : List Nat) : State :=
  let bs := cellBytes x.kind x.cell cs
  s.writeRun writer (x.pa + 64) (bs ++ List.replicate (old - bs.length) 0)

/-- FILL recounted and SAT judged again (R269, R271); `n` is N after the operation. -/
def State.rejudge (s : State) (writer ctx : Nat) (x : Sketch) (n : Nat) (cs : List Nat) : State :=
  match x.kind with
  | 1 =>
    let fill := cs.foldl (· + ·) 0
    let s1 := s.homeWrite writer (x.pa + 12) (leBytes fill 4)
    if x.full fill then s1.report writer ctx x n .sat else s1
  | _ => s

/-- Report SAT when a counter stands at MAX. -/
def State.reportMax (s : State) (writer ctx : Nat) (x : Sketch) (n : Nat) (cs : List Nat) : State :=
  if (x.kind == 2 || x.kind == 4) && cs.any (· == x.max) then s.report writer ctx x n .sat else s

/-- New cells, N, and sticky bits of a source go into an object: what a merge writes (R269). -/
def State.mergeCells (s : State) (w ctx : Nat) (x : Sketch) (n : Nat) (sticky : Nat → Bool) (cs : List Nat) : State :=
  let s1 := ((s.writeCells w x 0 cs).reportMax w ctx x n cs).setHeader w x 2 n
  let s2 := [Report.sat, .range, .zclamp].foldl (fun s b => if sticky b.bit then s.report w ctx x n b else s) s1
  s2.rejudge w ctx x n cs

/-- SKETCH_INIT_PERFORM: a new object, as one event (R268, R315). -/
def execSketchInitPerform (op : Nat) (s : State) : Host.Outcome State Fault Refusal :=
  .next (match s.op op with
    | none => s
    | some o =>
      match o.kind with
      | .skinit a p hdr =>
        match s.objectOf a p with
        | none => s
        | some x =>
          if !s.assayFree o || s.midStep x.pa then s
          else if !s.tokensHeld o then s.askTokens o
          else
            let ws := [hdr.getD 0 0, hdr.getD 1 0, 0, 0] ++ (hdr.drop 2).take 4
            let s1 := s.writeRun o.src.warp x.pa (ws.flatMap fun w => leBytes w.toNat 8)
            ((s1.writeRun o.src.warp (x.pa + 64) (List.replicate (2 ^ x.osz - 64) 0)).dropOp op).settleFlags o.src.warp
      | _ => s)

/-- The merge of a source into a destination whose headers agree (R269). -/
def State.mergeInto (s : State) (o : Op) (x y : Sketch) : State :=
  s.mergeCells o.src.warp o.src.ctx x (Nat.min (x.n + y.n) (2 ^ 64 - 1)) (y.h 1).testBit
    (((s.cells x).zip (s.cells y)).map fun p => x.mergeCell p.1 p.2)

/-- SKETCH_MERGE_PERFORM: a merge is performed at the destination's home, as one event (R269, R270, R316, R388). -/
def execSketchMergePerform (op : Nat) (s : State) : Host.Outcome State Fault Refusal :=
  .next (match s.op op with
    | none => s
    | some o =>
      match o.kind with
      | .skmerge a b p q =>
        match s.objectOf a p, s.objectOf b q with
        | some x, some y =>
          let fail := fun (c : Nat) => (s.dropOp op).lateFault o { cause := c, lanes := o.src.lanes, addr := a.addr }
          if !s.assayFree o || s.midStep x.pa then s
          else if !s.tokensHeld o then s.askTokens o
          else if s.objectBad x [] || s.objectBad y [] then fail causeData
          else if x.held = 0 || y.held = 0 then fail causeType
          else if !x.sameAs y then fail causeMerge
          else if s.objectBad x (List.range x.count) || s.objectBad y (List.range y.count) then fail causeData
          else ((s.mergeInto o x y).dropOp op).settleFlags o.src.warp
        | _, _ => s
      | _ => s)

/-- An object folded in place (R271). -/
def State.foldObject (s : State) (o : Op) (x : Sketch) (h : Nat) : State :=
  let w := o.src.warp
  let ctx := o.src.ctx
  let cs := x.foldCells (s.cells x)
  let y : Sketch := { x with d := h :: x.d.drop 1 }
  (((s.writeCells w y x.need cs).setHeader w x 0 h).reportMax w ctx y x.n cs).rejudge w ctx y x.n cs

/-- SKETCH_FOLD_PERFORM: a fold, as one event (R271, R317, R388). -/
def execSketchFoldPerform (op : Nat) (s : State) : Host.Outcome State Fault Refusal :=
  .next (match s.op op with
    | none => s
    | some o =>
      match o.kind with
      | .skfold a p =>
        match s.objectOf a p with
        | none => s
        | some x =>
          let fail := fun (c : Nat) => (s.dropOp op).lateFault o { cause := c, lanes := o.src.lanes, addr := a.addr }
          if !s.assayFree o || s.midStep x.pa then s
          else if !s.tokensHeld o then s.askTokens o
          else if s.objectBad x [] then fail causeData
          else
            match x.foldHeader with
            | none => fail causeType
            | some h =>
              if s.objectBad x (List.range x.count) then fail causeData
              else ((s.foldObject o x h).dropOp op).settleFlags o.src.warp
      | _ => s)

/-! ## The words (R314 to R319) -/

/-- The object that a uniform form addresses: the address reached, and its page (R314). -/
def View.uniformObject (v : View) (s : State) (a : BitVec 7) (b : BitVec 4) : Except FaultInfo (Access × Page × State) :=
  let buf := bufOf (v.w.breg b.toNat)
  match v.uniformReach s buf buf.size false true .sketch (loWord (v.w.sreg a.toNat)).toNat with
  | .error x => .error x
  | .ok r =>
    match r with
    | .mem va x =>
      .ok (⟨0, BitVec.ofNat 64 va, .pa (x.pa - objectOffset x), 2 ^ x.leaf.w1, [], none⟩, buf.page x, s.rememberAll v.crew [(0, r)])
    | _ => .error { cause := causeType, lanes := v.act, addr := BitVec.ofNat 64 r.addr }

/-- `skinit [bN, sA], sV` (R315): the parameters are judged at issue. -/
def execSkinit (d a : BitVec 7) (b : BitVec 4) (s : State) : Host.Outcome State Fault Refusal :=
  issueWord (fun _ =>
    { reads := [.s a.toNat, .b b.toNat] ++ (List.range 6).map fun i => .s (d.toNat + i), long := true,
      ok := decide (d.toNat ≤ 58) }) (fun v s =>
    let hdr := (List.range 6).map fun i => v.w.sreg (d.toNat + i)
    let x : Sketch := ⟨0, 0, 0, [(hdr.getD 0 0).toNat, (hdr.getD 1 0).toNat], []⟩
    if 2 ^ 16 ≤ x.h 1 || !x.fieldsOk then .fault s v.illegal
    else
      match v.uniformObject s a b with
      | .error e => .fault s e
      | .ok (acc, p, s1) =>
        if 2 ^ p.geom < x.need + 64 then .fault s { cause := causeType, lanes := v.act, addr := acc.addr }
        else .done ((s1.addOp v.src (.skinit acc p hdr) true false).endRegion v)) s

/-- `skmerge [bN, sA], sD` (R316): it completes when the merge has been performed, and ends the region (R58). -/
def execSkmerge (d a : BitVec 7) (b : BitVec 4) (s : State) : Host.Outcome State Fault Refusal :=
  issueWord (fun _ => { reads := [.s d.toNat, .s a.toNat, .b b.toNat], long := true }) (fun v s =>
    let src := v.w.sreg d.toNat
    if src.toNat ≥ 2 ^ 57 then .fault s v.illegal
    else
      match v.uniformObject s a b with
      | .error e => .fault s e
      | .ok (acc, p, s1) =>
        let bad := fun (c : Nat) => Res.fault s { cause := c, lanes := v.act, addr := src,
                                                  granule := if pageCause c then some (src.toNat / 65536) else none }
        if isMap src.toNat then bad causeType
        else
          match s1.translate v.crew.ctx v.crew.core src.toNat true false with
          | .error c => bad c
          | .ok x =>
            if x.leaf.pageType != some .sketch then bad causeType
            else
              let from' : Access := ⟨0, src, .pa (x.pa - objectOffset x), 2 ^ x.leaf.w1, [], none⟩
              let page : Page := ⟨.sketch, x.pa - x.pa % 2 ^ x.log, x.log, x.leaf.w1⟩
              .done (((s1.remember v.crew.ctx v.crew.core src.toNat).addOp v.src (.skmerge acc from' p page) true
                false).endRegion v)) s

/-- `skfold [bN, sA]` (R317): it completes when the fold has been performed, and ends the region (R58). -/
def execSkfold (a : BitVec 7) (b : BitVec 4) (s : State) : Host.Outcome State Fault Refusal :=
  issueWord (fun _ => { reads := [.s a.toNat, .b b.toNat], long := true }) (fun v s =>
    match v.uniformObject s a b with
    | .error e => .fault s e
    | .ok (acc, p, s1) => .done ((s1.addOp v.src (.skfold acc p) true false).endRegion v)) s

/-- `skdel [bN, vI], vD` (R318). -/
def execSkdel (d a : BitVec 7) (b : BitVec 4) (u : BitVec 1) (s : State) : Host.Outcome State Fault Refusal :=
  issueWord (fun v =>
    let esz := (bufOf (v.w.breg b.toNat)).esz
    shapeStore d a b u (decide (2 ≤ esz)) v) (fun v s =>
    let buf := bufOf (v.w.breg b.toNat)
    let r := v.reachAll s buf buf.clamp false false true false (fun _ x => buf.pageType x == .sketch) u a
    let more : List LaneFault := r.2.filterMap fun e => match e.2 with
      | .fab x => some ⟨e.1, causeType, BitVec.ofNat 64 x, 0, none⟩
      | .mem x y => if objectOffset y < headerBytes then some ⟨e.1, causeHeader, BitVec.ofNat 64 x, 0, none⟩ else none
      | _ => none
    let bad := r.1 ++ more
    if !bad.isEmpty then .fault s (mergeFaults bad false true)
    else
      let accs := (accessesOf r.2 buf.size fun n => leBytes (v.w.laneBits (buf.esz == 3) d.toNat n) buf.size).map fun x =>
        (x, ((r.2.find? fun e => e.1 == x.lane).map fun e => e.2.page buf).getD Page.none)
      let s1 := s.rememberAll v.crew r.2
      .done (if accs.isEmpty then s1
        else (s1.addOp v.src (.insert true buf.esz 0 accs) true false).endRegion v)) s

/-- Is a request one of the sketch operations that `skstat` waits for (R319): a `st` over the fabric may turn out to be one until its
target has accepted it (R330)? -/
def Op.sketching (o : Op) : Bool :=
  match o.kind with
  | .insert .. | .skinit .. | .skmerge .. | .skfold .. => true
  | .store none _ l => !o.completed && o.src.first.isNone && l.any fun x => match x.place with
    | .fab _ => decide (4 ≤ x.size)
    | _ => false
  | _ => false

/-- `skstat sD, n` (R319). -/
def execSkstat (d n : BitVec 7) (s : State) : Host.Outcome State Fault Refusal :=
  issueWord (fun _ => { writes := [.s d.toNat], ok := decide (n.toNat < 4) }) (fun v s =>
    let lim := v.limit s
    if s.ops.any fun o => o.src.warp == v.key && decide (o.id < lim) && o.sketching then v.holdAt s .held
    else onWarp v s fun w => w.setS d.toNat
      ((((Tab.lookup v.crew.ctx s.ctxs).map fun (c : Context) => c.skstats.getD n.toNat 0).getD 0).setWidth 64)) s

end Sys2Proof.Machine
end

