-- ==== Sys2Proof/Machine/OnChip.lean ====
section
/-! DEFINITION. Storage behind the on-chip map: reading and writing it, and MAP_ACCESS_PERFORM (R35, R193, R194, R243,
R293). -/

namespace Sys2Proof.Machine

/-! ## Accumulator tiles (R274, R278) -/

/-- The 32 bits of an element; an unlisted one is +0.0. -/
def Acc.elem (a : Acc) (row col : Nat) : Word := a.words.getD (32 * row + col) 0

/-- All 2,048 elements, listed. -/
def Acc.all (a : Acc) : List Word := (List.range 2048).map fun i => a.words.getD i 0

/-- Change a tile of a quadrant's window. -/
def Crew.setTile (c : Crew) (quad t : Nat) (a : Acc) : Crew := { c with acc := Tab.set Acc.start c.acc (8 * quad + t) a }

/-- Bytes of a crew's scratchpad. -/
def Crew.spadBytes (c : Crew) (off n : Nat) : List (BitVec 8) := (List.range n).map fun i => Tab.get 0 c.spad (off + i)

/-! ## Reading and writing storage -/

/-- A register of a lane as bytes from lane `l` upward. -/
def Warp.laneBytes (w : Warp) (r l n : Nat) : List (BitVec 8) :=
  (leBytes ((w.vreg r).get l).toNat 4 ++ leBytes ((w.vreg r).get (l + 1)).toNat 4).take n

/-- `n` bytes of a place, `sub` bytes into its element. -/
def State.chipRead (s : State) (sub n : Nat) : Chip → List (BitVec 8)
  | .spad k off => ((Tab.lookup k s.crews).map fun c => c.spadBytes off n).getD []
  | .acc k q t row col =>
    ((Tab.lookup k s.crews).map fun c =>
      ((leBytes ((c.tile q t).elem row col).toNat 4 ++ leBytes ((c.tile q t).elem row (col + 1)).toNat 4).drop sub).take n).getD []
  | .reg k r l => ((Tab.lookup k s.warps).map fun w => ((w.laneBytes r l 8).drop sub).take n).getD []

/-- Write bytes into words: `bs` from byte `sub` of the first word. -/
def overWords (ws : List Word) (sub : Nat) (bs : List (BitVec 8)) : List Word :=
  let old := ws.flatMap fun w => leBytes w.toNat 4
  let new := overlay 0 old sub bs
  ws.mapIdx fun i _ => BitVec.ofNat 32 (leNat ((new.drop (4 * i)).take 4))

/-- Write bytes into a place; a register's tile takes the writer's type (R76, R243), an accumulator keeps its tags
(R293). -/
def State.chipWrite (s : State) (ty sub : Nat) (bs : List (BitVec 8)) : Chip → State
  | .spad k off => s.mapCrew k fun c =>
    { c with spad := putBytes c.spad off bs, spadBad := c.spadBad.filter fun g => !granuleCovered off bs.length g }
  | .acc k q t row col => s.mapCrew k fun c =>
    let a := c.tile q t
    let at0 := 32 * row + col
    let all := a.all
    let n := if sub + bs.length ≤ 4 then 1 else 2
    c.setTile q t { a with words := all.take at0 ++ overWords ((all.drop at0).take n) sub bs ++ all.drop (at0 + n) }
  | .reg k r l => s.mapWarp k fun w =>
    let n := if sub + bs.length ≤ 4 then 1 else 2
    let new := overWords ((List.range n).map fun i => (w.vreg r).get (l + i)) sub bs
    w.setV ty r (maskOf fun j => decide (l ≤ j ∧ j < l + n)) (Lanes.ofFn fun j => new.getD (j - l) 0)

/-- The byte of an access within its 4-byte element. -/
def Access.sub (x : Access) : Nat := match x.place with
  | .map a => a.toNat % 4
  | _ => 0

/-- Where each access of a request leads now: a stall, causes of lanes, or places (R35, R193); `late` when it had reached the
storage before (R243). -/
def State.targets (s : State) (o : Op) (late : Bool) (l : List Access) : List (Access × MapAnswer) :=
  l.map fun x => (x, match s.crewOf o, x.place with
    | some me, .map a => s.mapTarget me late a.toNat
    | _, _ => .bad causeCoordinate)

/-- The causes of accesses at their storage: those of R193, uncorrectable data for a read, an armed range for a write. -/
def State.chipFaults (s : State) (write : Bool) (l : List (Access × MapAnswer)) : List LaneFault :=
  l.filterMap fun e =>
    match e.2 with
    | .bad c => some ⟨e.1.lane, c, e.1.addr, 0, none⟩
    | .chip c =>
      if write && s.chipArmed e.1.size c then some ⟨e.1.lane, causeArmed, e.1.addr, 0, none⟩
      else if !write && s.chipBad e.1.size c then some ⟨e.1.lane, causeData, e.1.addr, 0, none⟩
      else none
    | .stall => none

/-- Do all accesses of a list stand in the map? -/
def onMap (l : List Access) : Bool := l.all fun x => match x.place with
  | .map _ => true
  | _ => false

/-- One lane access of a load through the map, at its storage (R194, R203). -/
def State.performMapLoad (s : State) (o : Op) (w : LoadWord) (p : Page) (cached : Bool) (l : List Access) (got : List LaneValue) :
    State :=
  let ev := s.eventOf l
  let ts := s.targets o false ev
  if !s.loadFree o || (s.earlier o).any (fun x => x.kind.isStore) || !s.ordered o || (ts.any fun e => e.2 == .stall) then s
  else
    let bad := s.chipFaults false ts
    if !bad.isEmpty then (s.dropWord o).lateFault o (mergeFaults bad true false)
    else
      let vals := ts.map fun e => match e.2 with
        | .chip c =>
          let v := s.loadedValue o.src.mode p w.draws e.1 (s.chipRead e.1.sub e.1.size c)
          ⟨e.1.lane, v.1, v.2.1, v.2.2, false⟩
        | _ => ⟨e.1.lane, 0, false, Exc.none, false⟩
      s.gotLanes o w p cached (leftAfter l ev) (got ++ vals)

/-- The requests of the store that made a request which its targets are still to accept, all together (R54, R84): those in the
map, or those over the fabric. -/
def State.opsOfStore (s : State) (o : Op) (there : List Access → Bool) : List Op :=
  s.ops.filter fun x => x.word == o.word && x.kind.isStore && there x.kind.accs && !x.completed

/-- None of a word's requests is made any more. -/
def State.dropOps (s : State) (l : List Op) : State := { s with ops := s.ops.filter fun x => !l.any fun y => y.id == x.id }

/-- The store that makes a request is accepted below a lane: what the lanes before it write stays, the rest is made no more. -/
def State.acceptBelow (s : State) (word : List Op) (lane : Nat) : State :=
  let cut := fun (x : Op) => match x.kind with
    | .store rel e l => some (l.filter fun a => a.lane < lane, rel, e)
    | _ => none
  { s with ops := s.ops.filterMap fun x =>
      if word.any fun y => y.id == x.id then match cut x with
        | some (a :: l, rel, e) => some { x with kind := .store rel e (a :: l), completed := true, doneAt := s.nextId, granted := true }
        | _ => none
      else some x }

/-- What a `cstore` reports of its first failing element, which lane `n` holds: that lane and every later one, and the index of the
element (R227). -/
def Op.compactFault (o : Op) (i : Nat) (x : LaneFault) : FaultInfo :=
  { cause := x.cause, lanes := o.src.lanes &&& maskOf (fun n => decide (x.lane ≤ n)), addr := x.addr,
    info := BitVec.ofNat 32 (i + popCount (o.src.lanes &&& maskOf fun n => decide (n < x.lane))), read := false, write := true }

/-- A store through the map is accepted at its storage, all of it or, with a cause in any lane, none, but for the elements of a
`cstore` before the first that fails (R54, R84, R217, R227).  What is accepted can no longer fault. -/
def State.acceptMap (s : State) (o : Op) : State :=
  let word := s.opsOfStore o onMap
  let ts := s.targets o false (word.flatMap fun x => x.kind.accs)
  if ts.any fun e => e.2 == .stall then s
  else
    let bad := s.chipFaults true ts
    if bad.isEmpty then
      let s1 := word.foldl (fun s x => s.putOp { x with completed := true, doneAt := s.nextId }) s
      let exc := Exc.sum (word.map fun x => match x.kind with
        | .store _ e _ => e
        | _ => Exc.none)
      (s1.mapWarp o.src.warp fun w => w.raiseExc exc).settleFlags o.src.warp
    else match o.src.first, lowestOf bad with
      | some i, some x => (s.acceptBelow word x.lane).lateFault o (o.compactFault i x)
      | _, _ => (s.dropOps word).lateFault o (mergeFaults bad false true)

/-- One lane access of an accepted store through the map, at its storage.  Storage that is gone by then keeps nothing
(notes/assumptions/43). -/
def State.performMapStore (s : State) (o : Op) (rel : Option (BitVec 6)) (exc : Exc) (l : List Access) : State :=
  let ev := s.eventOf l
  let ts := s.targets o true ev
  if !s.writeFree o || (ts.any fun e => e.2 == .stall) then s
  else
    let r := s.storeRelease o rel
    if !r.2 then r.1
    else
      let s1 := ts.foldl (fun s e => match e.2 with
        | .chip c => s.chipWrite (modeType o.src.mode) e.1.sub e.1.data c
        | _ => s) r.1
      let rest := leftAfter l ev
      s1.putLeft o (.store rel exc rest) rest

/-- MAP_ACCESS_PERFORM: a map access is performed at the target storage (R194, R243, R293); a store is accepted there first. -/
def execMapAccessPerform (op : Nat) (s : State) : Host.Outcome State Fault Refusal :=
  .next (match s.op op with
    | none => s
    | some o =>
      match o.kind with
      | .load w p cached l got => if onMap l then s.performMapLoad o w p cached l got else s
      | .store rel exc l =>
        if !onMap l then s else if o.completed then s.performMapStore o rel exc l else s.acceptMap o
      | _ => s)

end Sys2Proof.Machine
end

