-- ==== Sys2Proof/Machine/Copy.lean ====
section
/-! DEFINITION. Engine operations that are counted and retire (R212, R239), writes of agents other than cores (R205), the
fabric's way to a place (R329 to R332), and copies (R241, R242). -/

namespace Sys2Proof.Machine

/-! ## Counting and retiring (R212, R239) -/

/-- The class of an engine operation: cp 0, gr 1, co 2, st 3, fb 4. -/
def OpKind.cls : OpKind → Option Nat
  | .copy fb .. => some (if fb then 4 else 0)
  | .gred .. => some 1
  | .coll _ => some 2
  | .stopeLoad .. => some 3
  | .stopeRun .. => some 3
  | .mcst _ => some 4
  | _ => none

/-- Is a class counter of the issuing warp full, so that the word holds (R239)? -/
def View.full (v : View) (cls : Nat) : Bool := decide (65535 ≤ v.w.oc.get cls)

/-- Count an engine operation of the issuing warp and add it: its flag no longer waits for it (R84). -/
def State.addEngine (s : State) (v : View) (cls : Nat) (kind : OpKind) : State :=
  (s.mapWarp v.key fun w => { w with oc := w.oc.map cls (· + 1) }).addOp v.src kind true true

/-- Is an operation the oldest of its class in its warp? -/
def State.oldest (s : State) (o : Op) : Bool :=
  s.ops.all fun x => !(x.src.warp == o.src.warp && decide (x.id < o.id) && x.kind.cls == o.kind.cls)

/-- An engine operation retires: its class counter falls by one (R212). -/
def State.retire (s : State) (o : Op) : State :=
  match o.kind.cls with
  | none => s
  | some c => (s.mapWarp o.src.warp fun w =>
      { w with oc := w.oc.map c (· - 1), pending := w.pending.filter fun q => q.op != o.id || q.flag != 16 }).dropOp o.id

/-- Registers that stay hazardous to any word of the warp until an engine operation retires, whatever a header waits for (R336,
R359): they are tied to no flag of a header. -/
def State.pendEngine (s : State) (v : View) (regs : List Reg) : State :=
  s.mapWarp v.key fun w => { w with pending := w.pending ++ [⟨s.nextId, regs, 16, 0xFF⟩] }

/-! ## Writes of agents other than cores (R205, R206) -/

/-- The token regions of contexts that hold a physical address: context and region. -/
def State.regionsAt (s : State) (pa : Nat) : List (Nat × Nat) :=
  s.ctxs.flatMap fun e => (e.2.tokens.mapIdx fun i t => (i, t)).filterMap fun r =>
    if s.paInRegion e.1 r.2 pa then some (e.1, r.1) else none

/-- Do the token regions at a physical address let an agent outside the cores write, which stands in their queues under a number:
the token has reached it, or is free and nobody asks (R205)? -/
def State.tokensLet (s : State) (pa : Nat) (who : Nat := outsider) : Bool :=
  (s.regionsAt pa).all fun r =>
    match s.tokenRegion r.1 r.2 with
    | none => true
    | some t => t.holder == some who || (t.holder.isNone && t.asking.isEmpty)

/-- May an agent other than a core write at an address now: no lease over it, and the token of its region, if any, free
and unasked for, or granted to it? -/
def State.outsideFree (s : State) (pa : Nat) (who : Nat := outsider) : Bool := !s.leased pa && s.tokensLet pa who

/-- Ask for the tokens that a write of such an agent needs and has not (R205). -/
def State.outsideAsk (s : State) (pa : Nat) (who : Nat := outsider) : State :=
  (s.regionsAt pa).foldl (fun s r =>
    if (s.tokenRegion r.1 r.2).any fun t => t.holder == some who then s else s.askToken r.1 r.2 who) s

/-- A write of such an agent at the home, which leaves the tokens free (R205). -/
def State.outsideWrite (s : State) (writer pa : Nat) (bs : List (BitVec 8)) (who : Nat := outsider) : State :=
  (s.regionsAt pa).foldl (fun s r => s.mapToken r.1 r.2 fun t =>
    if t.holder == some who then { t with holder := none } else t) (s.homeWrite writer pa bs)

/-- A write of the host, of Gallery or of a peer that must wait stands in the queue of the home, and asks for the tokens that it
needs (R205, R206). -/
def State.outsideWait (s : State) (pa : Nat) (x : OutsideWrite) : State :=
  let t := s.outsideAsk pa (agentOf s.nextId)
  { t with outside := t.outside ++ [(s.nextId, x)], nextId := s.nextId + 1 }

/-! ## Packets that wait at their port (R332) -/

/-- The ranks of other modules' or this module's contexts to which the packets of a request go. -/
def OpKind.ranks : OpKind → List Nat
  | .copy _ _ _ rows => rows.flatMap fun r => [r.src, r.dst].filterMap fun p => match p with
    | .fab a => some (fabRank a)
    | _ => none
  | .mcst m => m.members.filter fun r => m.sent && !(m.replies.any fun q => q.1 == r)
  | k => k.accs.filterMap fun y => match y.place with
    | .fab a => some (fabRank a)
    | _ => none

/-- Has a request's packet to a rank been accepted: an engine's packets leave `ranks` one by one, a word's accesses are accepted
together? -/
def Op.accepted (o : Op) : Bool := o.completed && o.kind.cls.isNone

/-- Is a packet of a context to a rank outstanding that was sent before a request number? -/
def State.outstanding (s : State) (ctx rank since : Nat) : Bool :=
  s.ops.any fun x => x.src.ctx == ctx && decide (x.id < since) && x.kind.ranks.contains rank

/-- Does a request's packet to a rank wait at its port for one nacked before it, which is not yet accepted again (R332)? -/
def State.behindNackedTo (s : State) (o : Op) (rank : Nat) : Bool :=
  match Tab.get [] (((Tab.lookup o.src.ctx s.ctxs).map (·.remap)).getD []) rank with
  | [_, f] => f.drained && decide (f.since ≤ o.id) &&
      s.ops.any fun x => x.src.ctx == o.src.ctx && decide (x.id < f.since) && !x.accepted && x.kind.ranks.contains rank
  | _ => false

/-- Does a request wait so, with a packet to any rank? -/
def State.behindNacked (s : State) (o : Op) : Bool := o.kind.ranks.any (s.behindNackedTo o)

/-- A free number below n. -/
def State.freeBelow (s : State) (k n : Nat) : Nat :=
  if n ≤ 1 then 0 else (Config.word (2 * s.freeCtr + k)).toNat % n

/-- Free bytes. -/
def State.freeBytes (s : State) (at0 n : Nat) : List (BitVec 8) :=
  (List.range n).map fun i => Config.byte (2 ^ 32 * s.freeCtr + at0 + i)

/-! ## The ranges of a copy (R241) -/

/-- A range of a copy: its record, first element, rows and bytes of a row. -/
structure CopyRange where
  buf : Buf
  first : Nat
  rows : Nat
  len : Nat
  deriving DecidableEq, Repr

/-- The byte offset of a row's start within the record. -/
def CopyRange.start (c : CopyRange) (r : Nat) : Nat := (c.first + r) * c.buf.stride

/-- Is the range one of the on-chip map? -/
def CopyRange.map (c : CopyRange) : Bool := !c.buf.fab && isMap c.buf.base

/-- Cut `n` bytes from address `a`, the byte of the copy being number `pos`, at multiples of `unit`: at most `fuel`
pieces. -/
def cutAt (unit : Nat) : Nat → Nat → Nat → Nat → List (Nat × Nat × Nat)
  | 0, _, _, _ => []
  | fuel + 1, pos, a, n =>
    if n = 0 then []
    else
      let m := Nat.min n (unit - a % unit)
      (pos, m, a) :: cutAt unit fuel (pos + m) (a + m) (n - m)

/-- The pieces of a range: byte of the copy, length, address.  A piece lies in one 64 KiB granule, or in 128 bytes of the
map; a swizzled range falls into 16-byte chunks. -/
def CopyRange.pieces (c : CopyRange) : List (Nat × Nat × Nat) :=
  (List.range c.rows).flatMap fun r =>
    let o := c.start r
    if c.buf.swz = 0 then
      let unit := if c.map then 128 else 65536
      cutAt unit (c.len / unit + 2) (c.len * r) (c.buf.base + o) c.len
    else (cutAt 16 (c.len / 16 + 2) (c.len * r) o c.len).map fun p => (p.1, p.2.1, c.buf.base + swizzle c.buf.swz p.2.2)

/-- The 64 KiB granules of a range in memory, which are translated at issue. -/
def CopyRange.granules (c : CopyRange) : List Nat :=
  if c.buf.fab || isMap c.buf.base then [] else (c.pieces.map fun p => p.2.2 / 65536).eraseDups

/-- Pair the pieces of destination and source: byte of the copy, length, destination and source address. -/
def zipPieces : Nat → List (Nat × Nat × Nat) → List (Nat × Nat × Nat) → List (Nat × Nat × Nat × Nat)
  | fuel + 1, (p, n, a) :: ds, (q, m, b) :: ss =>
    let k := Nat.min n m
    (p, k, a, b) :: zipPieces fuel (if n = k then ds else (p + k, n - k, a + k) :: ds)
      (if m = k then ss else (q + k, m - k, b + k) :: ss)
  | _, _, _ => []

/-- The first byte of a range outside its record, or past the record's half of the address space (R187, R241). -/
def CopyRange.outside (c : CopyRange) : Option Nat :=
  let limit := c.buf.extent * c.buf.stride
  let room := if isMap c.buf.base then 2 ^ 57 - c.buf.base else 2 ^ 56 - c.buf.base
  let bad := fun (r : Nat) =>
    let e := c.start r + c.len
    if Nat.min limit room < e then some (c.buf.base + Nat.max (c.start r) (Nat.min limit room)) else none
  if c.len = 0 then none else (List.range c.rows).findSome? bad

/-- The causes that the bytes of a range meet at issue, each with its lowest address (R241). -/
def State.rangeCauses (s : State) (v : View) (c : CopyRange) (write : Bool) : List (Nat × Nat) :=
  if c.rows * c.len = 0 then []
  else
    let a0 := c.buf.base + swizzle c.buf.swz (c.start 0)
    let raw := c.buf.raw && !s.privileged v.crew.ctx
    let swz := c.buf.swz ≠ 0 ∧ (c.start 0 % 16 ≠ 0 ∨ c.len % 16 ≠ 0 ∨ (1 < c.rows ∧ c.buf.stride % 16 ≠ 0))
    let odd := c.map ∧ (a0 % 4 ≠ 0 ∨ c.len % 4 ≠ 0 ∨ (1 < c.rows ∧ c.buf.stride % 4 ≠ 0))
    let outs := match c.outside with
      | some a => [(causeBounds, a % 2 ^ 64)]
      | none => []
    let early := outs ++ (if swz ∨ odd then [(causeMisaligned, a0)] else []) ++ (if raw then [(causePermission, 0)] else [])
    if raw ∨ c.buf.fab ∨ !early.isEmpty then early
    else
      early ++ c.pieces.filterMap fun p =>
        if c.map then
          match s.mapTarget v.crew false p.2.2 with
          | .bad e => if e = causeWindow then none else some (e, p.2.2)
          | _ => none
        else
          match s.translate v.crew.ctx v.crew.core p.2.2 (!write) write with
          | .error e => some (e, p.2.2)
          | .ok x => if write && c.buf.pageType x == .sketch then some (causeType, p.2.2) else none

/-- The place of a piece of a range. -/
def State.piecePlace (s : State) (v : View) (b : Buf) (write : Bool) (a : Nat) : Place :=
  if b.fab then .fab (BitVec.ofNat 64 a)
  else if isMap a then .map (BitVec.ofNat 64 a)
  else match s.translate v.crew.ctx v.crew.core a (!write) write with
    | .ok x => .pa x.pa
    | .error _ => .fab 0

/-- A copy between two ranges of equal shape (R241). -/
def copyBody (dst src : CopyRange) (v : View) (s : State) : Res :=
  let fb := dst.buf.fab || src.buf.fab
  let cls := if fb then 4 else 0
  if v.full cls then .hold s .held
  else
    let cd := s.rangeCauses v dst true
    let cs := s.rangeCauses v src false
    let all := (cd ++ cs).map (·.1)
    if !all.isEmpty then
      let c := leastOf all
      let pick := fun (l : List (Nat × Nat)) => leastOf ((l.filter fun e => e.1 == c).map (·.2))
      let inSrc := !(cd.any fun e => e.1 == c)
      let a := if inSrc then pick cs else pick cd
      .fault s { cause := c, lanes := v.act, addr := BitVec.ofNat 64 a, info := field 0 inSrc.toNat,
                 granule := if pageCause c && a != 0 then some (a / 65536) else none, read := inSrc, write := !inSrc }
    else
      let ps := zipPieces (dst.pieces.length + src.pieces.length) dst.pieces src.pieces
      if ps.isEmpty then .done s
      else
        let rows := ps.map fun p =>
          (⟨p.1, p.2.1, s.piecePlace v dst.buf true p.2.2.1, s.piecePlace v src.buf false p.2.2.2,
            BitVec.ofNat 64 p.2.2.1⟩ : CopyRow)
        let s1 := ps.foldl (fun s p =>
          let keep := fun (b : Buf) (a : Nat) (s : State) => if b.fab || isMap a then s else s.remember v.crew.ctx v.crew.core a
          keep dst.buf p.2.2.1 (keep src.buf p.2.2.2 s)) s
        .done (s1.addEngine v cls (.copy fb dst.buf.raw (dst.granules ++ src.granules) rows))

/-- The operands of a copy word: records and the uniform pair. -/
def copyShape (d s' : BitVec 4) (k : BitVec 6) (ok : View → Bool) (v : View) : Shape :=
  { reads := [.b d.toNat, .b s'.toNat, .s k.toNat, .s (k.toNat + 1)], long := true,
    ok := k.toNat % 2 == 0 && ok v }

/-- The first elements that a copy word names: destination and source. -/
def copyFirst (v : View) (k : BitVec 6) : Nat × Nat :=
  ((loWord (v.w.sreg k.toNat)).toNat, (hiWord (v.w.sreg k.toNat)).toNat)

/-- `cpy bD, bS, sK` (R241). -/
def execCpy (d s' : BitVec 4) (k : BitVec 6) (s : State) : Host.Outcome State Fault Refusal :=
  issueWord (copyShape d s' k fun _ => true) (fun v s =>
    let n := (loWord (v.w.sreg (k.toNat + 1))).toNat
    copyBody ⟨bufOf (v.w.breg d.toNat), (copyFirst v k).1, 1, n⟩ ⟨bufOf (v.w.breg s'.toNat), (copyFirst v k).2, 1, n⟩ v s) s

/-- `cpy2d bD, bS, sK` (R241). -/
def execCpy2d (d s' : BitVec 4) (k : BitVec 6) (s : State) : Host.Outcome State Fault Refusal :=
  issueWord (copyShape d s' k fun v => bitsOf (v.w.sreg (k.toNat + 1)).toNat 48 16 == 0) (fun v s =>
    let x := (v.w.sreg (k.toNat + 1)).toNat
    let rows := bitsOf x 32 16
    let n := bitsOf x 0 32
    copyBody ⟨bufOf (v.w.breg d.toNat), (copyFirst v k).1, rows, n⟩ ⟨bufOf (v.w.breg s'.toNat), (copyFirst v k).2, rows, n⟩
      v s) s

/-! ## A copy under way (R212, R242) -/

/-- Where a copy meets what ends it, within a piece: byte of the copy, cause, origin and refusal code. -/
structure CopyEnd where
  pos : Nat
  cause : Nat
  origin : Nat
  code : Nat
  deriving DecidableEq, Repr

/-- The first byte of `n` bytes from `a` upward that lies in a granule with an uncorrectable error. -/
def State.firstBad (s : State) (a n : Nat) : Option Nat :=
  if s.uncorrectable a n then
    some (leastOf ((s.bad.filter fun g => decide (frameOf a < (g + 1) * 2 ^ Config.granuleLog ∧
      g * 2 ^ Config.granuleLog < frameOf a + n)).map fun g => g * 2 ^ Config.granuleLog - frameOf a))
  else none

/-- What ends a copy in a piece of it, if anything does now.  A target page that refuses a copy ends it as any refusal does
(R330); a SKETCH page refuses one that is not RAW (R195, R241). -/
def State.pieceEnd (s : State) (o : Op) (raw : Bool) (r : CopyRow) : Option CopyEnd :=
  let fab := fun (a : Addr) (write : Bool) =>
    if s.remote o.src.ctx o.id a then none
    else match s.fabAt o.src.ctx o.id a 0 r.len (!write) write with
      | .error (_, c) => some (⟨r.pos, causeNotPresent, 4, c⟩ : CopyEnd)
      | .ok (_, x) =>
        if write then if !raw && x.leaf.typeCode == 6 then some ⟨r.pos, causeNotPresent, 4, nackNoMap⟩ else none
        else (s.firstBad x.pa r.len).map fun k => ⟨r.pos + k, causeData, 1, 0⟩
  let chip := fun (a : Addr) (write : Bool) =>
    match (s.crewOf o).map fun me => s.mapTarget me false a.toNat with
    | some (.bad c) => some (⟨r.pos, c, 1, 0⟩ : CopyEnd)
    | some (.chip c) =>
      if write then if s.chipArmed r.len c then some ⟨r.pos, causeArmed, 1, 0⟩ else none
      else ((List.range r.len).find? fun i => s.chipBad 1 (c.further i)).map fun i => ⟨r.pos + i, causeData, 1, 0⟩
    | _ => none
  let first := match r.src with
    | .pa a => (s.firstBad a r.len).map fun k => (⟨r.pos + k, causeData, 1, 0⟩ : CopyEnd)
    | .map a => chip a false
    | .fab a => fab a false
  let second := match r.dst with
    | .pa _ => none
    | .map a => chip a true
    | .fab a => fab a true
  match first, second with
  | some x, some y => if y.pos ≤ x.pos then some y else some x
  | some x, none => some x
  | none, y => y

/-- The first place that ends a copy now. -/
def State.copyEnd (s : State) (o : Op) (raw : Bool) (rows : List CopyRow) : Option CopyEnd :=
  rows.foldl (fun b r => match b, s.pieceEnd o raw r with
    | none, y => y
    | some x, some y => if y.pos < x.pos then some y else some x
    | b, none => b) none

/-- Does a copy read or write in another module? -/
def State.copyRemote (s : State) (o : Op) (rows : List CopyRow) : Option Nat :=
  rows.findSome? fun r =>
    let far := fun (p : Place) => match p with
      | .fab a => s.remote o.src.ctx o.id a
      | _ => false
    if far r.dst || far r.src then some r.pos else none

/-- The `n` bytes at a source place, `off` bytes into it; none while the place stalls. -/
def State.copyRead (s : State) (o : Op) (off n : Nat) : Place → Option (List (BitVec 8))
  | .pa a => if s.leased (a + off) then none else some (s.bytes (a + off) n)
  | .map a =>
    match (s.crewOf o).map fun me => s.mapTarget me false (a.toNat + off) with
    | some (.chip c) => some (s.chipRead ((a.toNat + off) % 4) n c)
    | _ => none
  | .fab a =>
    if s.remote o.src.ctx o.id a then some (s.freeBytes 0 n)
    else match s.fabAt o.src.ctx o.id a off n true false with
      | .ok (_, x) => if s.leased x.pa then none else some (s.bytes x.pa n)
      | .error _ => none

/-- Write at a destination place, `off` bytes into it; none while the write waits, then with the tokens asked for. -/
def State.copyWrite (s : State) (o : Op) (off : Nat) (bs : List (BitVec 8)) : Place → State × Bool
  | .pa a =>
    if s.outsideFree (a + off) (agentOf o.id) then (s.outsideWrite o.src.warp (a + off) bs (agentOf o.id), true)
    else (s.outsideAsk (a + off) (agentOf o.id), false)
  | .map a =>
    match (s.crewOf o).map fun me => s.mapTarget me false (a.toNat + off) with
    | some (.chip c) => (s.chipWrite (modeType o.src.mode) ((a.toNat + off) % 4) bs c, true)
    | _ => (s, false)
  | .fab a =>
    if s.remote o.src.ctx o.id a then (s, true)
    else match s.fabAt o.src.ctx o.id a off bs.length false true with
      | .ok (_, x) =>
        if s.outsideFree x.pa (agentOf o.id) then (s.outsideWrite o.src.warp x.pa bs (agentOf o.id), true)
        else (s.outsideAsk x.pa (agentOf o.id), false)
      | .error _ => (s, false)

/-- The destination address of a piece within its aligned words. -/
def CopyRow.base (r : CopyRow) : Nat := match r.dst with
  | .pa a => a
  | .map a => a.toNat
  | .fab a => a.toNat

/-- The number of aligned destination words that a piece touches, and the bytes of word k: offset and length. -/
def CopyRow.words (r : CopyRow) : Nat := (r.base + r.len - 1) / 4 - r.base / 4 + 1
def CopyRow.word (r : CopyRow) (k : Nat) : Nat × Nat :=
  let lo := Nat.max r.base (4 * (r.base / 4 + k))
  let hi := Nat.min (r.base + r.len) (4 * (r.base / 4 + k) + 4)
  (lo - r.base, hi - lo)

/-- A place some bytes further on. -/
def Place.add (p : Place) (n : Nat) : Place := match p with
  | .pa a => .pa (a + n)
  | .map a => .map (a + BitVec.ofNat 64 n)
  | .fab a => .fab (a + BitVec.ofNat 64 n)

/-- Which of the three spaces a place stands in. -/
def Place.space : Place → Nat
  | .pa _ => 0
  | .map _ => 1
  | .fab _ => 2

/-- What is left of a piece without `n` bytes from `off` on. -/
def CopyRow.without (r : CopyRow) (off n : Nat) : List CopyRow :=
  (if off = 0 then [] else [{ r with len := off }]) ++
  (if off + n < r.len then
    [⟨r.pos + off + n, r.len - off - n, r.dst.add (off + n), r.src.add (off + n), r.addr + BitVec.ofNat 64 (off + n)⟩] else [])

/-- Cut a piece at a byte of the copy. -/
def CopyRow.from (r : CopyRow) (p : Nat) : List CopyRow :=
  if r.pos + r.len ≤ p then [r] else if p ≤ r.pos then [r] else [{ r with len := p - r.pos },
    ⟨p, r.pos + r.len - p, r.dst.add (p - r.pos), r.src.add (p - r.pos), r.addr + BitVec.ofNat 64 (p - r.pos)⟩]

/-- Are the writes of a copy performed in ascending order: those that something may end in mid-course (R217, R242)? -/
def inOrder (rows : List CopyRow) : Bool := rows.any fun r => match r.dst with
  | .pa _ => false
  | _ => true

/-- What the pieces of a copy hold of the aligned destination word at `w` of piece `r`: a word that several pieces make up, since
their sources lie apart, is one all the same (R212).  Each with its piece, offset and length. -/
def wordParts (rows : List CopyRow) (r : CopyRow) (w : Nat) : List (CopyRow × Nat × Nat) :=
  rows.filterMap fun x =>
    let lo := Nat.max x.base w
    let hi := Nat.min (x.base + x.len) (w + 4)
    if lo < hi && x.pos + r.base == r.pos + x.base && x.dst.space == r.dst.space then some (x, lo - x.base, hi - lo) else none

/-- The bytes of the parts of a word. -/
def State.readParts (s : State) (o : Op) : List (CopyRow × Nat × Nat) → Option (List (BitVec 8))
  | [] => some []
  | (x, off, n) :: l =>
    match s.copyRead o off n x.src, s.readParts o l with
    | some a, some b => some (a ++ b)
    | _, _ => none

/-- One aligned word of a copy is read and written (R212): in any order among the words that lie before the place that
ends the copy. -/
def State.copyWord (s : State) (o : Op) (fb raw : Bool) (granules : List Nat) (rows : List CopyRow) : State :=
  let stop := (s.copyEnd o raw rows).map (·.pos)
  let cut := match stop with
    | some p => rows.flatMap fun (r : CopyRow) => (r.from p).filter fun (x : CopyRow) => decide (x.pos < p)
    | none => rows
  let rest := match stop with
    | some p => rows.flatMap fun (r : CopyRow) => (r.from p).filter fun (x : CopyRow) => decide (p ≤ x.pos)
    | none => []
  match cut.drop (if inOrder rows then 0 else s.freeBelow 0 cut.length) with
  | [] => s
  | r :: _ =>
    let parts := wordParts cut r (4 * (r.base / 4 + if inOrder rows then 0 else s.freeBelow 1 r.words))
    match parts, s.readParts o parts with
    | (x, off, _) :: _, some bs =>
      let (s1, ok) := s.copyWrite o off bs x.dst
      if !ok then s1
      else
        let left := cut.flatMap fun (x : CopyRow) => match parts.find? fun (q : CopyRow × Nat × Nat) => q.1 == x with
          | some q => x.without q.2.1 q.2.2
          | none => [x]
        s1.putOp { o with kind := .copy fb raw granules (left ++ rest) }
    | _, _ => s

/-- ENGINE_RETIRE: a copy moves one word, or retires in the order of its class when every word of it has been performed
(R212). -/
def execEngineRetire (op : Nat) (s : State) : Host.Outcome State Fault Refusal :=
  .next (match s.op op with
    | none => s
    | some o =>
      match o.kind with
      | .copy fb raw granules rows =>
        if !rows.isEmpty then if s.fenced o || s.behindNacked o then s else s.copyWord o fb raw granules rows
        else if s.oldest o then s.retire o
        else s
      | _ => s)

/-- Unspecified bytes at what is left of a copy (R71). -/
def State.copyScramble (s : State) (o : Op) (rows : List CopyRow) : State :=
  rows.foldl (fun s r => (List.range r.words).foldl (fun s k =>
    (s.copyWrite o (r.word k).1 (s.freeBytes (r.pos + (r.word k).1) (r.word k).2) r.dst).1) s) s

/-- COPY_EARLY_END: every byte before the place that ends a copy has been written; the engine writes its record and the
copy has nothing left to write (R71, R242, R330).  A copy to or from another module may be refused at any byte. -/
def execCopyEarlyEnd (op : Nat) (s : State) : Host.Outcome State Fault Refusal :=
  .next (match s.op op with
    | none => s
    | some o =>
      match o.kind with
      | .copy fb raw granules rows =>
        let refused := (s.copyRemote o rows).map fun p => (⟨p, causeNotPresent, 4, 1 + s.freeBelow 0 4⟩ : CopyEnd)
        match if s.fenced o || s.behindNacked o then none else (s.copyEnd o raw rows).or refused with
        | none => s
        | some e =>
          let cut := rows.flatMap fun r => r.from e.pos
          if cut.any fun r => r.pos < e.pos then s
          else
            let free := cut.all fun r => match r.dst with
              | .pa a => s.outsideFree a (agentOf o.id)
              | _ => true
            if e.cause = causeData && !free then s
            else
              let s1 := if e.cause = causeData then s.copyScramble o cut else s
              let addr := ((cut.find? fun r => r.pos == e.pos).map (·.addr)).getD 0
              let info := if e.origin = 4 then e.code else Nat.min e.pos (2 ^ 32 - 1)
              (s1.postFault o.src.ctx (s.engineRecord o e.cause e.origin addr 0 (BitVec.ofNat 32 info))).putOp
                { o with kind := .copy fb raw granules [] }
      | _ => s)

end Sys2Proof.Machine
end

