-- ==== Sys2Proof/Machine/Fabric.lean ====
section
/-! DEFINITION. Fabric accesses of lanes (R328 to R330), windows (R326, R329), remap tables (R331, R332), multicasts (R321
to R325), and the loss of links (R383). -/

namespace Sys2Proof.Machine

/-! ## Lane accesses at their target (R330) -/

/-- A lane's access at a target page of this module: its virtual and its physical address and its page, or a cause with the code
that INFO shows; `no` says whether the page's type refuses it. -/
def State.fabLane (s : State) (o : Op) (raw read write : Bool) (no : Xlat → Option Nat) (x : Access) :
    Except (Nat × Nat) (Nat × Nat × Page) :=
  match x.place with
  | .fab a =>
    match s.fabAt o.src.ctx o.id a 0 x.size read write with
    | .error e => .error e
    | .ok (va, y) =>
      match if raw then none else no y with
      | some c => .error (c, nackNoMap)
      | none =>
        let page : Page := ⟨if raw then .plain else (y.leaf.pageType).getD .plain, y.pa - y.pa % 2 ^ y.log, y.log, y.leaf.w1⟩
        let spans := readSpans page [{ x with place := .pa y.pa }]
        if read && spans.any fun e => s.uncorrectable e.1 e.2 then .error (causeData, 0) else .ok (va, y.pa, page)
  | _ => .error (causeNotPresent, nackNoMap)

/-- The fault of a fabric access in some of its lanes: merged under R55, ADDR the fabric address, INFO the code of R323
(R330). -/
def fabFault (l : List (Access × Nat × Nat)) : FaultInfo :=
  let x := mergeFaults (l.map fun e => ⟨e.1.lane, e.2.1, e.1.addr, 0, none⟩) true false
  { x with info := BitVec.ofNat 32 (((l.find? fun e => e.2.1 == x.cause).map (·.2.2)).getD 0) }

/-- The errors and the answers of a list of accesses. -/
def splitFab {α : Type} (l : List (Access × Except (Nat × Nat) α)) : List (Access × Nat × Nat) × List (Access × α) :=
  (l.filterMap fun e => match e.2 with
    | .error x => some (e.1, x.1, x.2)
    | .ok _ => none,
   l.filterMap fun e => match e.2 with
    | .ok x => some (e.1, x)
    | .error _ => none)

/-- Why PLAIN pages only are admitted. -/
def refusePlain (x : Xlat) : Option Nat := if x.leaf.typeCode == 0 then none else some causeType

/-- Why the type of a target page refuses a typed access of an element type and size through register `d` (R195, R197). -/
def refuseTyped (ty d size : Nat) (x : Xlat) : Option Nat :=
  let ok := match (x.leaf.pageType).getD .plain with
    | .plain => true
    | .fp4s => layoutOk ty d 13 size && inCodes x size
    | .fp8e4 => layoutOk ty d 11 size
    | .fp8e5 => layoutOk ty d 12 size
    | .bf16 => layoutOk ty d 9 size
    | _ => false
  if ok then none else some causeType

/-- Does an access stand at the start of a slot of a HAAR page (R276)? -/
def atSlot (x : Xlat) : Option Nat := if x.pa % 2 ^ x.log % 8192 = 0 then none else some causeMisaligned

/-- Why a target page refuses a load (R195, R224). -/
def refuseLoad (ty d size : Nat) (x : Xlat) : Option Nat :=
  match (x.leaf.pageType).getD .plain with
  | .haar => if d % 8 = 0 ∧ isFloat ty ∧ ty ≠ 13 then atSlot x else some causeType
  | .sketch => if objectOffset x + size ≤ headerBytes then none else some causeType
  | _ => refuseTyped ty d size x

/-- Put a request at a place of this module. -/
def Access.to (x : Access) (pa : Nat) : Access := { x with place := .pa pa }

/-- A free outcome of an access in another module: a refusal of R330, a cause of the target page, or none. -/
def State.freeOutcome (s : State) (k : Nat) (reads : Bool) : Option (Nat × Nat) :=
  match s.freeBelow k 8 with
  | 0 => some (causeNotPresent, nackNoMap)
  | 1 => some (causeNotPresent, nackRevoked)
  | 2 => some (causeNotPresent, nackIntegrity)
  | 3 => some (causeNotPresent, nackNoReply)
  | 4 => some (causePermission, nackNoMap)
  | 5 => some (causeType, nackNoMap)
  | 6 => if reads then some (causeData, 0) else none
  | _ => none

/-- A fabric port counts a nack (R330, R377). -/
def State.countNack (s : State) (port : Nat) : State :=
  { s with fabric := { s.fabric with nackCounts := Tab.set 0 s.fabric.nackCounts port (Tab.get 0 s.fabric.nackCounts port + 1) } }

/-- The type of the page that a word of a warp meets in another module (R195, R330): one for each 64 KiB granule, and free. -/
def farType (first : Nat) (x : Access) : PageType :=
  [PageType.plain, .fp4s, .fp8e4, .fp8e5, .bf16, .haar, .sketch].getD
    ((Config.word (2 ^ 48 * first + x.addr.toNat / 65536)).toNat % 7) .plain

/-- Flags that a conversion in another module, whose scales are not known here, may raise. -/
def State.freeExc (s : State) (k : Nat) : Exc :=
  let bit := fun (i : Nat) => ((Config.word (2 * s.freeCtr + k)).extractLsb' i 1).toNat
  ⟨bit 0, 0, bit 1, bit 2, bit 3, bit 4⟩

/-- The type of the page that a load meets in another module: one that admits the load (R195, R224). -/
def farLoad (mode : Word) (w : LoadWord) (p : Page) (x : Access) : PageType :=
  let ty := modeType mode
  let t := farType w.first x
  if p.geom ≠ 0 then .plain
  else match t, t.stored with
    | .haar, _ => if w.dest % 8 = 0 ∧ isFloat ty ∧ ty ≠ 13 ∧ x.addr.toNat % 8192 = 0 then .haar else .plain
    | _, some k => if layoutOk ty w.dest k w.size then t else .plain
    | _, none => .plain

/-- The value of a lane that a load over the fabric has got. -/
def State.fabValue (s : State) (o : Op) (w : LoadWord) (p : Page) (x : Access) (bs : List (BitVec 8)) : LaneValue :=
  let v := s.loadedValue o.src.mode p w.draws x bs
  ⟨x.lane, v.1, v.2.1, v.2.2, p.type.stored.isSome⟩

/-- The value of a lane that a load has got from another module: from free bytes, or, where the scales are not known here, free. -/
def State.farValue (s : State) (o : Op) (w : LoadWord) (p : Page) (x : Access) : LaneValue :=
  let t := farLoad o.src.mode w p x
  let n := storedCount 13 w.size * elemWidth (modeType o.src.mode)
  if t == .fp4s then ⟨x.lane, (Config.word (2 * s.freeCtr + 8 * x.lane)).toNat % 2 ^ n, n == 64, s.freeExc (8 * x.lane + 4), true⟩
  else s.fabValue o w { Page.none with type := t } x (s.freeBytes (8 * x.lane) x.size)

/-- Registers that a load turns out to write are pending from then on, under the flag of the load (R85; notes/assumptions/45). -/
def State.pendLate (s : State) (o : Op) (regs : List Reg) : State :=
  s.mapWarp o.src.warp fun w =>
    if w.pending.any fun q => q.op == o.word && q.regs == regs then w
    else { w with pending := w.pending ++ [⟨o.word, regs, o.src.flag, o.src.slices⟩] }

/-- A load that met a HAAR page names one slot with all its lanes, or every lane of it fails (R224, R276). -/
def State.oneSlot (s : State) (o : Op) (w : LoadWord) (l : List Access) (x : Access) (go : State → State) : State :=
  let all := s.wordLeft w
  if all.length ≠ l.length || all.any fun y => y.addr != x.addr then
    (s.dropWord o).lateFault o (fabFault (all.map fun y => (y, causeType, nackNoMap)))
  else go (s.pendLate o ((tileRegs (w.dest / 8)).drop 1))

/-- A load that met a HAAR page reads the one slot that all its lanes name (R224, R276). -/
def State.fabTile (s : State) (o : Op) (w : LoadWord) (l : List Access) (x : Access) (pa : Nat) (p : Page) : State :=
  s.oneSlot o w l x fun s =>
    let lanes := maskOf fun n => l.any fun y => y.lane == n
    let word : LoadWord := { w with dest := w.dest / 8, also := w.also ++ zeroTile (w.dest / 8) (o.src.lanes &&& ~~~lanes) }
    (s.putOp { o with kind := .tile word p false ⟨x.lane, x.addr, .pa pa, 4160, [], none⟩ lanes (slotWords (modeType o.src.mode)) [],
                      granted := true }).mapWarp o.src.warp fun q => q.drawn o.src true

/-- The same in another module: the columns, the level and the map are free. -/
def State.farTile (s : State) (o : Op) (w : LoadWord) (l : List Access) (x : Access) : State :=
  s.oneSlot o w l x fun s =>
    let lanes := maskOf fun n => l.any fun y => y.lane == n
    let t := w.dest / 8
    let free := fun (k : Nat) => Config.word (1024 * s.freeCtr + k)
    ((s.mapWarp o.src.warp fun q =>
      let q0 := w.also.foldl (fun q y => q.applyWrite (modeType o.src.mode) y) q
      let q1 := (zeroTile t (o.src.lanes &&& ~~~lanes)).foldl (fun q y => q.applyWrite (modeType o.src.mode) y) q0
      let q2 := (List.range 8).foldl (fun q i => q.putV (8 * t + i) lanes (Lanes.ofFn fun n => loWord (free (32 * i + n)))) q1
      let tag : Tag := ⟨modeType o.src.mode, 1 + (free 256).toNat % 5, loWord (free 257)⟩
      (({ q2 with tags := Tab.set Tag.launch q2.tags t tag } : Warp).raiseExc
        (Exc.sum ((laneList lanes).map fun n => s.freeExc (260 + n)))).drawn o.src true).dropWord o).settleFlags o.src.warp

/-- Lanes of a load over the fabric have got their values; a pair that they turn out to fill is pending until then. -/
def State.gotFab (s : State) (o : Op) (w : LoadWord) (p : Page) (rest : List Access) (got new : List LaneValue) : State :=
  let s1 := if w.size ≠ 8 ∧ new.any (·.wide) then s.pendLate o [.v (w.dest + 1)] else s
  s1.gotLanes o w p false rest (got ++ new)

/-- One lane's load at its target (R330): remote data are free values.  It holds the miss-status entries of what it fetches (R190). -/
def State.fabLoad (s : State) (o : Op) (w : LoadWord) (p : Page) (l : List Access) (got : List LaneValue) : State :=
  let ty := modeType o.src.mode
  let ev := s.eventOf l
  let rest := leftAfter l ev
  if !o.granted || !s.loadFree o || (s.earlier o).any (fun x => x.kind.isStore) || !s.ordered o || s.behindNacked o then s
  else if ev.any fun x => s.remote o.src.ctx o.id x.addr then
    match s.freeOutcome 0 true, ev.find? fun x => farLoad o.src.mode w p x == .haar with
    | some e, _ => ((s.dropWord o).lateFault o (fabFault (ev.map fun x => (x, e)))).countNack (s.portOf o)
    | none, some x => s.farTile o w l x
    | none, none => s.gotFab o w p rest got (ev.map (s.farValue o w p))
  else
    let no := fun (x : Xlat) => if p.geom = 2 then refusePlain x else refuseLoad ty w.dest w.size x
    let look := fun (l : List Access) => splitFab (l.map fun x => (x, s.fabLane o (p.geom == 1) true false no x))
    let r := look ev
    if !r.1.isEmpty then
      let others := (s.wordLeft w).filter fun x => !ev.contains x && !s.remote o.src.ctx o.id x.addr
      ((s.dropWord o).lateFault o (fabFault (r.1 ++ (look others).1))).countNack (s.portOf o)
    else if r.2.any fun e => s.leased e.2.2.1 then s
    else
      match r.2.find? fun e => e.2.2.2.type == .haar with
      | some (x, _, pa, pg) => s.fabTile o w l x pa pg
      | none => s.gotFab o w p rest got (r.2.map fun (x, va, pa, pg) =>
          let bs := s.bytes pa x.size
          s.fabValue o w pg (x.to pa) (if pg.type == .sketch then s.headerRead (s.sketchAt pg pa (BitVec.ofNat 64 va)) pa bs else bs))

/-- What a lane of `st` carries over the fabric (see `fabBytes`): its bits, the generator state, the register, RAW, the marks of the
register after it and of the tile, and the tile that begins there; none for a strong or compacting store, which carries its
bytes. -/
structure FabData where
  bits : Nat
  draws : Draws
  d : Nat
  raw : Bool
  pairMark : Nat
  tileMark : Nat
  tile : List (BitVec 8)
  deriving DecidableEq, Repr

/-- Read what a lane of `st` carries. -/
def Access.fabData (x : Access) : Option FabData :=
  if 18 ≤ x.data.length then
    let at' := fun (i : Nat) => leNat ((x.data.drop i).take 1)
    some ⟨leNat (x.data.take 8), ⟨BitVec.ofNat 32 (leNat ((x.data.drop 8).take 4)),
      Lanes.ofFn fun _ => BitVec.ofNat 32 (leNat ((x.data.drop 12).take 4))⟩, at' 16 % 128, decide (128 ≤ at' 16),
      at' 17 % 4, at' 17 / 4, x.data.drop 18⟩
  else none

/-- The tile that a store carries, as tile 0 of a warp: see `tileBytes`. -/
def FabData.warp (f : FabData) : Warp :=
  let word := fun (i : Nat) => BitVec.ofNat 32 (leNat ((f.tile.drop (4 * i)).take 4))
  { Warp.blank with
    v := (List.range 8).map fun i => (i, Lanes.ofFn fun n => word (32 * i + n))
    tags := [(0, ⟨leNat ((f.tile.drop 1024).take 1), leNat ((f.tile.drop 1025).take 1), 0⟩)]
    wt := [BitVec.ofNat 32 (leNat ((f.tile.drop 1026).take 4))] }

/-- Does a store carry a tile that a HAAR page takes: one SPATIAL, of floating elements but fp4s (R226, R276)? -/
def FabData.tileOk (f : FabData) : Bool :=
  let tg := f.warp.tag 0
  !f.tile.isEmpty && tg.level == 0 && isFloat tg.fmt && tg.fmt != 13

/-- Why a target page refuses a store (R195, R226); where the tile of a tile store stands is judged of the word as a whole. -/
def refuseStore (mode : Word) (size : Nat) (f : Option FabData) (x : Xlat) : Option Nat :=
  match f with
  | none => refusePlain x
  | some f =>
    match (x.leaf.pageType).getD .plain with
    | .haar => if f.tileOk then none else some causeType
    | .sketch => if size < 4 then some causeType else if objectOffset x < headerBytes then some causeHeader else none
    | _ => refuseTyped (modeType mode) f.d size x

/-- The type of the page that a store meets in another module: one that admits it. -/
def farStore (mode : Word) (first : Nat) (x : Access) : PageType :=
  match x.fabData with
  | none => .plain
  | some f =>
    let t := farType first x
    if f.raw then .plain
    else match t, t.stored with
      | .haar, _ => if f.tileOk && x.addr.toNat % 8192 == 0 then .haar else .plain
      | .sketch, _ => if 4 ≤ x.size then .sketch else .plain
      | _, some k => if layoutOk (modeType mode) f.d k x.size then t else .plain
      | _, none => .plain

/-- The bytes that a lane of a fabric store writes to a page of a type, with what encoding raises (R197). -/
def fabEncode (mode : Word) (page : PageType) (x : Access) : List (BitVec 8) × Exc :=
  match x.fabData, page.stored with
  | none, _ => (x.data, Exc.none)
  | some f, none => (leBytes f.bits x.size, Exc.none)
  | some f, some t =>
    let ty := modeType mode
    let rs := (List.range (storedCount t x.size)).map fun j =>
      encodeElem ty t (rndAt mode f.draws x.lane j) (bitsOf f.bits (elemWidth ty * j) (elemWidth ty))
    (leBytes (packBits (elemWidth t) (rs.map (·.1))) x.size, (Exc.sum (rs.map (·.2))).once)

/-- Do all accesses of a list go over the fabric? -/
def onFabric (l : List Access) : Bool := l.all fun x => match x.place with
  | .fab _ => true
  | _ => false

/-- A lane's access at its target: to a page of this module (virtual and physical address, page), or to one of another module, of
which only the type is known. -/
abbrev FabTarget := (Nat × Nat × Page) ⊕ PageType

/-- The type of the page of a target. -/
def pageAt : FabTarget → PageType
  | .inl p => p.2.2.type
  | .inr t => t

/-- What a line request of a fabric store becomes once its target has accepted it, its lanes having one page: the encoded bytes on
their way, or what a page of FP4S, SKETCH or HAAR takes; with what it raises. -/
def State.fabAccepted (s : State) (mode : Word) (rel : Option (BitVec 6)) (l : List (Access × FabTarget)) : OpKind × Exc :=
  let here := fun (e : Access × FabTarget) => match e.2, e.1.fabData with
    | .inl (va, pa, _), some f =>
      (⟨e.1.lane, BitVec.ofNat 64 va, .pa pa, e.1.size, (leBytes f.bits 8).take (Nat.max 4 e.1.size), some e.1.addr⟩ : Access)
    | _, _ => e.1
  let encoded := fun (t : PageType) =>
    let out := l.map fun e => (e.1, fabEncode mode t e.1)
    (OpKind.store rel Exc.none (highestWrites (out.map fun e => { e.1 with data := e.2.1 })), Exc.sum (out.map (·.2.2)))
  match l with
  | (x, .inl (_, _, pg)) :: _ =>
    match pg.type, x.fabData with
    | .fp4s, some f =>
      (.fp4s pg { f.draws with counts := Lanes.ofFn fun n =>
        ((l.findSome? fun e => if e.1.lane == n then e.1.fabData else none).map fun g => g.draws.counts.get n).getD 0 }
        (l.map fun e => { here e with data := (leBytes (((e.1.fabData).map (·.bits)).getD 0) 8) }), Exc.none)
    | .sketch, some _ => (.insert false (Nat.log2 x.size) 0 (l.map fun e => (here e, pg)), Exc.none)
    | .haar, some f =>
      let r := f.warp.tileWords 0 (bitsOf pg.geom 0 3)
      (.store rel Exc.none (r.1.mapIdx fun i w =>
        ⟨x.lane, x.addr + BitVec.ofNat 64 (4 * i), x.place.add (4 * i), 4, leBytes w.toNat 4, none⟩), r.2)
    | t, _ => encoded t
  | (x, .inr t) :: _ =>
    match t, x.fabData with
    | .fp4s, _ => ((encoded .plain).1, Exc.sum (l.map fun e => s.freeExc (8 * e.1.lane + 4)))
    | .haar, some f => ((encoded .plain).1, (f.warp.tileWords 0 (1 + s.freeBelow 3 5)).2)
    | t, _ => encoded t
  | [] => (.store rel Exc.none [], Exc.none)

/-- The region of the fragment that made a request ends, if it is still the one that was open then (R58). -/
def State.endRegionOf (s : State) (o : Op) : State :=
  match (Tab.lookup o.src.warp s.warps).bind fun w => w.fragFor o with
  | none => s
  | some f =>
    if f.region != o.src.region then s
    else match s.viewOf o.src.warp (fragNo f.mask) with
      | some v => s.endRegion v
      | none => s.mapFrag o.src.warp (fragNo f.mask) fun f => { f with region := none }

/-- What a store's lanes meet that stand at a HAAR page with one of them (R224, R276): the lowest must name a slot's start, and all of
them the same slot. -/
def tileRefusals (l : List (Access × FabTarget)) : List (Access × Nat × Nat) :=
  let lanes := l.map (·.1.lane)
  match if l.any fun e => pageAt e.2 == .haar then l.find? fun e => lanes.all fun n => decide (e.1.lane ≤ n) else none with
  | none => []
  | some (x, _) =>
    let differ := l.any fun e => e.1.addr != x.addr
    l.filterMap fun e =>
      if e.1.lane = x.lane ∧ x.addr.toNat % 8192 ≠ 0 then some (e.1, causeMisaligned, nackNoMap)
      else if differ then some (e.1, causeType, nackNoMap)
      else none

/-- What keeps a store from being encoded where its target shows that it reads the register after its own, or the tile: a pending
write or an uncorrectable error of these at its issue (R71, R85; notes/assumptions/45). -/
def storeMark (mode : Word) (l : List (Access × FabTarget)) : Option Nat :=
  let marks := l.filterMap fun e => e.1.fabData.map fun f =>
    match pageAt e.2, (pageAt e.2).stored with
    | .haar, _ => f.tileMark
    | _, some t => if e.1.size ≠ 8 ∧ storedCount t e.1.size * elemWidth (modeType mode) = 64 then f.pairMark else 0
    | _, none => 0
  if marks.contains 1 then some causeHazard else if marks.contains 2 then some causeData else none

/-- A store over the fabric is accepted at its target once stage 4 is passed (R84, R330): all of the word, or with a cause in any
lane none of it (R54), but for the elements of a `cstore` before the first that fails (R227).  In another module its page's type is
free, and so is whether it was an insert, which ends the region (R58, R149). -/
def State.acceptFab (s : State) (o : Op) : State :=
  let word := s.opsOfStore o onFabric
  let look := fun (x : Access) => (if s.remote o.src.ctx o.id x.addr then match s.freeOutcome x.lane false with
      | some e => Except.error e
      | none => .ok (.inr (farStore o.src.mode o.word x))
    else (s.fabLane o ((x.fabData.map (·.raw)).getD false) false true (refuseStore o.src.mode x.size x.fabData) x).map .inl :
      Except (Nat × Nat) FabTarget)
  let targets := fun (l : List Access) => splitFab (l.map fun x => (x, look x))
  let all := targets (word.flatMap fun q => q.kind.accs)
  let own := all.1
  let bad := own ++ (tileRefusals all.2).filter fun e => !own.any fun x => x.1.lane == e.1.lane
  let below := if bad.isEmpty then 32 else leastOf (bad.map (·.1.lane))
  if word.any fun q => !q.granted then s
  else if !bad.isEmpty && o.src.first.isNone then ((s.dropOps word).lateFault o (fabFault bad)).countNack (s.portOf o)
  else match storeMark o.src.mode all.2 with
  | some c => (s.dropOps word).lateFault o { cause := c, lanes := o.src.lanes }
  | none =>
    let new := word.map fun q =>
      let r := match q.kind with
        | .store rel _ l => s.fabAccepted o.src.mode rel (targets (l.filter fun x => decide (x.lane < below))).2
        | k => (k, Exc.none)
      ({ q with kind := r.1, completed := true, doneAt := s.nextId }, r.2)
    let s1 := new.foldl (fun s q => if q.1.kind.accs.isEmpty then s.dropOp q.1.id else s.putOp q.1) s
    let s2 := s1.mapWarp o.src.warp fun w =>
      (w.raiseExc (Exc.sum (new.map (·.2)))).drawn o.src (all.2.any fun e => (pageAt e.2).stored.isSome)
    let s3 := (if all.2.any fun e => pageAt e.2 == .sketch then s2.endRegionOf o else s2).settleFlags o.src.warp
    match o.src.first, bad.find? fun e => e.1.lane == below with
    | some i, some e => (s3.lateFault o (o.compactFault i ⟨below, e.2.1, e.1.addr, 0, none⟩)).countNack (s.portOf o)
    | _, _ => s3

/-- One event of an accepted store at the homes of its target (R330).  What its target no longer maps by then is kept nowhere
(notes/assumptions/43). -/
def State.fabPerform (s : State) (o : Op) (rel : Option (BitVec 6)) (exc : Exc) (l : List Access) : State :=
  let ev := s.eventOf l
  let pa := fun (x : Access) => if s.remote o.src.ctx o.id x.addr then none else s.acceptedAt o.src.ctx x.addr
  if !s.writeFree o then s
  else if !(ev.filterMap pa).all (s.outsideFree · (agentOf o.id)) then
    (ev.filterMap pa).foldl (fun s a => s.outsideAsk a (agentOf o.id)) s
  else
    let r := s.storeRelease o rel
    if !r.2 then r.1
    else
      let s1 := ev.foldl (fun s x => match pa x with
        | some a => s.outsideWrite o.src.warp a x.data (agentOf o.id)
        | none => s) r.1
      let rest := leftAfter l ev
      s1.putLeft o (.store rel exc rest) rest

/-- The next lane of an atomic at its target (R230, R330); a cause that any lane left meets keeps all of them from being
performed. -/
def State.fabAtomic (s : State) (o : Op) (aop : AtomOp) (d size : Nat) (cmp : List DWord) (l : List Access) : State :=
  let ty := modeType o.src.mode
  let step := fun (s : State) (old : Nat) (x : Access) (rest : List Access) =>
    let s1 := s.mapWarp o.src.warp fun w => w.writeLanes ty (size == 8) d (maskOf (· == x.lane)) fun _ => old
    s1.putLeft o (.atomic aop d size (cmp.drop 1) rest) rest
  let here := l.filter fun x => !s.remote o.src.ctx o.id x.addr
  let bad := (splitFab (here.map fun x =>
    (x, s.fabLane o (decide (size < x.data.length)) true true refusePlain x))).1
  if !s.writeFree o || s.behindNacked o then s
  else if !bad.isEmpty then ((s.dropOp o.id).lateFault o (fabFault bad)).countNack (s.portOf o)
  else
    match l with
    | [] => (s.dropOp o.id).settleFlags o.src.warp
    | x :: rest =>
      if s.remote o.src.ctx o.id x.addr then
        match s.freeOutcome 0 true with
        | some e => ((s.dropOp o.id).lateFault o (fabFault [(x, e)])).countNack (s.portOf o)
        | none => step s (leNat (s.freeBytes 0 size)) x rest
      else
        match s.fabLane o (decide (size < x.data.length)) true true refusePlain x with
        | .error _ => s
        | .ok (_, pa, _) =>
          if s.outsideFree pa (agentOf o.id) then
            let old := leNat (s.bytes pa size)
            let new := atomValue aop ty size old (leNat (x.data.take size)) (cmp.headD 0).toNat
            step (s.outsideWrite o.src.warp pa (leBytes new size) (agentOf o.id)) old x rest
          else s.outsideAsk pa (agentOf o.id)

/-- A barrier form at its target (R236, R330). -/
def State.fabAbar (s : State) (o : Op) (form : AbarForm) (value : Word) (acc : Access) : State :=
  let r := if form == .arr then s.releaseAt (s.coreOf o) o.src.warp o.id 0x20 else (s, true)
  let fail := fun (e : Nat × Nat) => ((r.1.dropOp o.id).lateFault o { fabFault [(acc, e)] with lanes := o.src.lanes }).countNack (s.portOf o)
  if !r.2 || !r.1.ordered o || r.1.behindNacked o then r.1
  else if r.1.remote o.src.ctx o.id acc.addr then
    match r.1.freeOutcome 0 true with
    | some e => fail e
    | none => (r.1.dropOp o.id).finishHeld o { long := true } true
  else
    match r.1.fabLane o (acc.data.length == 1) (form != .init) (form != .wait) refusePlain acc with
    | .error e => fail e
    | .ok (_, pa, _) =>
      if form == .wait then r.1.performAbar o form value acc pa
      else if r.1.outsideFree pa (agentOf o.id) then (r.1.performAbar o form value acc pa).outsideWrite o.src.warp pa [] (agentOf o.id)
      else r.1.outsideAsk pa (agentOf o.id)

/-- A lane of a query finds its object over the fabric (R225, R330): in another module its answer is free; here the query goes on
at the object's home. -/
def State.fabQuery (s : State) (o : Op) (d esz : Nat) (x : Access) (rest : List (Access × Page)) (ans : List (Nat × Nat))
    (bad : List (Nat × Nat × Addr × Nat)) : State :=
  let fail := fun (e : Nat × Nat) => (s.nextQuery o d esz rest ans (bad ++ [(x.lane, e.1, x.addr, e.2)])).countNack (s.portOf o)
  let no := fun (y : Xlat) => if y.leaf.typeCode = 6 ∧ x.data.length = 8 then none else some causeType
  if !s.queryFree o || s.behindNacked o then s
  else if s.remote o.src.ctx o.id x.addr then
    match s.freeOutcome 0 true with
    | some e => fail e
    | none => s.nextQuery o d esz rest (ans ++ [(x.lane, leNat (s.freeBytes 0 x.size))]) bad
  else
    match s.fabLane o false true false no x with
    | .error e => fail e
    | .ok (va, pa, pg) =>
      s.putOp { o with kind := .query d esz 0 0 (({ x with addr := BitVec.ofNat 64 va, place := .pa pa, via := some x.addr }, pg) :: rest) ans bad }

/-! ## Accesses of peers at this module's port (R330) -/

/-- The record of a peer's insert that failed at this home, the address that of the fabric (R55, R330, R388); the assay engine of this
module writes it to the queue that the context has here (notes/assumptions/43). -/
def State.peerRecord (s : State) (x : PeerAccess) (cause : Nat) : State :=
  s.postFault x.ctx { cause := cause, noRegion := true, lanes := maskOf (· == x.issuer.lane), origin := 6,
                      addr := BitVec.ofNat 64 (2 ^ 41 * x.rank + 2 ^ 35 * x.window + x.offset),
                      recCount := BitVec.ofNat 32 x.issuer.recCount, warp := x.issuer.warp, row := x.issuer.row, col := x.issuer.col,
                      time := s.time }

/-- The insert of a peer's key: its steps one after another (R248, R260, R268), or the record of its failure. -/
def State.peerInsert (s : State) (peer : PeerAccess) (va : Nat) (y : Xlat) (bs : List (BitVec 8)) : State :=
  let ctx := peer.ctx
  let p : Page := ⟨.sketch, y.pa - y.pa % 2 ^ y.log, y.log, y.leaf.w1⟩
  let a : Access := ⟨0, BitVec.ofNat 64 va, .pa y.pa, bs.length, bs, none⟩
  let esz := Nat.log2 bs.length
  let steps := (List.range 10).foldl (fun (r : State × Nat × Bool) _ =>
    if r.2.2 then r
    else
      let q := r.1.insertStep 0 ctx false esz r.2.1 a (r.1.sketchAt p y.pa a.addr)
      (q.1, r.2.1 + 1, q.2)) (s, 0, false)
  let x := s.sketchAt p y.pa a.addr
  if s.objectBad x (x.touches esz a) then s.peerRecord peer causeData
  else if x.held = 0 then s.peerRecord peer causeType
  else steps.1

/-- The operation of an atomic by its number in a peer's access. -/
def atomOf (n : Nat) : AtomOp := [AtomOp.add, .min, .max, .and, .or, .xor, .exch, .cas].getD n .cas

/-- The form of a barrier by its number in a peer's access. -/
def abarFormOf (n : Nat) : AbarForm := [AbarForm.init, .arr, .wd].getD n .wd

/-- What a peer's write, atomic or barrier form does to memory at the page that it reached, for the agent under whose number it
stands in a token's queue (R202, R205, R236, R330). -/
def State.peerWrites (s : State) (x : PeerAccess) (va : Nat) (y : Xlat) (who : Nat) : State :=
  match x.action with
  | .read _ => s
  | .write bs =>
    if y.leaf.typeCode = 6 then (s.peerInsert x va y bs).outsideWrite 0 y.pa [] who else s.outsideWrite 0 y.pa bs who
  | .atomic op ty b cmp =>
    s.outsideWrite 0 y.pa (leBytes (atomValue (atomOf op) ty x.size (leNat (s.bytes y.pa x.size)) b cmp) x.size) who
  | .barrier form v =>
    match abarEffect (abarFormOf form) v (abarOf (s.bytes y.pa 16)) with
    | some (some a, _) => s.outsideWrite 0 y.pa a.bytes who
    | _ => s.outsideWrite 0 y.pa [] who

/-- Does the page that a peer's access reached take it: its type, its size, its alignment and its data (R71, R195, R230, R236)? -/
def State.peerTaken (s : State) (x : PeerAccess) (y : Xlat) : Bool :=
  let plain := y.leaf.typeCode == 0
  match x.action with
  | .read _ => true
  | .write bs => bs.length == x.size && (y.leaf.typeCode != 6 || (decide (headerBytes ≤ objectOffset y) && (bs.length == 4 || bs.length == 8)))
  | .atomic .. => plain && (x.size == 4 || x.size == 8) && y.pa % x.size == 0 && !s.uncorrectable y.pa x.size
  | .barrier .. => plain && x.size == 16 && y.pa % 16 == 0 && !s.uncorrectable y.pa 16

/-- May a write of a peer be performed now: no lease, its tokens, and no operation between its steps on the object of an insert? -/
def State.peerFree (s : State) (y : Xlat) (who : Nat) : Bool :=
  s.outsideFree y.pa who && !(y.leaf.typeCode == 6 && s.midStep (y.pa - objectOffset y))

/-- What a peer's access does to memory at the page that it reached, or its place in the queue of the home (R205, R206, R330). -/
def State.peerPerform (s : State) (x : PeerAccess) (va : Nat) (y : Xlat) : State :=
  if !s.peerTaken x y then s
  else match x.action with
    | .read m => if s.leased y.pa then s else s.share (.peer m) y.pa x.size
    | _ => if s.peerFree y outsider then s.peerWrites x va y outsider else s.outsideWait y.pa (.peer x va)

/-- Does a packet of a peer come to the module that its rank has under the generation that it carries, and has the rank's state not
left it since (R331, R332)? -/
def State.rankHere (s : State) (x : PeerAccess) : Bool :=
  match Tab.lookup x.ctx s.ctxs with
  | none => false
  | some c =>
    match Tab.get [] c.remap x.rank with
    | [] => x.rank == c.rank
    | [e] => x.gen == e.gen && (e.field, e.module) == s.fabric.me
    | e :: f :: _ => (x.gen == e.gen && !f.drained && (e.field, e.module) == s.fabric.me) ||
        (x.gen == f.gen && (f.field, f.module) == s.fabric.me)

/-- A peer's access at this module's port: refused, which changes nothing here but the port's count, or performed (R330, R332). -/
def State.peerAccess (s : State) (x : PeerAccess) : State :=
  let read := match x.action with
    | .write _ => false
    | .barrier n _ => n != 0
    | _ => true
  let write := match x.action with
    | .read _ => false
    | _ => true
  if !s.rankHere x then s.countNack (s.freeBelow 1 fabricPorts)
  else match s.fabPage x.ctx x.window x.offset x.size read write with
    | .error _ => s.countNack (s.freeBelow 1 fabricPorts)
    | .ok (va, y) => s.peerPerform x va y

/-- What waits in the queues of homes is performed once its tokens have come and no lease is in the way (R205, R206). -/
def State.outsideDue (s : State) : State :=
  s.outside.foldl (fun s e =>
    let who := agentOf e.1
    let gone : State := { s with outside := s.outside.filter fun x => x.1 != e.1 }
    match e.2 with
    | .line pa bs => if s.outsideFree pa who then gone.outsideWrite 0 pa bs who else s.outsideAsk pa who
    | .peer x va =>
      match s.walkCtx x.ctx va with
      | none => gone
      | some y => if s.peerFree y who then gone.peerWrites x va y who else s.outsideAsk y.pa who) s

/-- FAB_ACCESS_TARGET: a fabric access of this module's lanes is checked and performed at its target, or refused; or a
peer's access is, at this module (R330). -/
def execFabAccessTarget (op : Nat) (peer : Option PeerAccess) (s : State) : Host.Outcome State Fault Refusal :=
  .next (match peer with
    | some x => s.peerAccess x
    | none =>
      match s.op op with
      | none => s
      | some o =>
        match o.kind with
        | .load w p _ l got => if onFabric l then s.fabLoad o w p l got else s
        | .store rel exc l =>
          if !onFabric l then s
          else if o.completed then s.fabPerform o rel exc l
          else if s.behindNacked o then s
          else s.acceptFab o
        | .atomic aop d size cmp l => if onFabric l then s.fabAtomic o aop d size cmp l else s
        | .abar form value acc => if onFabric [acc] then s.fabAbar o form value acc else s
        | .query d esz 0 _ ((x, _) :: rest) ans bad => if onFabric [x] then s.fabQuery o d esz x rest ans bad else s
        | _ => s)

/-! ## Windows and remap tables -/

/-- Is an access that this module's port accepted through a window of a context still to be performed: of the context's lanes, or of
a peer (R326, R329)? -/
def State.windowInUse (s : State) (ctx win : Nat) : Bool :=
  (s.ops.any fun o => o.src.ctx == ctx && o.kind.accs.any fun x =>
    match x.via, x.place with
    | some a, _ => fabWindow a.toNat == win
    | none, .fab a => o.completed && o.kind.isStore && fabWindow a == win && !s.remote ctx o.id a
    | _, _ => false) ||
  s.outside.any fun e => match e.2 with
    | .peer x _ => x.ctx == ctx && x.window == win
    | .line .. => false

/-- WINDOW_REVOKE: a mapped window is revoked at one point in time: what its port accepts no more (R326, R329).  The revocation
completes when no access accepted before that is left: SYS_REVOKE_WINDOW waits for that before it answers. -/
def execWindowRevoke (ctx window : Nat) (s : State) : Host.Outcome State Fault Refusal :=
  .next (s.mapCtx ctx fun c =>
    match Tab.lookup window c.windows with
    | none => c
    | some w => { c with windows := Tab.put window { w with revoked := true } c.windows })

/-- The fields of the system, and the modules of one (R2, R5). -/
def fields : Nat := 8
def modules : Nat := 4096

/-- A rank that was lost is lost no more once its packets go to the module of a new entry: one that replaces an older, or the first of
a rank (R332, R383). -/
def State.reached (s : State) (ctx rank : Nat) (replaces : Bool) : State :=
  let old := ((Tab.lookup ctx s.ctxs).map fun c => Tab.get [] c.remap rank).getD []
  if replaces || old.isEmpty then { s with fabric := { s.fabric with lost := s.fabric.lost.filter (· != rank) } } else s

/-- REMAP_INSTALL: the entry of the next generation is installed; at most two are live (R331, R332). -/
def execRemapInstall (ctx rank field module : Nat) (s : State) : Host.Outcome State Fault Refusal :=
  .next (if fields ≤ field ∨ modules ≤ module ∨ 32768 ≤ rank then s else (s.reached ctx rank false).mapCtx ctx fun c =>
    let l := match Tab.get [] c.remap rank with
      | [] => if rank = c.rank then [(⟨s.fabric.me.1, s.fabric.me.2, 0, 0, true⟩ : Remap)] else []
      | l => l
    match l with
    | [] => { c with remap := Tab.put rank [⟨field, module, 0, s.nextId, true⟩] c.remap }
    | [e] => { c with remap := Tab.put rank [e, ⟨field, module, (e.gen + 1) % 65536, s.nextId, false⟩] c.remap }
    | _ => c)

/-- Has an image of a context left through the export gate? -/
def State.exported (s : State) (ctx i : Nat) : Bool := s.trust.exports.any fun e => e.1 == (ctx, some i)

/-- Has the state of a rank of a context left this module (R68, R332): are its crews gone, or saved in images that went through
the export gate? -/
def State.rankLeft (s : State) (ctx : Nat) : Bool :=
  s.crews.all fun e => e.2.ctx != ctx || e.2.state == .exited || (e.2.image.any fun i => s.exported ctx i)

/-- REMAP_DRAIN: once the rank's state has left the old module, what is still under the old generation is nacked there and sent
again under the new one (R332). -/
def execRemapDrain (ctx rank : Nat) (s : State) : Host.Outcome State Fault Refusal :=
  .next (match Tab.lookup ctx s.ctxs with
    | none => s
    | some c =>
      match Tab.get [] c.remap rank with
      | [e, f] =>
        if (e.field, e.module) == s.fabric.me && rank == c.rank && !s.rankLeft ctx then s
        else (s.reached ctx rank true).mapCtx ctx fun c => { c with remap := Tab.put rank [e, { f with drained := true }] c.remap }
      | _ => s)

/-- REMAP_RETIRE: nothing is outstanding under the old generation, and its entry is removed (R332). -/
def execRemapRetire (ctx rank : Nat) (s : State) : Host.Outcome State Fault Refusal :=
  .next (s.mapCtx ctx fun c =>
    match Tab.get [] c.remap rank with
    | [_, f] => if f.drained && !s.outstanding ctx rank f.since then { c with remap := Tab.put rank [f] c.remap } else c
    | _ => c)

/-! ## Groups (R321) -/

/-- The members of a group, ascending. -/
def groupMembers (g : GroupSetting) : List Nat :=
  ((List.range 512).filter fun i => g.mask.getLsbD i).map (g.base + ·)

/-- A group that no entry describes. -/
def noGroup : GroupSetting := ⟨false, 0, 0, 0, 0⟩

def State.group (s : State) (n : Nat) : GroupSetting := Tab.get noGroup s.fabric.groups n

/-- An entry as debug and snapshot reads see it (R321): q0, and the eight words of MASK. -/
def groupWords (g : GroupSetting) : List DWord :=
  BitVec.ofNat 64 (g.valid.toNat * 2 ^ 63 + g.base * 2 ^ 42 + (popCount g.mask) * 2 ^ 32 + g.gen * 2 ^ 16 + g.ctx) ::
    (List.range 8).map fun i => g.mask.extractLsb' (64 * i) 64

/-- Change the part of the state that stands for the fabric. -/
def State.mapFabric (s : State) (g : Fabric → Fabric) : State := { s with fabric := g s.fabric }

/-! ## Multicasts (R322 to R325) -/

/-- `mcst sA, vD, n` (R322). -/
def execMcst (d a n : BitVec 7) (s : State) : Host.Outcome State Fault Refusal :=
  issueWord (fun v =>
    { reads := [.v d.toNat, .v (d.toNat + 1), .s a.toNat], long := true,
      ok := d.toNat % 2 == 0 && bitsOf (v.w.sreg a.toNat).toNat 46 18 == 0 }) (fun v s =>
    if v.full 4 then .hold s .held
    else
      let x := (v.w.sreg a.toNat).toNat
      let gno := bitsOf x 0 12
      let g := s.group gno
      let ok := g.valid && g.ctx == v.crew.ctx
      let bytes := fun (r : Nat) => (List.range 32).flatMap fun i => leBytes ((v.w.vreg r).get i).toNat 4
      let m : Multicast :=
        { tag := n.toNat, group := gno, window := bitsOf x 12 6, line := bitsOf x 18 28,
          data := bytes d.toNat ++ bytes (d.toNat + 1), sent := ok, gen := if ok then g.gen else 0,
          members := if ok then groupMembers g else [], replicated := false, replies := [], combined := none }
      .done ((s.addEngine v 4 (.mcst m)).endRegion v)) s

/-- A multicast in flight, by the number of its request. -/
def State.flit (s : State) (n : Nat) : Option (Op × Multicast) :=
  match s.op n with
  | some o => match o.kind with
    | .mcst m => some (o, m)
    | _ => none
  | none => none

/-- Change a multicast. -/
def State.putFlit (s : State) (o : Op) (m : Multicast) : State := s.putOp { o with kind := .mcst m }

/-- MCST_SWITCH_REPLICATE: the switches send a copy toward every member (R323). -/
def execMcstSwitchReplicate (flit : Nat) (s : State) : Host.Outcome State Fault Refusal :=
  .next (match s.flit flit with
    | none => s
    | some (o, m) => if m.sent && !s.fenced o && !s.behindNacked o then s.putFlit o { m with replicated := true } else s)

/-- Is a reply of a member still to come? -/
def Multicast.awaits (m : Multicast) (rank : Nat) : Bool :=
  m.sent && m.replicated && m.members.contains rank && !(m.replies.any fun r => r.1 == rank)

/-- The line at this module's port as a member: the address it is written to, or the refusal (R323). -/
def State.memberLine (s : State) (ctx window line : Nat) : Except Nat Nat :=
  match s.fabPage ctx window (256 * line) 256 false true with
  | .error (c, n) => .error (if c = causeNotPresent then n else nackNoMap)
  | .ok (_, x) => if x.leaf.typeCode = 0 then .ok x.pa else .error nackNoMap

/-- MCST_MEMBER_DELIVERY: the line is written at a member as one event and acked, or nacked with a cause; or a peer's
line is, at this module (R323, R326).  Members in other modules answer freely. -/
def execMcstMemberDelivery (flit rank : Nat) (line : Option PeerAccess) (s : State) : Host.Outcome State Fault Refusal :=
  .next (match line with
    | some x =>
      if x.size ≠ 256 ∨ x.offset % 256 ≠ 0 then s
      else
        match s.memberLine x.ctx x.window (x.offset / 256) with
        | .error _ => s.countNack (s.freeBelow 1 fabricPorts)
        | .ok _ => s.peerAccess x
    | none =>
      match s.flit flit with
      | none => s
      | some (o, m) =>
        let reply := fun (s : State) (c : Nat) =>
          (if c = 0 then s else s.countNack (s.portOf o)).putFlit o { m with replies := m.replies ++ [(rank, c)] }
        if !m.awaits rank || s.behindNackedTo o rank then s
        else
          match s.routeOf o.src.ctx rank o.id with
          | none => reply s nackNoMap
          | some t =>
            if t != s.fabric.me then reply s (if s.fabric.lost.contains rank then nackNoReply else s.freeBelow 0 5)
            else
              match s.memberLine o.src.ctx m.window m.line with
              | .error c => reply s c
              | .ok pa =>
                if s.outsideFree pa (agentOf o.id) then reply (s.outsideWrite o.src.warp pa m.data (agentOf o.id)) 0
                else s.outsideAsk pa (agentOf o.id))

/-- FABRIC_REPLY_LIMIT: no reply has come; the switch nacks NOREPLY in the member's place (R323). -/
def execFabricReplyLimit (flit rank : Nat) (s : State) : Host.Outcome State Fault Refusal :=
  .next (match s.flit flit with
    | none => s
    | some (o, m) =>
      if m.awaits rank then (s.countNack (s.portOf o)).putFlit o { m with replies := m.replies ++ [(rank, nackNoReply)] } else s)

/-- MCST_REPLY_COMBINE: every member has replied, and the one completion reaches the port; a multicast that was not sent
completes at the port (R322, R324). -/
def execMcstReplyCombine (flit : Nat) (s : State) : Host.Outcome State Fault Refusal :=
  .next (match s.flit flit with
    | none => s
    | some (o, m) =>
      if m.combined.isSome then s
      else if !m.sent || m.members.all fun r => m.replies.any fun q => q.1 == r then
        s.putFlit o { m with combined := some s.time }
      else s)

/-- The nacks of a multicast in ascending rank (R325). -/
def Multicast.nacks (m : Multicast) : List (Nat × Nat) :=
  m.members.filterMap fun r => (m.replies.find? fun q => q.1 == r && q.2 != 0)

/-- The words of the entries of a completion: the first, then the continuations (R325). -/
def Multicast.entries (m : Multicast) (time : DWord) : List (List Word) :=
  let ns := m.nacks
  let word := fun (e : Nat × Nat) => field 29 e.2 ||| field 0 e.1
  let eight := fun (k : Nat) => (List.range 8).map fun i => ((ns[8 * k + i]?).map word).getD 0
  let first : List Word :=
    [field 24 1 ||| field 23 1 ||| field 16 m.tag ||| field 12 (!m.sent).toNat ||| field 0 ns.length,
      field 20 m.group ||| field 10 (m.members.length - ns.length) ||| field 0 m.members.length,
      field 16 m.gen ||| field 0 m.window, field 0 m.line, loWord time, hiWord time, 0, 0]
  (first ++ eight 0) :: (List.range ((ns.length - 1) / 8)).map fun k =>
    (field 24 2 ||| field 23 1 ||| field 16 m.tag) :: List.replicate 7 0 ++ eight (k + 1)

/-- The physical address of a slot of a queue that is free. -/
def State.freeSlot (s : State) (ctx v words : Nat) (q : RecordQueue) (i : Nat) : Option Nat :=
  match s.walkCtx ctx (q.base + 4 * words * ((q.next + i) % q.slots)) with
  | none => none
  | some x => if (s.word x.pa).getLsbD v then none else some x.pa

/-- Write a record with its first word last (R57). -/
def State.putRecord (s : State) (pa : Nat) (r : List Word) : State :=
  (s.homeWrite 0 (pa + 4) (wordsBytes (r.drop 1))).homeWrite 0 pa (wordsBytes (r.take 1))

/-- MCST_COMPLETION_WRITE: the port writes the entries to consecutive free slots, the first slot's V last, and retires
the operation; it waits while the slots are full (R324). -/
def execMcstCompletionWrite (flit : Nat) (s : State) : Host.Outcome State Fault Refusal :=
  .next (match s.flit flit with
    | none => s
    | some (o, m) =>
      match m.combined, (Tab.lookup o.src.ctx s.ctxs).bind (·.statusQ) with
      | some t, some q =>
        let es := m.entries t
        let pas := (List.range es.length).filterMap fun i => s.freeSlot o.src.ctx 23 16 q i
        if pas.length ≠ es.length || !s.oldest o then s
        else
          let s1 := ((pas.zip es).reverse).foldl (fun s e => s.putRecord e.1 e.2) s
          (s1.mapCtx o.src.ctx fun c =>
            { c with statusQ := some { q with next := (q.next + es.length) % q.slots } }).retire o
      | _, _ => s)

/-- LINK_LOSS: a port (`rank.1`) detects the loss of its links to a rank (`rank.2`), or, under a number from 24 on, a link between
dies is lost; the module takes a shot (R1, R378, R383). -/
def execLinkLoss (rank : Nat × Nat) (s : State) : Host.Outcome State Fault Refusal :=
  let add := fun (n : Nat) (l : List Nat) => if l.contains n then l else l ++ [n]
  .next ((s.mapFabric fun f =>
    { f with lost := if rank.1 < fabricPorts then add rank.2 f.lost else f.lost, down := add rank.1 f.down }).errorShot 3)

end Sys2Proof.Machine
end

