-- ==== Sys2Proof/Machine/Matrix.lean ====
section
/-! DEFINITION. The matrix engine: ranges and arming, matrix words as they issue, passes, sums, gates, drains, replays,
batches (R152 to R154, R213, R217, R274, R277 to R297, R307 to R310). -/

namespace Sys2Proof.Machine

/-! ## Ranges (R277, R287) -/

/-- A range descriptor. -/
structure Range where
  kblk : Nat
  rblk : Nat
  ty : Nat
  nm : Nat
  mac : Nat
  deriving DecidableEq, Repr

/-- The fields of a descriptor. -/
def rangeOf (d : DWord) : Range :=
  ⟨bitsOf d.toNat 20 12, bitsOf d.toNat 12 8, bitsOf d.toNat 8 4, bitsOf d.toNat 5 3, bitsOf d.toNat 0 5⟩

/-- Elements per row of the range, and those of one K block. -/
def Range.kq (r : Range) : Nat := tileCount r.ty
def Range.klen (r : Range) : Nat := r.kblk * r.kq

/-- Bytes of the range: elements, and for fp4s block and band scales too. -/
def Range.size (r : Range) : Nat :=
  if r.ty = 13 then 40 * r.rblk * r.klen + 2 * r.rblk else 64 * r.rblk * r.klen * (elemWidth r.ty / 8)

/-- The macros of the range. -/
def Range.macros (r : Range) : List Nat := (List.range (r.nm + 1)).map fun i => r.mac + i

/-- Is a descriptor one that `arm` takes in a crew with this many macros? -/
def rangeOk (d : DWord) (spad : Nat) : Bool :=
  let r := rangeOf d
  decide (d.toNat < 2 ^ 32 ∧ 5 ≤ r.ty ∧ r.ty ≤ 13 ∧ 1 ≤ r.kblk ∧ 1 ≤ r.rblk ∧ r.size ≤ (r.nm + 1) * 16384 ∧
    r.mac + r.nm < spad ∧ r.mac / 8 = (r.mac + r.nm) / 8)

/-- The bytes of the range that its row block `rb` has in some K blocks, scales among them: offset and length (R287). -/
def Range.operand (r : Range) (rb : Nat) (kbs : List Nat) : List (Nat × Nat) :=
  let base := 16384 * r.mac
  (List.range 64).flatMap fun i => kbs.flatMap fun kb =>
    let at0 := (64 * rb + i) * r.klen + r.kq * kb
    if r.ty = 13 then
      [(base + at0 / 2, r.kq / 2), (base + 32 * r.rblk * r.klen + at0 / 8, r.kq / 8), (base + 40 * r.rblk * r.klen + 2 * rb, 2)]
    else [(base + at0 * (elemWidth r.ty / 8), r.kq * (elemWidth r.ty / 8))]

/-- Do the sums of a range fall into int32 tiles (R153, R278)? -/
def Range.int (r : Range) : Bool := r.ty == 5 || r.ty == 6

/-- The descriptor of the range whose first macro is `mac`. -/
def Crew.rangeAt (c : Crew) (mac : Nat) : Option DWord :=
  (Tab.lookup mac c.macros).filter fun d => (rangeOf d).mac == mac

/-- Is a `disarm` of the range under way? -/
def State.disarming (s : State) (crew : Nat) (d : DWord) : Bool := s.ops.any fun o => o.kind == .disarm crew d

/-- Discard the operand stage of a core (R213). -/
def State.discardStage (s : State) (core : Nat) : State := s.mapCore core fun c => { c with stage := [] }

/-- `arm sA` (R217, R277, R286): from its issue on the macros are armed.  It waits for a `disarm` of the range under way, and for
a fence at which another fragment of the warp is held (R209, R210). -/
def execArm (a : BitVec 7) (s : State) : Host.Outcome State Fault Refusal :=
  issueWord (fun _ => { reads := [.s a.toNat], long := true }) (fun v s =>
    let d := v.w.sreg a.toNat
    let r := rangeOf d
    let clash := r.macros.any fun m => match Tab.lookup m v.crew.macros with
      | some e => e != d
      | none => false
    if v.crew.spadMacros = 0 then .fault s (v.cause causeNoWindow)
    else if !rangeOk d v.crew.spadMacros || clash then .fault s v.illegal
    else if s.disarming v.w.crew d || s.fencedAt v.key (v.limit s) false 0x08 then v.holdAt s .held
    else if (v.crew.rangeAt r.mac).isSome then .done s
    else
      let s1 := s.mapCrew v.w.crew fun c =>
        { c with macros := r.macros.foldl (fun t m => Tab.put m d t) c.macros, arming := c.arming ++ r.macros }
      .done ((s1.discardStage v.crew.core).addOp v.src (.arm v.w.crew d) true false)) s

/-- The `arm` words whose macros are all configured complete. -/
def State.finishArms (s : State) (crew : Nat) : State :=
  s.ops.foldl (fun s o =>
    match o.kind with
    | .arm k d =>
      if k == crew && !((Tab.lookup crew s.crews).any fun c => (rangeOf d).macros.any c.arming.contains) then
        (s.dropOp o.id).settleFlags o.src.warp
      else s
    | _ => s) s

/-- Has a store to a macro's range been accepted there and not yet been performed (R217)? -/
def State.spadBusy (s : State) (crew macroNo : Nat) : Bool :=
  s.ops.any fun o => o.completed && match o.kind, s.crewOf o with
    | .store _ _ l, some c => l.any fun a => match a.place with
        | .map x => match s.mapTarget c true x.toNat with
          | .chip (.spad k off) => k == crew && off / 16384 == macroNo
          | _ => false
        | _ => false
    | _, _ => false

/-- ARM_MACRO_CONFIGURED: the quadrant's oldest macro that waits is configured, once the stores that its range had accepted are
performed (R217, R286). -/
def execArmMacroConfigured (crew macroNo : Nat) (s : State) : Host.Outcome State Fault Refusal :=
  .next (match Tab.lookup crew s.crews with
    | none => s
    | some c =>
      if (c.arming.find? fun m => m / 8 == macroNo / 8) == some macroNo && !s.spadBusy crew macroNo then
        (s.mapCrew crew fun c => { c with arming := c.arming.erase macroNo }).finishArms crew
      else s)

/-- The range that an operation of the engine names (R278, R290). -/
def MatKind.range : MatKind → Option DWord
  | .mma d _ _ _ _ _ | .mmaq d _ _ _ _ _ => some d
  | _ => none

/-- `disarm sA` (R289). -/
def execDisarm (a : BitVec 7) (s : State) : Host.Outcome State Fault Refusal :=
  issueWord (fun _ => { reads := [.s a.toNat], long := true }) (fun v s =>
    let d := v.w.sreg a.toNat
    if v.crew.spadMacros = 0 then .fault s (v.cause causeNoWindow)
    else if Tab.lookup (rangeOf d).mac v.crew.macros ≠ some d || s.disarming v.w.crew d ||
        (v.crew.engine.any fun m => m.kind.range == some d) then .fault s v.illegal
    else .done ((s.endRegion v).addOp v.src (.disarm v.w.crew d) true false)) s

/-! ## Tiles in issue order (R278, R284) -/

/-- What later words ask of an accumulator tile: level, kind, empty mark, uncorrectable mark. -/
structure AccTag where
  level : Nat
  int : Bool
  empty : Bool
  bad : Bool
  deriving DecidableEq, Repr

/-- The tags that a sum leaves: an empty tile takes them (R278). -/
def AccTag.sum (t : AccTag) (level : Nat) (int : Bool) : AccTag := if t.empty then ⟨level, int, false, t.bad⟩ else t

/-- The tags of a tile after an operation. -/
def AccTag.after (t : AccTag) (m : MatOp) : AccTag :=
  match m.kind with
  | .czero => ⟨0, false, true, false⟩
  | .mma d _ _ b gate _ => t.sum (if gate = 0 then b.tag.level else 0) (rangeOf d).int
  | .mmaq d _ _ b set agree => if set.isEmpty || agree then t.sum b.tag.level (rangeOf d).int else t
  | .cld level int _ _ => ⟨level, int, false, false⟩
  | _ => t

/-- The tags of a tile after every operation on it that has issued. -/
def Crew.accTag (c : Crew) (quad t : Nat) : AccTag :=
  let a := c.tile quad t
  (c.engine.filter fun m => m.quad == quad && m.tile == t && !m.done).foldl AccTag.after ⟨a.level, a.int, a.empty, a.bad⟩

/-- The quadrant of a warp (R284). -/
def Warp.quad (w : Warp) : Nat := w.id % 4

/-- Place an operation in the engine, in the warp's open batch. -/
def State.engage (s : State) (v : View) (tile : Nat) (kind : MatKind) (exc : Exc) (haar : Nat) : State :=
  let m : MatOp := ⟨s.nextId, v.src, v.w.batch, v.w.quad, tile, kind, false, exc, 0, 0, haar⟩
  { (s.mapCrew v.w.crew fun c => { c with engine := c.engine ++ [m] }) with nextId := s.nextId + 1 }

/-! ## Operands (R275, R287, R288) -/

/-- An element: its value, and the value of its code with the scale by which it is multiplied. -/
structure Elem where
  val : FVal
  code : FVal
  scale : Nat × Nat
  deriving DecidableEq, Repr

/-- An element without scales. -/
def plainElem (x : FVal) : Elem := ⟨x, x, (1, 1)⟩

/-- An element of fp4s with its block and band scales (R145); an invalid band scale gives a NaN that raises NV. -/
def scaledElem (code sb : Nat) (sn : FVal) : Elem :=
  match sn with
  | .num t a b => ⟨(blockValue code sb (.num t a b)).getD (.num false 0 1),
      if t then (readFloat 13 false code).flip else readFloat 13 false code, (scaleNum sb * a, 128 * b)⟩
  | _ => ⟨.nan false true 0, .nan false true 0, (1, 1)⟩

/-- The tile as it stands at issue: its tags, its registers, and the registers that hold an fp4s tile's scales. -/
def Warp.copyTile (w : Warp) (t : Nat) : TileCopy :=
  ⟨w.tag t, (List.range 8).map fun i => w.vreg (8 * t + i), (List.range 3).map fun i => w.vreg (8 * t + 8 + i)⟩

/-- The copy of a HAAR tile that `mma.g` works on (R279, R302), with what its roundings raised. -/
def Warp.copySequence (w : Warp) (t : Nat) : TileCopy × Exc :=
  let ty := (w.tag t).fmt
  let r := w.reconstruct t
  let lane := fun (n : Nat) => packTile ty ((List.range (tileCount ty)).map fun e => r.1 n e)
  let lanes := (List.range 32).map lane
  (⟨⟨ty, 0, 0⟩, (List.range 8).map fun i => Lanes.ofFn fun n => (lanes.getD n []).getD i 0, []⟩, r.2)

/-- The bits of element k of lane n of a copied tile. -/
def TileCopy.bits (t : TileCopy) (n k : Nat) : Nat :=
  let b := elemWidth t.tag.fmt
  let reg := fun (i : Nat) => ((t.regs.getD i []).get n).toNat
  if b = 64 then reg (2 * k) + 2 ^ 32 * reg (2 * k + 1) else bitsOf (reg (k / (32 / b))) (b * (k % (32 / b))) b

/-- B(n, k) (R288); a HAAR lane whose survival bit is clear is +0.0 (R291). -/
def TileCopy.elem (t : TileCopy) (n k : Nat) : Elem :=
  if t.tag.level ≠ 0 && !t.tag.survival.getLsbD n then plainElem (.num false 0 1)
  else if t.tag.fmt = 13 then
    let sc := fun (i : Nat) => ((t.scales.getD i []).get n).toNat
    scaledElem (t.bits n k) (bitsOf (sc (k / 32)) (8 * (k / 8 % 4)) 8) (readFloat 9 false (sc 2 % 65536))
  else plainElem (readElem t.tag.fmt false (t.bits n k))

/-- A(i, k) of an armed range (R277, R287). -/
def Crew.stationary (c : Crew) (r : Range) (i k : Nat) : FVal :=
  let base := 16384 * r.mac
  if r.ty = 13 then
    let at0 := i * r.klen + k
    let code := bitsOf (leNat (c.spadBytes (base + at0 / 2) 1)) (4 * (at0 % 2)) 4
    let sb := leNat (c.spadBytes (base + 32 * r.rblk * r.klen + i * r.klen / 8 + k / 8) 1)
    let sn := leNat (c.spadBytes (base + 40 * r.rblk * r.klen + 2 * (i / 64)) 2)
    (scaledElem code sb (readFloat 9 false sn)).val
  else
    let n := elemWidth r.ty / 8
    readElem r.ty false (leNat (c.spadBytes (base + (i * r.klen + k) * n) n))

/-! ## Sums (R152 to R154) -/

/-- A leaf: the exact product (R152, R154). -/
def leafOf (a b : FVal) : FVal × Exc :=
  if a.isNan || b.isNan then (.nan false false 0, Exc.nvIf (a.isSig || b.isSig))
  else
    match mulVals a b with
    | some p => (p, Exc.none)
    | none => (.nan false false 0, Exc.NV)

/-- The sum of two values rounded to a type by RNE, as bits (R152, R154). -/
def addBits (ty : Nat) (x y : FVal) : Nat × Exc :=
  if x.isNan || y.isNan then (defaultNan ty, Exc.nvIf (x.isSig || y.isSig)) else addNums ty Rnd.rne x y

/-- A node of the tree as a value. -/
def addVals (ty : Nat) (x y : FVal) : FVal × Exc :=
  let r := addBits ty x y
  (readFloat ty false r.1, r.2)

/-- Cut a list into blocks of 32 (R152). -/
def blocks32 {α : Type} (l : List α) : List (List α) :=
  (List.range ((l.length + 31) / 32)).map fun i => (l.drop (32 * i)).take 32

/-- A block's sum: the fixed tree over its leaves, missing ones empty. -/
def blockSum (nt : Nat) (l : List FVal) : Option FVal × Exc :=
  tree32 (fun _ x y => addVals nt x y) ((List.range 32).map fun i => l[i]?)

/-- The accumulator and the block sums, in ascending block order: fp32 bits. -/
def addBlocks (nt : Nat) (old : Nat) (leaves : List FVal) : Nat × Exc :=
  (blocks32 leaves).foldl (fun r b =>
    let s := blockSum nt b
    match s.1 with
    | none => (r.1, r.2.add s.2)
    | some x =>
      let q := addBits 8 (readFloat 8 false r.1) x
      (q.1, (r.2.add s.2).add q.2)) (old, Exc.none)

/-- The integer that a value of an integer type is. -/
def FVal.toInt : FVal → Int
  | .num s n _ => if s then -(n : Int) else n
  | _ => 0

/-- An element of a sum in a fp32 or an int32 tile: bits, and what was raised. -/
def sumElem (r : Range) (old : Nat) (ps : List (FVal × Elem)) : Nat × Exc :=
  if r.int then (natOf 32 (ps.foldl (fun z p => z + p.1.toInt * p.2.val.toInt) (old : Int)), Exc.none)
  else
    let ls := ps.map fun p => leafOf p.1 p.2.val
    let q := addBlocks (if r.ty = 7 then 7 else 8) old (ls.map (·.1))
    (q.1, (Exc.sum (ls.map (·.2))).add q.2)

/-! ## Gates (R279) -/

/-- The value of an accumulator element. -/
def accVal (int : Bool) (bits : Nat) : FVal :=
  if int then readInt 1 bits else readFloat 8 false bits

/-- Is a value above a threshold? -/
def above (y t : FVal) : Bool := !y.isNan && !t.isNan && t.below false y

/-- The significand planes of a nonzero element of a type. -/
def planesOf (ty : Nat) : Nat :=
  match ty with
  | 7 => 53 | 8 => 24 | 10 => 11 | 11 => 4 | 12 => 3 | 13 => 2 | _ => 8

/-- 2 to a power, as a fraction. -/
def pow2 (k : Int) : Nat × Nat := if 0 ≤ k then (2 ^ k.toNat, 1) else (1, 2 ^ (-k).toNat)

/-- A term of P_j + U_j: a × (planes 0 to j of b), and |a| × 2^(E - j) when a × b > 0. -/
def planeTerm (j : Nat) (a : FVal) (b : Elem) : Int × Nat :=
  match a, b.code with
  | .num s an ad, .num t bn bd =>
    if an = 0 ∨ bn = 0 ∨ b.scale.1 = 0 then (0, 1)
    else
      let u := pow2 (floorLog2 bn bd - j)
      let k := bn * u.2 / (bd * u.1)
      let up := if s == t then k + 1 else k
      ((if s == t then 1 else -1) * (an * up * u.1 * b.scale.1 : Nat), ad * u.2 * b.scale.2)
  | _, _ => (0, 1)

/-- The sum of a value and fractions, exactly. -/
def addFracs (x : FVal) (l : List (Int × Nat)) : FVal :=
  match x with
  | .num s n d =>
    let r := l.foldl (fun (z : Int × Nat) t => if t.1 = 0 then z else (z.1 * t.2 + t.1 * z.2, z.2 * t.2))
      ((if s then -(n : Int) else n), d)
    .num (decide (r.1 < 0)) r.1.natAbs r.2
  | _ => x

/-- Is a value a finite number? -/
def FVal.finite : FVal → Bool
  | .num .. => true
  | _ => false

/-- The planes that an output element skips by stopping early: after plane j < s - 1, when P_j + U_j < t. -/
def planesSkipped (ty : Nat) (old t : FVal) (ps : List (FVal × Elem)) : Nat :=
  let s := planesOf ty
  if !old.finite || t.isNan || !(ps.all fun p => p.1.finite && p.2.val.finite) then 0
  else
    match (List.range (s - 1)).find? fun j =>
      (addFracs old (ps.map fun p => planeTerm j p.1 p.2)).below false t with
    | some j => s - 1 - j
    | none => 0

/-- What a gate compares with: 0, or the threshold (R279). -/
def gateBound (gate : Nat) (thr : Word) : FVal := if gate = 2 then readFloat 8 false thr.toNat else .num false 0 1

/-! ## The work of one pass -/

/-- The tile after an operation: for each row and column the old element plus the sum over the K blocks, gated; what
was raised, and the planes skipped (R278, R279, R291). -/
def Crew.work (c : Crew) (r : Range) (rb : Nat) (parts : List (Nat × TileCopy)) (gate : Nat) (thr : Word) (skip : Bool)
    (a : Acc) : List Word × Exc × Nat :=
  let cols := (List.range 32).map fun n => parts.flatMap fun p => (List.range r.kq).map fun k => p.2.elem n k
  let bound := gateBound gate thr
  let idle := fun (n : Nat) => skip && parts.any fun p => p.2.tag.level != 0 && !p.2.tag.survival.getLsbD n
  let rows := (List.range 64).map fun i =>
    let row := parts.flatMap fun p => (List.range r.kq).map fun k => c.stationary r (64 * rb + i) (r.kq * p.1 + k)
    cols.mapIdx fun n col =>
      let old := (a.elem i n).toNat
      if idle n then
        if r.int then (old, Exc.none, 0)
        else
          let q := addBits 8 (readFloat 8 false old) (.num false 0 1)
          (q.1, q.2, 0)
      else
        let ps := row.zip col
        let y := sumElem r old ps
        if gate = 0 then (y.1, y.2, 0)
        else (if above (accVal r.int y.1) bound then y.1 else 0, y.2, planesSkipped r.ty (accVal r.int old) bound ps)
  let all := rows.flatten
  (all.map fun e => BitVec.ofNat 32 e.1, (Exc.sum (all.map (·.2.1))).once, all.foldl (fun n e => n + e.2.2) 0)

/-! ## Matrix words at issue (R278, R279, R290) -/

/-- What a matrix word's uniform register holds. -/
structure MatArgs where
  reserved : Bool
  gate : Nat
  kb : Nat
  rb : Nat
  mac : Nat
  deriving DecidableEq, Repr

/-- Its fields. -/
def matArgs (x : Nat) : MatArgs :=
  ⟨bitsOf x 35 29 != 0 || bitsOf x 5 3 != 0, bitsOf x 32 3, bitsOf x 16 16, bitsOf x 8 8, bitsOf x 0 5⟩

/-- A range that a word may name: armed or being armed, and no `disarm` of it under way. -/
def State.openRange (s : State) (crew : Nat) (c : Crew) (mac : Nat) : Option DWord :=
  (c.rangeAt mac).filter fun d => !s.disarming crew d

/-- The conditions of R290 on the four quadrants. -/
def State.quadsAgree (s : State) (v : View) (mac : Nat) (r : Range) : Bool :=
  (List.range 4).all fun q =>
    (s.warps.any fun e => e.2.crew == v.w.crew && e.2.quad == q) &&
      (match s.openRange v.w.crew v.crew (8 * q + mac % 8) with
        | some d =>
          let x := rangeOf d
          x.ty == r.ty && x.nm == r.nm && x.rblk == r.rblk && x.kblk == r.kblk
        | none => false)

/-- The forms of a matrix word. -/
inductive MmaForm where
  | plain | gated | quad
  deriving DecidableEq, Repr

/-- A matrix word: its checks, and its place in the engine. -/
def mmaWord (form : MmaForm) (d a b : BitVec 7) : State → Host.Outcome State Fault Refusal :=
  issueWord (fun _ =>
    { reads := .s b.toNat :: tileRegs a.toNat, long := true, ok := decide (d.toNat < 8 ∧ a.toNat < 16) }) fun v s =>
    let x := matArgs (v.w.sreg b.toNat).toNat
    if v.crew.spadMacros = 0 then .fault s (v.cause causeNoWindow)
    else
      match s.openRange v.w.crew v.crew x.mac with
      | none => .fault s v.illegal
      | some desc =>
        let r := rangeOf desc
        let tag := v.w.tag a.toNat
        let level := if form == .gated then 0 else tag.level
        let acc := v.crew.accTag v.w.quad d.toNat
        let gateOk := match form with
          | .gated => x.gate == 1 || x.gate == 2
          | _ => x.gate == 0
        let kbOk := match form with
          | .quad => decide (x.kb + 4 ≤ r.kblk) && s.quadsAgree v x.mac r
          | _ => decide (x.kb < r.kblk)
        if x.reserved || !gateOk || x.mac / 8 ≠ v.w.quad || r.rblk ≤ x.rb || !kbOk || tag.fmt ≠ r.ty ||
            (r.ty == 13 && a.toNat == 15) || (!acc.empty && (acc.level != level || acc.int != r.int)) then
          .fault s v.illegal
        else
          match v.extraFault (if r.ty = 13 then tileRegs (a.toNat + 1) else []) true with
          | some f => .fault s f
          | none =>
            if acc.bad then .fault s (v.cause causeData)
            else
              let plain := v.w.copyTile a.toNat
              let haar := form == .gated && tag.level != 0
              let cp : TileCopy × Exc := if haar then v.w.copySequence a.toNat else (plain, Exc.none)
              let kind : MatKind := match form with
                | .quad => .mmaq desc x.rb x.kb plain [] false
                | _ => .mma desc x.rb x.kb cp.1 x.gate (v.w.wt.getD 0 0)
              .done (s.engage v d.toNat kind cp.2 haar.toNat)

/-- `mma cD, tA, sB` (R278). -/
def execMma (d a b : BitVec 7) (s : State) : Host.Outcome State Fault Refusal := mmaWord .plain d a b s
/-- `mma.g cD, tA, sB` (R279). -/
def execMmaG (d a b : BitVec 7) (s : State) : Host.Outcome State Fault Refusal := mmaWord .gated d a b s
/-- `mma.q cD, tA, sB` (R290). -/
def execMmaQ (d a b : BitVec 7) (s : State) : Host.Outcome State Fault Refusal := mmaWord .quad d a b s

/-- `czero cD` (R280). -/
def execCzero (d : BitVec 7) (s : State) : Host.Outcome State Fault Refusal :=
  issueWord (fun _ => { long := true, ok := decide (d.toNat < 8) }) (fun v s =>
    if v.crew.spadMacros = 0 then .fault s (v.cause causeNoWindow)
    else .done (s.engage v d.toNat .czero Exc.none 0)) s

/-! ## Drains (R280) -/

/-- The fields of a drain's four uniform registers: what it asks for, the residual tile when there is one, and whether
the reserved fields are zero. -/
def drainFields (w : Warp) (d b : Nat) : DrainSpec × Option Nat × Bool :=
  let x := (w.sreg b).toNat
  let y := w.sreg (b + 1)
  let z := w.sreg (b + 2)
  let u := w.sreg (b + 3)
  let res := if bitsOf x 10 1 = 1 then some (bitsOf x 16 4) else none
  ({ dest := d, row := bitsOf x 0 8, rcon := bitsOf x 8 1 == 1, gate := bitsOf x 11 3, drop := bitsOf x 9 1 == 1,
     res := res.map w.copyTile, p32 := hiWord (w.sreg b), row0 := loWord y, col0 := hiWord y, seed := loWord z,
     step := hiWord z, scale := loWord u, thr := w.wt.getD 0 0 },
   res, bitsOf x 14 2 == 0 && bitsOf x 20 12 == 0 && hiWord u == 0 && decide (bitsOf x 11 3 < 3))

/-- `drain tD, cA, sB` (R280): its flag clears when it has written tD (R292). -/
def execDrain (d a b : BitVec 7) (s : State) : Host.Outcome State Fault Refusal :=
  issueWord (fun _ =>
    { reads := (List.range 4).map fun i => .s (b.toNat + i), writes := tileRegs d.toNat, long := true,
      ok := decide (d.toNat < 16 ∧ a.toNat < 8 ∧ b.toNat % 4 = 0 ∧ b.toNat ≤ 60) }) (fun v s =>
    if v.crew.spadMacros = 0 then .fault s (v.cause causeNoWindow)
    else
      let f := drainFields v.w d.toNat b.toNat
      let e := tileCount v.type
      let acc := v.crew.accTag v.w.quad a.toNat
      let resOk := match f.2.1 with
        | some t => v.w.tag t == ⟨v.type, 0, 0⟩
        | none => true
      let bare := !f.1.rcon && acc.level != 0
      if !f.2.2 || v.type = 0 || v.type = 13 || f.1.row % e ≠ 0 || 64 < f.1.row + e || (f.1.rcon && acc.level == 0) ||
          (bare && (f.1.gate != 0 || f.1.drop || f.2.1.isSome)) || !resOk then .fault s v.illegal
      else
        match v.extraFault ((f.2.1.map tileRegs).getD []) true with
        | some x => .fault s x
        | none =>
          if acc.bad then .fault s (v.cause causeData)
          else
            let s1 := s.addOp v.src .drain true false
            .done ((s1.engage v a.toNat (.drain s.nextId f.1 v.draws) Exc.none 0).mapWarp v.key v.advance)) s

/-- One level back along a row of an accumulator (R280, R302). -/
def rowBackLevel (k : Nat) (l : List FVal) : List FVal × Exc :=
  let get := fun (i : Nat) => l.getD i (.num false 0 1)
  let val := fun (r : Nat × Exc) => (readFloat 8 false r.1, r.2)
  let rs := (List.range (k / 2)).flatMap fun q =>
    [val (fnFadd 8 Rnd.rne (get q) (get (k / 2 + q))), val (fnFsub 8 Rnd.rne (get q) (get (k / 2 + q)))]
  (rs.map (·.1) ++ l.drop k, Exc.sum (rs.map (·.2)))

/-- From level `n` back to the sequence domain. -/
def rowBackward : Nat → Nat → List FVal → List FVal × Exc
  | 0, _, l => (l, Exc.none)
  | n + 1, k, l =>
    let r := rowBackLevel k l
    let q := rowBackward n (2 * k) r.1
    (q.1, r.2.add q.2)

/-- The steps of a drain on one element: gate, dropout, residual, the final rounding.  The gate here and that of `mma.g` raise
nothing, not even NV for a signalling NaN: R280 and R154 count the flags of roundings only, where R143 speaks of every comparison,
and this is the model's choice (notes/assumptions/42). -/
def drainElem (p : DrainSpec) (mode : Word) (dr : Draws) (n e : Nat) (y : FVal) : Nat × Exc :=
  let ty := modeType mode
  let mid : Rnd := ⟨0, modeSat mode, modeFtz mode, 0⟩
  let y1 := if p.gate = 0 then y else if above y (gateBound p.gate p.thr) then y else .num false 0 1
  let y2 : FVal × Exc :=
    if !p.drop then (y1, Exc.none)
    else if p.p32.toNat ≤ (gen p.seed (p.row0 + BitVec.ofNat 32 (p.row + e)) (p.col0 + BitVec.ofNat 32 n) p.step).toNat then
      let r := fnFmul 8 mid y1 (readFloat 8 false p.scale.toNat)
      (readFloat 8 false r.1, r.2)
    else (.num false 0 1, Exc.none)
  let y3 : FVal × Exc :=
    match p.res with
    | none => y2
    | some t =>
      let r := fnFadd 8 mid y2.1 (readElem ty false (t.bits n e))
      (readFloat 8 false r.1, y2.2.add r.2)
  let z := roundTo ty (rndAt mode dr n e) y3.1
  (z.1, y3.2.add z.2)

/-- A drain: rows ROW upward of a tile, reconstructed when asked for, into the active lanes of tD, which takes its tags whatever
lanes are active (R280, R308). -/
def State.performDrain (s : State) (m : MatOp) (a : Acc) (op : Nat) (p : DrainSpec) (dr : Draws) : State :=
  let ty := modeType m.src.mode
  let rows := (List.range (tileCount ty)).map fun e =>
    let row := (List.range 32).map fun n => accVal a.int (a.elem (p.row + e) n).toNat
    if p.rcon then rowBackward a.level (2 * approxCols a.level) row else (row, Exc.none)
  let lanes := (laneList m.src.lanes).map fun n =>
    (n, rows.mapIdx fun e r => drainElem p m.src.mode dr n e (r.1.getD n (.num false 0 1)))
  let exc := (Exc.sum (rows.map (·.2) ++ lanes.map fun l => Exc.sum (l.2.map (·.2)))).once
  let word := fun (i n : Nat) => match lanes.find? fun l => l.1 == n with
    | some l => (packTile ty (l.2.map (·.1))).getD i 0
    | none => 0
  let tag : Tag := if a.level ≠ 0 && !p.rcon then ⟨ty, a.level, BitVec.allOnes 32⟩ else ⟨ty, 0, 0⟩
  ((s.mapWarp m.src.warp fun w =>
    let w1 := (List.range 8).foldl (fun w i => w.putV (8 * p.dest + i) m.src.lanes (Lanes.ofFn (word i))) w
    ({ w1 with tags := Tab.set Tag.launch w1.tags p.dest tag } : Warp).raiseExc exc).dropOp op).settleFlags m.src.warp

/-! ## Loading and storing tiles (R309, R310) -/

/-- One row of a tile in memory: the access, or the cause that it meets. -/
def State.tileRow (s : State) (v : View) (b : Buf) (store : Bool) (i r : Nat) : Except (Nat × Addr × Option Nat) Access :=
  let a := b.base + (i + r) * b.stride
  let va : Addr := BitVec.ofNat 64 a
  let raw := b.raw && !s.privileged v.crew.ctx
  let acc := fun (p : Place) => Except.ok (⟨0, va, p, 128, [], none⟩ : Access)
  if 2 ^ 57 ≤ a ∨ bitsOf a 56 1 ≠ bitsOf b.base 56 1 then .error (causeBounds, va, none)
  else if raw then .error (causePermission, 0, none)
  else if b.fab then .error (causeType, va, none)
  else if isMap a then
    if bitsOf a 21 3 ≠ 0 then .error (causeType, va, none)
    else
      match s.mapTarget v.crew false a with
      | .bad c => .error (c, va, none)
      | .stall => acc (.map va)
      | .chip (.spad k off) =>
        if store && s.chipArmed 128 (.spad k off) then .error (causeArmed, va, none) else acc (.map va)
      | .chip _ => .error (causeType, va, none)
  else
    match s.translate v.crew.ctx v.crew.core a (!store) store with
    | .error c => .error (c, va, if pageCause c then some (a / 65536) else none)
    | .ok x =>
      if b.pageType x != .plain then .error (causeType, va, none)
      else acc (.pa x.pa)

/-- `cld` and `cst` at issue: every check of R309, in the order of the causes' codes. -/
def tileWord (store : Bool) (d a : BitVec 7) (b : BitVec 4) : State → Host.Outcome State Fault Refusal :=
  issueWord (fun _ => { reads := [.s a.toNat, .b b.toNat], long := true, ok := decide (d.toNat < 8) }) fun v s =>
    let x := (v.w.sreg a.toNat).toNat
    let dom := bitsOf x 32 3
    let kind := bitsOf x 35 1
    let row := bitsOf x 0 32
    let buf := bufOf (v.w.breg b.toNat)
    let bad := fun (c a : Nat) => Res.fault s { cause := c, lanes := v.act, addr := BitVec.ofNat 64 a,
                                                info := if c = causeBounds then BitVec.ofNat 32 (row + 63) else 0 }
    if v.crew.spadMacros = 0 then .fault s (v.cause causeNoWindow)
    else if bitsOf x 36 28 ≠ 0 || dom > 5 || (store && (dom != 0 || kind != 0)) || buf.esz != 2 then .fault s v.illegal
    else if buf.extent ≤ row + 63 then bad causeBounds ((buf.base + Nat.max row buf.extent * buf.stride) % 2 ^ 64)
    else if buf.stride = 0 || buf.stride % 128 ≠ 0 || (buf.base + row * buf.stride) % 128 ≠ 0 then
      bad causeMisaligned ((buf.base + row * buf.stride) % 2 ^ 64)
    else
      let rs := (List.range 64).map fun r => s.tileRow v buf store row r
      let errs := rs.filterMap fun r => match r with
        | .error e => some e
        | .ok _ => none
      let accs := rs.filterMap fun r => match r with
        | .error _ => none
        | .ok q => some q
      let marked := store && (v.crew.accTag v.w.quad d.toNat).bad
      let c := leastOf ((errs.map (·.1)) ++ (if marked then [causeData] else []))
      if errs.isEmpty && !marked then
        let s1 := accs.foldl (fun s q => s.remember v.crew.ctx v.crew.core q.addr.toNat) s
        let rows : List TileRow := accs.map fun q => ⟨q, BitVec.allOnes 32⟩
        .done (s1.engage v d.toNat (if store then .cst rows else .cld dom (kind == 1) rows []) Exc.none 0)
      else
        match errs.find? fun e => e.1 == c with
        | some e => .fault s { cause := c, lanes := v.act, addr := e.2.1, granule := e.2.2, read := !store, write := store }
        | none => .fault s (v.cause causeData)

/-- `cld cD, [bN, sA]` (R309). -/
def execCld (d a : BitVec 7) (b : BitVec 4) (s : State) : Host.Outcome State Fault Refusal := tileWord false d a b s
/-- `cst [bN, sA], cD` (R309). -/
def execCst (d a : BitVec 7) (b : BitVec 4) (s : State) : Host.Outcome State Fault Refusal := tileWord true d a b s

/-- The rows of a load or a store of a tile. -/
def MatKind.rows : MatKind → List TileRow
  | .cld _ _ rows _ | .cst rows => rows
  | _ => []

/-- An operation of the engine as a request, for what requests have in common. -/
def MatOp.asOp (m : MatOp) : Op :=
  ⟨m.id, .store none Exc.none (m.kind.rows.map (·.acc)), m.src, true, true, m.id, m.id⟩

/-- The element that a load or a store of a tile moves next, of those left in no fixed order (R310): row and column. -/
def State.nextElem (s : State) (rows : List TileRow) : Option (Nat × Nat) :=
  (pickOf (2 * s.freeCtr) ((rows.mapIdx fun i r => (i, r)).filter fun e => e.2.left != 0)).bind fun e =>
    (pickOf (2 * s.freeCtr + 1) (laneList e.2.left)).map fun n => (e.1, n)

/-- The rows without one element. -/
def leftRows (rows : List TileRow) (i n : Nat) : List TileRow :=
  rows.mapIdx fun j r => if j = i then { r with left := r.left &&& ~~~maskOf (· == n) } else r

/-- An element of a row that `cld` reads, or none for uncorrectable data; one of scratchpad through the operand stage (R213). -/
def State.readElem (s : State) (c : Crew) (x : Access) (n : Nat) : Option Word × State :=
  let word := fun (bs : List (BitVec 8)) => some (BitVec.ofNat 32 (leNat bs))
  match x.place with
  | .pa a => (if s.uncorrectable (a + 4 * n) 4 then none else word (s.bytes (a + 4 * n) 4), s)
  | .map a =>
    match s.mapTarget c false a.toNat with
    | .chip (.spad k off) =>
      let key := 4096 * k + off / 128
      match (Tab.lookup key (s.core c.core).stage).filter fun _ => Config.stageKeeps s.freeCtr with
      | some bs => (word ((bs.drop (4 * n)).take 4), s)
      | none =>
        if s.chipBad 128 (.spad k off) then (none, s)
        else
          let bs := s.chipRead 0 128 (.spad k off)
          (word ((bs.drop (4 * n)).take 4), s.mapCore c.core fun q => { q with stage := Tab.put key bs q.stage })
    | _ => (word [], s)
  | .fab _ => (word [], s)

/-! ## The engine at work (R213, R284, R285, R291) -/

/-- Is an operation held up by something other than its tile: arming (R277), a set that is not formed (R292), storage
that stalls (R35, R206), a write token (R205), a fence of another fragment (R209, R210)? -/
def State.blocked (s : State) (c : Crew) (m : MatOp) : Bool :=
  let arming := fun (d : DWord) => (rangeOf d).macros.any c.arming.contains
  let stall := fun (rows : List TileRow) =>
    let left := (rows.filter fun r => r.left != 0).map (·.acc)
    (pas left).any s.leased || left.any fun x => match x.place with
      | .map a => s.mapTarget c false a.toNat == .stall
      | _ => false
  let fence := fun (load : Bool) => s.fencedAt m.src.warp m.id load 0x08
  match m.kind with
  | .mma d _ _ _ _ _ => arming d || fence false
  | .mmaq d _ _ _ set agree => set.isEmpty || (agree && arming d) || fence false
  | .cld _ _ rows _ => stall rows || fence true
  | .cst rows => stall rows || !s.tokensHeld m.asOp || fence false
  | _ => fence false

/-- The operation that a quadrant performs next: the first that is first on its tile and not held up. -/
def State.nextPass (s : State) (c : Crew) (quad : Nat) : Option MatOp :=
  let l := c.engine.filter fun m => m.quad == quad && !m.done
  l.find? fun m => ((l.find? fun x => x.tile == m.tile).map (·.id)) == some m.id && !s.blocked c m

/-- Put an operation back into the engine. -/
def State.putMat (s : State) (k : Nat) (m : MatOp) : State :=
  s.mapCrew k fun c => { c with engine := c.engine.map fun x => if x.id == m.id then m else x }

/-- The record of a tile that has come to hold uncorrectable data (R295, R309). -/
def State.tileRecord (s : State) (c : Crew) (m : MatOp) : State :=
  let id := ((Tab.lookup m.src.warp s.warps).map (·.id)).getD 0
  s.postFault c.ctx { cause := causeData, noRegion := true, warp := id, recCount := m.src.recCount, row := c.row, col := c.col,
                      info := field 0 m.tile ||| field 3 m.quad, time := s.time }

/-- The governor of a quadrant, changed. -/
def Governor.reset : Governor := ⟨0, 0, 0, 0, 1800⟩
def State.mapGov (s : State) (core quad : Nat) (g : Governor → Governor) : State :=
  s.mapCore core fun c => { c with gov := Tab.put quad (g (Tab.get Governor.reset c.gov quad)) c.gov }

/-- The work of a pass on a tile, with the flags that it raises (R154, R278). -/
def State.performSum (s : State) (k : Nat) (c : Crew) (m : MatOp) (d : DWord) (rb : Nat) (parts : List (Nat × TileCopy))
    (gate : Nat) (thr : Word) (skip : Bool) (level : Nat) : State :=
  let r := rangeOf d
  let a := c.tile m.quad m.tile
  let q := c.work r rb parts gate thr skip a
  let t := (AccTag.mk a.level a.int a.empty a.bad).sum level r.int
  let s1 := s.mapCrew k fun c => c.setTile m.quad m.tile ⟨q.1, t.level, t.int, t.empty, a.bad⟩
  let s2 := (s1.mapWarp m.src.warp fun w => w.raiseExc (m.exc.add q.2.1).once).mapGov c.core m.quad fun g =>
    { g with passes := g.passes + 1 }
  s2.putMat k { m with done := true, exc := Exc.none, planes := q.2.2 }

/-- The causes that the rows of a `cst` meet at their storage now (R194, R217). -/
def State.cstFaults (s : State) (c : Crew) (rows : List TileRow) : List LaneFault :=
  rows.filterMap fun r => match r.acc.place with
    | .map p => match s.mapTarget c false p.toNat with
      | .bad q => some ⟨0, q, r.acc.addr, 0, none⟩
      | .chip ch => if s.chipArmed 128 ch then some ⟨0, causeArmed, r.acc.addr, 0, none⟩ else none
      | .stall => none
    | _ => none

/-- One element of a tile that `cst` writes (R310), and with it the end of the region in which the word issued (R58). -/
def State.writeElem (s : State) (c : Crew) (m : MatOp) (x : Access) (n : Nat) (y : Word) : State :=
  let bs := leBytes y.toNat 4
  let s1 := s.mapWarp m.src.warp fun w => { w with frags := w.frags.map fun f =>
    if f.mask &&& m.src.slices != 0 && f.region == m.src.region then f.endRegion else f }
  match x.place with
  | .map p =>
    match s1.mapTarget c false p.toNat with
    | .chip ch => s1.chipWrite 0 0 bs (ch.further (4 * n))
    | _ => s1
  | .pa a => s1.performWrite m.asOp { x with addr := x.addr + BitVec.ofNat 64 (4 * n), place := .pa (a + 4 * n), size := 4, data := bs }
  | .fab _ => s1

/-- A `cld` moves one element; the last of them makes the tile.  Uncorrectable data mark it (R309). -/
def State.performCld (s : State) (k : Nat) (c : Crew) (m : MatOp) (level : Nat) (int : Bool) (rows : List TileRow)
    (got : List (Nat × Word)) : State :=
  let a := c.tile m.quad m.tile
  let fin := { m with done := true, exc := Exc.none }
  match s.nextElem rows with
  | none =>
    let words := (List.range 2048).map fun i => ((got.find? fun e => e.1 == i).map (·.2)).getD 0
    (s.mapCrew k fun c => c.setTile m.quad m.tile ⟨words, level, int, false, false⟩).putMat k fin
  | some (i, n) =>
    match s.readElem c ((rows.map (·.acc)).getD i ⟨0, 0, .fab 0, 0, [], none⟩) n with
    | (none, t) => ((t.tileRecord c m).mapCrew k fun c => c.setTile m.quad m.tile ⟨a.words, level, int, false, true⟩).putMat k fin
    | (some x, t) => t.putMat k { m with kind := .cld level int (leftRows rows i n) ((32 * i + n, x) :: got) }

/-- A `cst` moves one element; an empty tile stores +0.0 (R309, R310).  A cause at any row left ends it. -/
def State.performCst (s : State) (k : Nat) (c : Crew) (m : MatOp) (rows : List TileRow) (a : Acc) : State :=
  let fin := { m with done := true, exc := Exc.none }
  let bad := s.cstFaults c (rows.filter fun r => r.left != 0)
  if !bad.isEmpty then
    let x := mergeFaults bad false true
    (s.lateFault m.asOp (laneFault x.cause m.src.lanes x.addr.toNat)).putMat k fin
  else
    match s.nextElem rows with
    | none => s.putMat k fin
    | some (i, n) =>
      let x := (rows.map (·.acc)).getD i ⟨0, 0, .fab 0, 0, [], none⟩
      (s.writeElem c m x n (if a.empty then 0 else a.elem i n)).putMat k { m with kind := .cst (leftRows rows i n) }

/-- Does a pass read armed bytes with an uncorrectable error (R71)? -/
def State.operandBad (s : State) (k : Nat) (d : DWord) (rb : Nat) (kbs : List Nat) : Bool :=
  ((rangeOf d).operand rb kbs).any fun x => s.chipBad x.2 (.spad k x.1)

/-- Perform an operation of the engine on its tile. -/
def State.performMat (s : State) (k : Nat) (c : Crew) (m : MatOp) : State :=
  let a := c.tile m.quad m.tile
  let fin := { m with done := true, exc := Exc.none }
  let lost := fun (s : State) => (s.lateFault m.asOp (laneFault causeData m.src.lanes 0)).putMat k { fin with haar := 0 }
  match m.kind with
  | .czero => (s.mapCrew k fun c => c.setTile m.quad m.tile Acc.start).putMat k fin
  | .mma d rb kb b gate thr =>
    if a.bad || s.operandBad k d rb [kb] then lost s
    else s.performSum k c m d rb [(kb, b)] gate thr true (if gate = 0 then b.tag.level else 0)
  | .mmaq d rb kb b set agree =>
    if !agree then s.putMat k { m with done := true, exc := Exc.NV }
    else if a.bad || s.operandBad k d rb ((List.range 4).map fun i => kb + i) then lost s
    else s.performSum k c m d rb (set.mapIdx fun q t => (kb + q, t)) 0 0 false b.tag.level
  | .drain op p dr =>
    if a.bad then (s.dropOp op).lateFault { m.asOp with id := op } (laneFault causeData m.src.lanes 0) |>.putMat k fin
    else (s.performDrain m a op p dr).putMat k fin
  | .cld level int rows got => s.performCld k c m level int rows got
  | .cst rows => if a.bad then lost s else s.performCst k c m rows a

/-- Is a crew in place for its engine to work? -/
def Crew.working (c : Crew) : Bool := c.state != .evicted

/-- Ask for the write tokens that a `cst` first on its tile waits for (R205, R309). -/
def State.askForRows (s : State) (c : Crew) (quad : Nat) : State :=
  let l := c.engine.filter fun m => m.quad == quad && !m.done
  l.foldl (fun s m => match m.kind with
    | .cst _ =>
      if ((l.find? fun x => x.tile == m.tile).map (·.id)) == some m.id && !s.tokensHeld m.asOp then s.askTokens m.asOp else s
    | _ => s) s

/-- Passes of a governor's window (R296). -/
def windowPasses : Nat := 2 ^ 20

/-- Has a governor's window been counted, so that its end comes before the next pass? -/
def State.windowOver (s : State) (core quad : Nat) : Bool :=
  decide (windowPasses ≤ (Tab.get Governor.reset (s.core core).gov quad).passes)

/-- MATRIX_PASS: a quadrant performs its next operation, or one element of it (R278 to R285, R291, R310). -/
def execMatrixPass (crew quad : Nat) (s : State) : Host.Outcome State Fault Refusal :=
  .next (match Tab.lookup crew s.crews with
    | none => s
    | some c =>
      if !c.working || s.windowOver c.core quad then s
      else
        match s.nextPass c quad with
        | some m => s.performMat crew c m
        | none => s.askForRows c quad)

/-- The member of the next set that a quadrant has: its oldest that belongs to none (R291). -/
def Crew.member (c : Crew) (quad : Nat) : Option (MatOp × TileCopy) :=
  c.engine.findSome? fun m =>
    match m.kind with
    | .mmaq _ _ _ b [] _ => if m.quad == quad && !m.done then some (m, b) else none
    | _ => none

/-- MMA_Q_SET_FORM: the four members of the next set have issued (R291, R292). -/
def execMmaQSetForm (crew : Nat) (s : State) : Host.Outcome State Fault Refusal :=
  .next (match Tab.lookup crew s.crews with
    | none => s
    | some c =>
      match c.member 0, c.member 1, c.member 2, c.member 3 with
      | some m0, some m1, some m2, some m3 =>
        if !c.working then s
        else
          let ms := [m0, m1, m2, m3]
          let tiles := ms.map (·.2)
          let agree := tiles.all fun t => t.tag.level == m0.2.tag.level
          ms.foldl (fun s m => match m.1.kind with
            | .mmaq d rb kb b _ _ => s.putMat crew { m.1 with kind := .mmaq d rb kb b tiles agree }
            | _ => s) s
      | _, _, _, _ => s)

/-- PASS_REPLAY: the pass of a quadrant's next operation fails a check; the fourth failure in succession marks the tile
(R294, R295). -/
def execPassReplay (crew quad : Nat) (s : State) : Host.Outcome State Fault Refusal :=
  .next (match Tab.lookup crew s.crews with
    | none => s
    | some c =>
      match (if c.working then s.nextPass c quad else none) with
      | none => s
      | some m =>
        let pass := match m.kind with
          | .mma .. => true
          | .mmaq _ _ _ _ _ agree => agree
          | _ => false
        if !pass || (c.tile m.quad m.tile).bad || s.windowOver c.core quad then s
        else if m.fails < 3 then
          (s.putMat crew { m with fails := m.fails + 1 }).mapGov c.core quad fun g => { g with replays := g.replays + 1 }
        else
          ((((s.tileRecord c m).mapCrew crew fun c =>
            c.setTile m.quad m.tile { c.tile m.quad m.tile with bad := true }).putMat crew
              { m with done := true, exc := Exc.none, fails := 4, haar := 0 }).mapGov c.core quad fun g =>
                { g with passes := g.passes + 1 }).errorShot 1)

/-! ## Batches (R213, R281, R297) -/

/-- `mbatch sD` (R281). -/
def execMbatch (d : BitVec 7) (s : State) : Host.Outcome State Fault Refusal :=
  issueWord (fun _ => { writes := [.s d.toNat] }) (fun v s => onWarp v s fun w =>
    { w.setS d.toNat (w.batch.setWidth 64) with batch := w.batch + 1, closedBatches := w.closedBatches ++ [w.batch] }) s

/-- `waitb sA` (R281): holds until the batch and every earlier one have retired. -/
def execWaitb (a : BitVec 7) (s : State) : Host.Outcome State Fault Refusal :=
  issueWord (fun _ => { reads := [.s a.toNat] }) (fun v s =>
    let back := fun (b : Word) => (v.w.batch - b).toNat
    let k := back (loWord (v.w.sreg a.toNat))
    if k = 0 ∨ 2 ^ 31 < k then .fault s v.illegal
    else if v.w.closedBatches.any fun b => decide (k ≤ back b) then .hold s .held
    else .done s) s

/-- BATCH_RETIRE: the warp's oldest closed batch retires when every operation of it has been performed (R213, R279, R281,
R291, R294, R303); the words that a `cst` of it left dirty in the core go home (R200, R213). -/
def execBatchRetire (warp : Nat) (s : State) : Host.Outcome State Fault Refusal :=
  .next (match Tab.lookup warp s.warps with
    | none => s
    | some w =>
      match w.closedBatches, Tab.lookup w.crew s.crews with
      | b :: rest, some c =>
        let mine := fun (m : MatOp) => m.src.warp == warp && m.batch == b
        let ms := c.engine.filter mine
        if !(ms.all (·.done)) || !c.working then s
        else
          let haar := ms.foldl (fun n m => n + m.haar) 0
          let s1 := s.mapWarp warp fun w =>
            ms.foldl (fun w m => w.raiseExc m.exc)
              { w with closedBatches := rest, haarcnt := (List.range haar).foldl (fun x _ => countUp x) w.haarcnt }
          let stored := ms.flatMap fun m => match m.kind with
            | .cst rows => (pas (rows.map (·.acc))).flatMap fun a => [a / 64, a / 64 + 1]
            | _ => []
          let s2 := (s1.writeBack c.core fun pa => stored.contains (pa / 64)).mapCrew w.crew fun c =>
            { c with engine := c.engine.filter fun m => !mine m }
          s2.mapCore c.core fun q =>
            { q with gatecnt := q.gatecnt + BitVec.ofNat 64 (ms.foldl (fun n m => n + m.planes) 0)
                     replaycnt := q.replaycnt + BitVec.ofNat 64 (ms.foldl (fun n m => n + Nat.min m.fails 3) 0) }
      | _, _ => s)

/-! ## The governor (R296) -/

/-- What the end of a window does.  The clock is the governor's own, or the ceiling when that is lower, and from there a step goes
up or down (R296, R381); only at 1,800 MHz does the supply fall. -/
def Governor.windowEnd (ceiling : Nat) (g : Governor) : Governor :=
  let g0 := { g with passes := 0, replays := 0 }
  let clock := Nat.min g.clock ceiling
  if 104 < g.replays then
    if g.supply < Config.supplySteps then { g0 with quiet := 0, supply := g.supply + 1 }
    else { g0 with quiet := 0, clock := clock - 25 }
  else if g.replays < 10 then
    if g.quiet + 1 < 16 then { g0 with quiet := g.quiet + 1 }
    else if clock < ceiling then { g0 with quiet := 0, clock := Nat.min ceiling (clock + 25) }
    else if clock = 1800 then { g0 with quiet := 0, supply := g.supply - 1 }
    else { g0 with quiet := 0 }
  else { g0 with quiet := 0 }

/-- GOVERNOR_WINDOW_END: 2^20 passes have been counted, and no pass is performed before the window ends (R296).  Its counts are kept
for the next telemetry record (R380). -/
def execGovernorWindowEnd (core quad : Nat) (s : State) : Host.Outcome State Fault Refusal :=
  .next (if s.windowOver core quad then
      let g := Tab.get Governor.reset (s.core core).gov quad
      let s1 := s.mapGov core quad (Governor.windowEnd s.plant.ceiling)
      { s1 with plant := { s1.plant with windows := s1.plant.windows ++ [⟨core, quad, g.replays, g.passes⟩] } }
    else s)

/-- TIMING_CALIBRATION: the safe timing is set anew in an idle slot; no state that a program or telemetry sees changes
(R296). -/
def execTimingCalibration (core quad : Nat) (s : State) : Host.Outcome State Fault Refusal :=
  .next (s.mapGov core quad id)

/-! ## The wavelet words (R282, R311 to R313) -/

/-- The types that the explicit transforms take. -/
def waveType (ty : Nat) : Bool := decide (8 ≤ ty ∧ ty ≤ 12)

/-- The writes of a whole tile, with its tags. -/
def tileWrites (t ty : Nat) (tag : Tag) (f : Nat → Nat → Nat) : List RegWrite :=
  let lanes := (List.range 32).map fun n => packTile ty ((List.range (tileCount ty)).map (f n))
  ((List.range 8).map fun i => .v (8 * t + i) (BitVec.allOnes 32) (Lanes.ofFn fun n => (lanes.getD n []).getD i 0)) ++
    [.tag t tag]

/-- `wfwd tD, tA, L` (R312). -/
def execWfwd (d a l : BitVec 7) (s : State) : Host.Outcome State Fault Refusal :=
  issueWord (fun v =>
    { reads := tileRegs a.toNat, writes := tileRegs d.toNat, long := true,
      ok := decide (d.toNat < 16 ∧ a.toNat < 16 ∧ 1 ≤ l.toNat ∧ l.toNat ≤ 5) && (v.w.tag a.toNat).level == 0 &&
        waveType (v.w.tag a.toNat).fmt && waveType v.type }) (fun v s =>
    let r := v.w.forwardTile a.toNat l.toNat
    let cols := fun (j : Nat) => (List.range 32).map fun f => coef r.1 j f
    let keep := survivors l.toNat (v.w.wt.getD v.w.wsel 0).toNat cols
    let out := (List.range 32).map fun j => (List.range (tileCount v.type)).map fun f =>
      if keep.getLsbD j then roundTo v.type (v.rnd j f) (readFloat 8 false (coef r.1 j f)) else (0, Exc.none)
    let exc := (r.2.add (Exc.sum (out.map fun l => Exc.sum (l.map (·.2))))).once
    let s1 := s.addOp v.src (.result (tileWrites d.toNat v.type ⟨v.type, l.toNat, keep⟩ fun n e =>
      ((out.getD n []).getD e (0, Exc.none)).1) exc) true false
    .done (if modeRnd v.f.mode = 5 then s1.mapWarp v.key fun w => w.advance (w.unexited 0xFF) else s1)) s

/-- `winv tD, tA` (R313). -/
def execWinv (d a : BitVec 7) (s : State) : Host.Outcome State Fault Refusal :=
  issueWord (fun v =>
    { reads := tileRegs a.toNat, writes := tileRegs d.toNat, long := true,
      ok := decide (d.toNat < 16 ∧ a.toNat < 16) && (v.w.tag a.toNat).level != 0 }) (fun v s =>
    let fmt := (v.w.tag a.toNat).fmt
    let r := v.w.reconstruct a.toNat
    .done (s.addOp v.src (.result (tileWrites d.toNat fmt ⟨fmt, 0, 0⟩ r.1) r.2) true false)) s

/-- `wthr n` (R311). -/
def execWthr (n : BitVec 7) (s : State) : Host.Outcome State Fault Refusal :=
  issueWord (fun _ => { ok := decide (n.toNat < 4) }) (fun v s => onWarp v s fun w => { w with wsel := n.toNat }) s

/-- The tags of a tile as `wtag` reads them. -/
def Tag.word (t : Tag) : DWord := BitVec.ofNat 64 (t.fmt + 2 ^ 4 * t.level + 2 ^ 32 * (if t.level = 0 then 0 else t.survival.toNat))

/-- `wtag sD, tA` (R282). -/
def execWtag (d a : BitVec 7) (s : State) : Host.Outcome State Fault Refusal :=
  issueWord (fun _ => { reads := tileRegs a.toNat, writes := [.s d.toNat], ok := decide (a.toNat < 16) })
    (fun v s => onWarp v s fun w => w.setS d.toNat (w.tag a.toNat).word) s

end Sys2Proof.Machine
end

