-- ==== Sys2Proof/Machine/Collective.lean ====
section
/-! DEFINITION. Collectives: the words (R335), requests, grants and results of steps (R334, R336 to R341), changes of
membership (R342, R343), step timers and parked ranks (R345), and the group table (R321). -/

namespace Sys2Proof.Machine

/-! ## The word (R335, R336) -/

/-- GROUP, COUNT and BIDX of a descriptor. -/
def collGroup (x : DWord) : Nat := bitsOf x.toNat 0 12
def collCount (x : DWord) : Nat := bitsOf x.toNat 12 16
def collBar (x : DWord) : Nat := bitsOf x.toNat 32 32

/-- Does an operation accept a type? -/
def collTypeOk (op ty : Nat) : Bool :=
  match op with
  | 0 | 1 | 2 => decide (ty ≤ 10)
  | 3 | 4 => decide (7 ≤ ty ∧ ty ≤ 10)
  | _ => true

/-- The registers of a tile that hold its first `n` elements of a type, of any lane. -/
def elemRegs (ty t n : Nat) : List Reg := (tileRegs t).take ((n * elemWidth ty + 31) / 32)

/-- What a collective asks for at issue: of its tile it reads the registers of the elements that it counts (R336).  One that writes a tile writes registers, so it must be tied to a flag (R84). -/
def collShape (op : Nat) (d a : BitVec 7) (b : BitVec 4) (s : State) (v : View) : Shape :=
  let x := v.w.sreg a.toNat
  let y := v.w.sreg (a.toNat + 1)
  let counts := op == 3 || op == 4
  let n := collCount x
  { reads := [.s a.toNat, .s (a.toNat + 1), .b b.toNat] ++ elemRegs v.type d.toNat n,
    also := tileRegs d.toNat ++ (if counts then tileRegs (d.toNat + 1) else []),
    long := true,
    ok := decide (d.toNat ≤ 15) && a.toNat % 2 == 0 && decide (a.toNat ≤ 62) && (op == 5 || v.c.flag != 15) &&
      bitsOf x.toNat 28 4 == 0 && bitsOf y.toNat 57 7 == 0 && collTypeOk op v.type &&
      (if op = 5 then n == 0 else decide (1 ≤ n ∧ n ≤ 32 * tileCount v.type)) &&
      (op == 5 || bitsOf y.toNat 0 57 == 0) && !(counts && d.toNat == 15) && collGroup x != 0 &&
      ((Tab.lookup v.crew.launch s.launches).map Launch.fgroup) == some (collGroup x) }

/-- The root of a group (R340). -/
def State.root (s : State) (g : Nat) : CollRoot := Tab.get ⟨0, [], []⟩ s.fabric.roots g

/-- Change the root of a group. -/
def State.mapRoot (s : State) (g : Nat) (f : CollRoot → CollRoot) : State :=
  s.mapFabric fun x => { x with roots := Tab.put g (f (Tab.get ⟨0, [], []⟩ x.roots g)) x.roots }

/-- The virtual rank of a context at this module. -/
def State.rankOf (s : State) (ctx : Nat) : Nat := ((Tab.lookup ctx s.ctxs).map (·.rank)).getD 0

/-- The next step of a warp in a group: a participant starts at the step at which its rank joined (R334). -/
def State.nextStep (s : State) (c : Crew) (warp group : Nat) : Nat :=
  Tab.get (Tab.get 0 (s.root group).joined (s.rankOf c.ctx)) c.steps (64 * group + warp)

/-- `coll.op tD, sA, bN` (R335, R336). -/
def collWord (op : Nat) (d a : BitVec 7) (b : BitVec 4) (s : State) : Host.Outcome State Fault Refusal :=
  issueWord (collShape op d a b s) (fun v s =>
    let x := v.w.sreg a.toNat
    let buf := bufOf (v.w.breg b.toNat)
    if v.full 2 then .hold s .held
    else
      match v.uniformReach s buf 16 true true .plain (collBar x) with
      | .error e => .fault s e
      | .ok r =>
        match r.place with
        | none => .fault s v.illegal
        | some p =>
          let e := tileCount v.type
          let step := s.nextStep v.crew v.w.id (collGroup x)
          let c : Collective :=
            { desc := x, object := v.w.sreg (a.toNat + 1), operation := op, type := v.type, step := step,
              data := (List.range (collCount x)).map fun i =>
                BitVec.ofNat 64 (v.w.tileElem v.type d.toNat (i / e) (i % e)),
              tile := d.toNat, bar := ⟨0, BitVec.ofNat 64 r.addr, p, 16, [], none⟩, skip := modeNskip v.f.mode,
              requested := false }
          let s1 := (s.rememberAll v.crew [(0, r)]).pendEngine v
            (tileRegs d.toNat ++ (if op = 3 ∨ op = 4 then tileRegs (d.toNat + 1) else []))
          let s2 := (s1.addEngine v 2 (.coll c)).mapCrew v.w.crew fun k =>
            { k with steps := Tab.put (64 * collGroup x + v.w.id) (step + 1) k.steps }
          .done (s2.endRegion v)) s

/-- `coll.sum` (R335). -/
def execCollSum (d a : BitVec 7) (b : BitVec 4) (s : State) : Host.Outcome State Fault Refusal := collWord 0 d a b s
/-- `coll.min` (R335). -/
def execCollMin (d a : BitVec 7) (b : BitVec 4) (s : State) : Host.Outcome State Fault Refusal := collWord 1 d a b s
/-- `coll.max` (R335). -/
def execCollMax (d a : BitVec 7) (b : BitVec 4) (s : State) : Host.Outcome State Fault Refusal := collWord 2 d a b s
/-- `coll.nse` (R335, R338). -/
def execCollNse (d a : BitVec 7) (b : BitVec 4) (s : State) : Host.Outcome State Fault Refusal := collWord 3 d a b s
/-- `coll.nsb` (R335, R338). -/
def execCollNsb (d a : BitVec 7) (b : BitVec 4) (s : State) : Host.Outcome State Fault Refusal := collWord 4 d a b s
/-- `coll.skm` (R335, R339). -/
def execCollSkm (d a : BitVec 7) (b : BitVec 4) (s : State) : Host.Outcome State Fault Refusal := collWord 5 d a b s

/-! ## Retirement and arrival (R336, R341, R343) -/

/-- The collectives of a crew for a step of a group that have not retired, by warp, with its WARPID. -/
def State.crewColls (s : State) (crew group step : Nat) : List (Nat × Op × Collective) :=
  s.ops.filterMap fun o =>
    match o.kind, Tab.lookup o.src.warp s.warps with
    | .coll c, some w => if w.crew == crew && collGroup c.desc == group && c.step == step then some (w.id, o, c) else none
    | _, _ => none

/-- The physical address of a barrier object that the cage arrives at, when it stands in this module. -/
def State.barAt (s : State) (o : Op) (a : Access) : Option Nat :=
  match a.place with
  | .pa pa => some pa
  | .fab x =>
    if s.remote o.src.ctx o.id x then none
    else match s.fabAt o.src.ctx o.id x 0 16 true true with
      | .ok (_, y) => some y.pa
      | .error _ => none
  | .map _ => none

/-- One arrival of value 1 at a crew's barrier object (R236, R336); an object whose TAG fails is left as it is. -/
def State.cageArrive (s : State) (o : Op) (a : Access) : State :=
  match s.barAt o a with
  | none => s
  | some pa =>
    let old := abarOf (s.bytes pa 16)
    if old.tag = abarTag then s.outsideWrite o.src.warp pa (old.arrive 1).bytes (agentOf o.id) else s

/-- May the cage arrive now? -/
def State.cageFree (s : State) (o : Op) (a : Access) : Bool :=
  match s.barAt o a with
  | none => true
  | some pa => s.outsideFree pa (agentOf o.id)

/-- Ask for what the cage's arrival needs. -/
def State.cageAsk (s : State) (o : Op) (a : Access) : State :=
  match s.barAt o a with
  | none => s
  | some pa => s.outsideAsk pa (agentOf o.id)

/-- Are the collectives of a crew the oldest of their class in their warps, as retirement needs (R212), and does no fence hold
them back (R209)? -/
def State.collsTurn (s : State) (l : List (Nat × Op × Collective)) : Bool := l.all fun e => s.oldest e.2.1 && !s.fenced e.2.1

/-- Every warp of a crew retires a step, each with its own effect, and the crew arrives once (R336). -/
def State.retireColls (s : State) (l : List (Nat × Op × Collective)) (effect : State → Nat × Op × Collective → State) : State :=
  let s1 := l.foldl (fun s e => (effect s e).retire e.2.1) s
  match l with
  | [] => s1
  | e :: _ => s1.cageArrive e.2.1 e.2.2.bar

/-- The record of a step without a result: 1 MISMATCH, 2 REMOVED (R341, R343). -/
def State.collRecord (s : State) (why : Nat) (e : Nat × Op × Collective) : State :=
  s.postFault e.2.1.src.ctx (s.engineRecord e.2.1 causeCollective 4 0 0
    (field 28 why ||| BitVec.ofNat 32 (e.2.2.step % 2 ^ 28)))

/-! ## Requests (R334, R340) -/

/-- The warps of a crew, by key. -/
def State.warpsOf (s : State) (crew : Nat) : List (Nat × Warp) := s.warps.filter fun e => e.2.crew == crew

/-- Has every warp of a crew issued a step or exited, and is none of them evicted (R334)? -/
def State.crewIssued (s : State) (crew : Nat) (l : List (Nat × Op × Collective)) : Bool :=
  ((Tab.lookup crew s.crews).map fun c => c.state != .evicted).getD false && (s.warpsOf crew).all fun e => !e.2.evicted &&
    (e.2.retired || e.2.slices.all Slice.finished || l.any fun x => x.1 == e.2.id)

/-- The object at a participant's OBJ: its page and itself (R339). -/
def State.collObject (s : State) (ctx : Nat) (obj : DWord) : Option (Page × Sketch) :=
  match s.walkCtx ctx obj.toNat with
  | none => none
  | some x =>
    if isMap obj.toNat || x.leaf.pageType != some .sketch || !x.leaf.leafOk x.log || !x.leaf.rd || !x.leaf.wr ||
        !s.keyOk ctx x.leaf.key then none
    else
      let p : Page := ⟨.sketch, x.pa - x.pa % 2 ^ x.log, x.log, x.leaf.w1⟩
      some (p, s.sketchAt p x.pa obj)

/-- The signature field of a crew whose warps issued one step with different descriptors: it agrees with no operation
(R341). -/
def collDisagree : Nat := 16

/-- The request of a crew of this module (R334, R341). -/
def State.localRequest (s : State) (c : Crew) (group step : Nat) (l : List (Nat × Op × Collective)) : Option CollRequest :=
  match l, Tab.lookup c.launch s.launches with
  | (_, o, x) :: _, some la =>
    let same := l.all fun e => e.2.2.desc == x.desc && e.2.2.object == x.object && e.2.2.operation == x.operation &&
      e.2.2.type == x.type
    let obj := if x.operation ≠ 5 then []
      else match s.collObject o.src.ctx x.object with
        | none => []
        | some (_, y) => (y.osz :: y.d ++ s.cells y).map (BitVec.ofNat 64)
    let of := fun (k : Nat) => l.find? fun e => e.1 == k
    some { rank := s.rankOf c.ctx, crewRow := c.row, crewCol := c.col,
           operation := if same then x.operation else collDisagree, type := x.type, count := collCount x.desc,
           warps := la.warps, gen := (s.group group).gen, step := step,
           data := (List.range la.warps).map fun k => ((of k).map (·.2.2.data)).getD [],
           skip := (List.range la.warps).map fun k => ((of k).map (·.2.2.skip)).getD false, object := obj }
  | _, _ => none

/-- Do two requests come from one participant? -/
def sameParticipant (x y : CollRequest) : Bool := x.rank == y.rank && x.crewRow == y.crewRow && x.crewCol == y.crewCol

/-- A request is entered for its step, in the place of an earlier one of the participant (R340). -/
def CollRoot.enter (root : CollRoot) (gen : Nat) (members : List Nat) (r : CollRequest) : CollRoot :=
  let add := fun (x : CollStep) => { x with requests := (x.requests.filter fun q => !sameParticipant q r) ++ [r] }
  if root.steps.any fun x => x.no == r.step then
    { root with steps := root.steps.map fun x => if x.no == r.step then add x else x }
  else { root with steps := root.steps ++ [⟨r.step, .opened, gen, members, [r]⟩] }

/-- Mark the collectives of a list. -/
def State.markColls (s : State) (requested : Bool) (p : Op → Collective → Bool) : State :=
  { s with ops := s.ops.map fun o =>
      match o.kind with
      | .coll c => if p o c then { o with kind := .coll { c with requested := requested } } else o
      | _ => o }

/-- Is a rank of a context parked? -/
def State.isParked (s : State) (ctx rank : Nat) : Bool := s.fabric.parked.contains (ctx, rank)

/-- Is a rank a member of a group of a context? -/
def State.isMember (s : State) (ctx group rank : Nat) : Bool :=
  let g := s.group group
  g.valid && g.ctx == ctx && (groupMembers g).contains rank

/-- The crew of this module that a request names: the participant has collectives of the step that have not gone to the
root. -/
def State.asker (s : State) (group : Nat) (r : CollRequest) : Option (Nat × Crew) :=
  s.crews.find? fun e => e.2.row == r.crewRow && e.2.col == r.crewCol && s.rankOf e.2.ctx == r.rank &&
    (s.crewColls e.1 group r.step).any fun x => !x.2.2.requested

/-- COLL_REQUEST_AT_ROOT: a participant's request for a step reaches the root (R334, R340).  A participant of this module
asks when every warp of its crew has issued the step or exited and none is evicted, the die has a cage drift and the rank
is not parked; outside the membership its step retires REMOVED (R343).  A request under an older generation is sent again
(R341). -/
def execCollRequestAtRoot (group : Nat) (r : CollRequest) (s : State) : Host.Outcome State Fault Refusal :=
  .next (
    let g := s.group group
    let root := s.root group
    match s.asker group r with
    | some (k, c) =>
      let l := s.crewColls k group r.step
      if !s.crewIssued k l || (l.any fun e => s.fenced e.2.1) || s.cage.getD (dieOf c.core) 0 == 0 || s.isParked c.ctx r.rank then s
      else if !s.isMember c.ctx group r.rank || r.step < root.next || r.step < Tab.get 0 root.joined r.rank then
        match l with
        | [] => s
        | e :: _ =>
          if !s.collsTurn l then s
          else if s.cageFree e.2.1 e.2.2.bar then s.retireColls l fun s e => s.collRecord 2 e else s.cageAsk e.2.1 e.2.2.bar
      else
        match s.localRequest c group r.step l with
        | none => s
        | some q =>
          (s.mapRoot group fun x => x.enter g.gen (groupMembers g) q).markColls true fun o _ => l.any fun e => e.2.1.id == o.id
    | none =>
      if r.rank == s.rankOf g.ctx || !s.isMember g.ctx group r.rank || r.gen != g.gen || r.step < root.next ||
          s.isParked g.ctx r.rank then s
      else s.mapRoot group fun x => x.enter g.gen (groupMembers g) r)

/-! ## Grants (R340, R341) -/

/-- The participants of this module: rows and columns of the crews of the launch of the context that names the group, the
crews that have exited aside (R333). -/
def State.participants (s : State) (ctx group : Nat) : List (Nat × Nat) :=
  s.launches.flatMap fun e =>
    if e.2.ctx != ctx || e.2.fgroup != group || e.2.ended || e.2.dispatched.isNone then []
    else (List.range e.2.groups).flatMap fun i => (List.range e.2.crews).filterMap fun j =>
      let row := (e.2.row0 + i) % 65536
      if s.crews.any fun c => c.2.launch == e.1 && c.2.row == row && c.2.col == j && c.2.state == .exited then none
      else some (row, j)

/-- Has a member requested a step: every participant of this module, and a participant of another (R340)? -/
def State.hasAsked (s : State) (ctx group rank : Nat) (x : CollStep) : Bool :=
  (x.requests.any fun q => q.rank == rank) &&
    (rank != s.rankOf ctx || (s.participants ctx group).all fun p =>
      x.requests.any fun q => q.rank == rank && q.crewRow == p.1 && q.crewCol == p.2)

/-- The order of participants: rank, then CREWROW, then CREWCOL (R333). -/
def participantKey (r : CollRequest) : Nat := (r.rank * 65536 + r.crewRow) * 65536 + r.crewCol

/-- Insert a request in the order of participants. -/
def insertRequest (r : CollRequest) : List CollRequest → List CollRequest
  | [] => [r]
  | x :: xs => if participantKey r < participantKey x then r :: x :: xs else x :: insertRequest r xs

/-- The requests of a step in the order of participants. -/
def CollStep.ordered (x : CollStep) : List CollRequest := x.requests.foldl (fun l r => insertRequest r l) []

/-- The object of a request for `coll.skm`, as a sketch without a place. -/
def requestObject (r : CollRequest) : Sketch :=
  ⟨0, 0, (r.object.getD 0 0).toNat, ((r.object.drop 1).take 8).map (·.toNat), (r.object.drop 9).map (·.toNat)⟩

/-- Do the signatures of a step agree, and for a merge the objects' headers (R339, R341)? -/
def collAgree (l : List CollRequest) : Bool :=
  match l with
  | [] => false
  | r :: rs =>
    r.operation != collDisagree &&
      (rs.all fun q => q.operation == r.operation && q.type == r.type && q.count == r.count && q.warps == r.warps) &&
      (r.operation != 5 || l.all fun q => (requestObject q).held != 0 && (requestObject r).sameAs (requestObject q))

/-- COLL_STEP_GRANT: the lowest step not yet granted has every member's request: its generation and participants are
fixed, or it fails because signatures disagree (R340, R341). -/
def execCollStepGrant (group : Nat) (s : State) : Host.Outcome State Fault Refusal :=
  .next (
    let g := s.group group
    let root := s.root group
    match root.steps.find? fun x => x.no == root.next with
    | none => s
    | some x =>
      let members := groupMembers g
      if !g.valid || x.state != .opened || members.isEmpty || !(members.all fun m => s.hasAsked g.ctx group m x) then s
      else
        let x1 : CollStep := { x with state := if collAgree x.requests then .moving else .failed, gen := g.gen,
                                      members := members }
        s.mapRoot group fun r =>
          { r with next := r.next + 1, steps := r.steps.map fun y => if y.no == x.no then x1 else y })

/-! ## Results (R336 to R339) -/

/-- A node over two elements (R337). -/
def collNode (op ty x y : Nat) : Nat × Exc :=
  if isFloat ty then
    if op = 1 ∨ op = 2 then
      let a := readFloat ty false x
      let b := readFloat ty false y
      if a.isNan || b.isNan then (defaultNan ty, Exc.nvIf (a.isSig || b.isSig)) else fnPick (op == 1) ty Rnd.rne a b
    else sumNode ty x y
  else
    let v := fun (z : Nat) => valueOf (elemWidth ty) (typeSigned ty) z
    if op = 1 then (if v y < v x then y else x, Exc.none)
    else if op = 2 then (if v x < v y then y else x, Exc.none)
    else ((x + y) % 2 ^ elemWidth ty, Exc.none)

/-- Does an element of a participant's warp take part: NaNs are skipped one by one, or with the lane's elements (R337,
R338)? -/
def collTakes (op ty count : Nat) (skip : Bool) (data : List (BitVec 64)) (i : Nat) : Bool :=
  let nan := fun (j : Nat) => isFloat ty && (readFloat ty false ((data.getD j 0).toNat)).isNan
  let e := tileCount ty
  match op with
  | 3 => !nan i
  | 4 => (List.range e).all fun k => decide (count ≤ i / e * e + k) || !nan (i / e * e + k)
  | _ => !(skip && nan i)

/-- A leaf of the tree: nothing when it is skipped or the warp has exited; among several participants a NaN is the default
one at every node above it (R337). -/
def collLeaf (l : List CollRequest) (w i : Nat) (r : CollRequest) : Option Nat × Exc :=
  let data := r.data.getD w []
  if data.length ≤ i || !collTakes r.operation r.type r.count (r.skip.getD w false) data i then (none, Exc.none)
  else
    let x := (data.getD i 0).toNat
    if !isFloat r.type then (some x, Exc.none)
    else
      let v := readFloat r.type false x
      (some (if v.isNan && 1 < l.length then defaultNan r.type else x), Exc.nvIf v.isSig)

/-- Element i of warp w combined over the participants of a step: the result, how many contribute, and the flags. -/
def collElem (l : List CollRequest) (op ty w i : Nat) : Option Nat × Nat × Exc :=
  let leaves := l.map (collLeaf l w i)
  let t := treeSum (fun _ => collNode op ty) (Nat.log2 l.length + 1) 0 (leaves.map (·.1)) Exc.none
  (t.1, (leaves.filter fun x => x.1.isSome).length, t.2.add (Exc.sum (leaves.map (·.2))))

/-- The flags of a step: each once (R337). -/
def collFlags (l : List CollRequest) : Exc :=
  match l with
  | [] => Exc.none
  | r :: _ => (Exc.sum ((List.range r.warps).flatMap fun w => (List.range r.count).map fun i =>
      (collElem l r.operation r.type w i).2.2)).once

/-- The result of an element: +0.0 for the NaN-skipping sums when none contributes; for the others the manual gives none
then, and the value is free. -/
def State.collValue (s : State) (l : List CollRequest) (op ty w i : Nat) : Nat :=
  match (collElem l op ty w i).1 with
  | some x => x
  | none => if op = 3 ∨ op = 4 then 0 else leNat (s.freeBytes (16384 * w + 8 * i) 8) % 2 ^ elemWidth ty

/-- A warp takes the result of a step (R336, R338). -/
def State.takeResult (s : State) (l : List CollRequest) (exc : Exc) (e : Nat × Op × Collective) : State :=
  let c := e.2.2
  let ty := c.type
  let n := collCount c.desc
  let per := tileCount ty
  let value := (List.range n).map fun i => s.collValue l c.operation ty e.1 i
  let count := (List.range n).map fun i => (collElem l c.operation ty e.1 i).2.1
  s.mapWarp e.2.1.src.warp fun w =>
    let tile := tileWrites c.tile ty ⟨ty, 0, 0⟩ fun lane k =>
      if lane * per + k < n then value.getD (lane * per + k) 0 else w.tileElem ty c.tile lane k
    let counts :=
      if c.operation = 3 then tileWrites (c.tile + 1) 4 ⟨4, 0, 0⟩ fun lane k =>
        if k < per ∧ lane * per + k < n then count.getD (lane * per + k) 0 else 0
      else if c.operation = 4 then tileWrites (c.tile + 1) 2 ⟨2, 0, 0⟩ fun lane k =>
        if k = 0 ∧ lane * per < n then count.getD (lane * per) 0 else 0
      else []
    ((tile ++ counts).foldl (fun w x => w.applyWrite ty x) w).raiseExc exc

/-- The cells of a merged object, and its N (R269, R339). -/
def mergedCells (l : List CollRequest) : List Nat × Nat :=
  match l with
  | [] => ([], 0)
  | r :: rs =>
    let x := requestObject r
    (rs.foldl (fun cs q => (cs.zip (requestObject q).body).map fun p => x.mergeCell p.1 p.2) x.body,
      Nat.min (l.foldl (fun n q => n + (requestObject q).n) 0) (2 ^ 64 - 1))

/-- The merged object replaces a participant's object as one event, with the reports made there (R269, R339). -/
def State.takeObject (s : State) (l : List CollRequest) (o : Op) (x : Sketch) : State :=
  let m := mergedCells l
  s.mergeCells o.src.warp o.src.ctx x m.2 (fun b => l.any fun q => ((requestObject q).h 1).testBit b) m.1

/-- The crews of this module that take part in a step, each with its collectives. -/
def State.takers (s : State) (group step : Nat) : List (List (Nat × Op × Collective)) :=
  (s.crews.map fun e => (s.crewColls e.1 group step).filter fun x => x.2.2.requested).filter fun l => !l.isEmpty

/-- The objects that a step replaces at this module. -/
def State.takenObjects (s : State) (ls : List (List (Nat × Op × Collective))) : List (Op × Sketch) :=
  ls.filterMap fun l =>
    match l with
    | (_, o, c) :: _ => if c.operation = 5 then (s.collObject o.src.ctx c.object).map fun x => (o, x.2) else none
    | [] => none

/-- Do lines of an object that a warp wrote still stand outside DRAM (R207, R336)? -/
def State.objectDirty (s : State) (o : Op) (x : Sketch) : Bool :=
  s.unflushed.any fun e => decide (x.pa / 256 ≤ e.1 ∧ e.1 ≤ (x.pa + 2 ^ x.osz - 1) / 256) && e.2.contains o.src.warp

/-- The step whose outcome the participants of this module may take: its collectives are the oldest of their warps. -/
def State.stepDue (s : State) (group : Nat) : Option CollStep :=
  (s.root group).steps.find? fun x => x.state != .opened && (s.takers group x.no).all s.collsTurn

/-- Change the state of a step at its root. -/
def State.stepTo (s : State) (group no : Nat) (t : StepState) : State :=
  s.mapRoot group fun r => { r with steps := r.steps.map fun y => if y.no == no then { y with state := t } else y }

/-- COLL_STEP_RESULT: a step that was granted or failed gives its outcome to every participant of this module (R336 to R339,
R341).  Merged objects replace the participants' objects first, and their lines go to DRAM, for the arrival carries a release
of the step's writes; then results are written, operations retire, and each crew arrives at its barrier object. -/
def execCollStepResult (group : Nat) (s : State) : Host.Outcome State Fault Refusal :=
  .next (
    match s.stepDue group with
    | none => s
    | some x =>
      let ls := s.takers group x.no
      let objs := s.takenObjects ls
      let heads := ls.filterMap (·.head?)
      let l := x.ordered
      if x.state == .moving && !objs.isEmpty then
        if !(objs.all fun e => s.outsideFree e.2.pa (agentOf e.1.id) && !s.midStep e.2.pa) then
          objs.foldl (fun s e => s.outsideAsk e.2.pa (agentOf e.1.id)) s
        else (objs.foldl (fun s e => s.takeObject l e.1 e.2) s).stepTo group x.no .merged
      else if x.state == .merged && objs.any fun e => s.objectDirty e.1 e.2 then s
      else if !(heads.all fun e => s.cageFree e.2.1 e.2.2.bar) then heads.foldl (fun s e => s.cageAsk e.2.1 e.2.2.bar) s
      else
        let exc := collFlags l
        let effect := fun (s : State) (e : Nat × Op × Collective) =>
          if x.state == .failed then s.collRecord 1 e
          else if e.2.2.operation = 5 then s
          else s.takeResult l exc e
        (ls.foldl (fun s l => s.retireColls l effect) s).mapRoot group fun r =>
          { r with steps := r.steps.filter fun y => y.no != x.no })

/-! ## Step timers and parked ranks (R345) -/

/-- STEP_TIMER_EXPIRY: the root reports the ranks that have not requested the open step; a parked one suspends the timer. -/
def execStepTimerExpiry (group : Nat) (s : State) : Host.Outcome State Fault Refusal :=
  .next (
    let g := s.group group
    match (s.root group).steps.find? fun x => x.no == (s.root group).next with
    | none => s
    | some x =>
      let late := (groupMembers g).filter fun m => !s.hasAsked g.ctx group m x
      if x.state != .opened || late.isEmpty || (late.any fun m => s.isParked g.ctx m) then s
      else s.mapFabric fun f => { f with reports := f.reports ++ [(group, x.no, late)] })

/-- Drop the requests of a rank of a context for steps that are open; the cage will ask again. -/
def State.dropRequests (s : State) (ctx rank : Nat) (p : Nat → Bool) : State :=
  let open' := fun (group : Nat) (step : Nat) => (s.root group).steps.any fun x => x.no == step && x.state == .opened
  let s1 := s.markColls false fun o c =>
    o.src.ctx == ctx && s.rankOf ctx == rank && p (collGroup c.desc) && open' (collGroup c.desc) c.step
  s1.mapFabric fun f => { f with roots := Tab.mapVals (fun k (r : CollRoot) =>
    if !p k || (s.group k).ctx != ctx then r
    else { r with steps := (r.steps.map fun x =>
      if x.state != .opened then x else { x with requests := x.requests.filter fun q => q.rank != rank }).filter fun x =>
        x.state != .opened || !x.requests.isEmpty }) f.roots }

/-- The park message of a rank of a context (R345). -/
def State.parkRank (s : State) (ctx rank : Nat) : State :=
  if s.isParked ctx rank then s
  else (s.dropRequests ctx rank fun _ => true).mapFabric fun f => { f with parked := f.parked ++ [(ctx, rank)] }

/-- Has a context a warp on a core of this module? -/
def State.onChip (s : State) (ctx : Nat) : Bool :=
  s.warps.any fun e => s.ctxOfCrew e.2.crew == ctx && !e.2.retired && !e.2.evicted && s.resident e.2

/-- Is a step of a context open or moving at its rank here (R345)? -/
def State.inStep (s : State) (ctx : Nat) : Bool :=
  s.fabric.roots.any fun e => s.isMember ctx e.1 (s.rankOf ctx) && e.2.steps.any fun x => x.state != .failed

/-- Of the contexts whose last warp leaves the module, between one state and the next, those with a step open or moving park
their rank (R345). -/
def State.parkLeft (s t : State) : State :=
  t.ctxs.foldl (fun u e => if s.onChip e.1 && !t.onChip e.1 && s.inStep e.1 then u.parkRank e.1 (s.rankOf e.1) else u) t

/-- RANK_PARK: a rank of a context is switched out (R345). -/
def execRankPark (ctx rank : Nat) (s : State) : Host.Outcome State Fault Refusal := .next (s.parkRank ctx rank)

/-- RANK_UNPARK: it comes back, and its pending requests are issued again (R345). -/
def execRankUnpark (ctx rank : Nat) (s : State) : Host.Outcome State Fault Refusal :=
  .next (s.mapFabric fun f => { f with parked := f.parked.filter (· != (ctx, rank)) })

/-! ## Membership (R321, R342, R343) -/

/-- `grpchg sD, sA` (R342). -/
def execGrpchg (d a : BitVec 7) (s : State) : Host.Outcome State Fault Refusal :=
  issueWord (fun v =>
    { reads := [.s a.toNat], writes := [.s d.toNat], long := true,
      ok := bitsOf (v.w.sreg a.toNat).toNat 29 35 == 0 && decide (bitsOf (v.w.sreg a.toNat).toNat 27 2 < 2) }) (fun v s =>
    let x := (v.w.sreg a.toNat).toNat
    .done ((s.addOp v.src (.grpchg d.toNat (bitsOf x 0 12) (bitsOf x 12 15) (bitsOf x 27 2 == 1)) true false).endRegion v)) s

/-- The status of a change, in the order of R342's list: 0 DONE, 1 NOGROUP, 2 RANGE, 3 NOCHANGE, 4 EMPTY. -/
def groupStatus (g : GroupSetting) (ctx group rank : Nat) (remove : Bool) : Nat :=
  if group = 0 || !g.valid || g.ctx != ctx then 1
  else if rank < g.base || g.base + 511 < rank then 2
  else if (groupMembers g).contains rank != remove then 3
  else if remove && (groupMembers g).length == 1 then 4
  else 0

/-- The entry after a change that is done (R343). -/
def groupAfter (g : GroupSetting) (rank : Nat) : GroupSetting :=
  { g with gen := (g.gen + 1) % 65536, mask := g.mask ^^^ BitVec.ofNat 512 (2 ^ (rank - g.base)) }

/-- The crews of a context count the steps of a group from where their rank joined it (R334). -/
def State.clearSteps (s : State) (ctx group : Nat) : State :=
  { s with crews := Tab.mapVals (fun _ c =>
      if c.ctx == ctx then { c with steps := c.steps.filter fun e => e.1 / 64 != group } else c) s.crews }

/-- A change that is done takes effect at the lowest step not yet granted (R343): open requests of a removed rank are
discarded, and participants of an added rank start at that step. -/
def State.changeGroup (s : State) (group rank : Nat) (remove : Bool) : State :=
  let g := s.group group
  let s1 := if remove then s.dropRequests g.ctx rank (· == group) else s
  let s2 := s1.mapFabric fun f => { f with groups := Tab.put group (groupAfter g rank) f.groups }
  let s3 := s2.mapRoot group fun r =>
    if remove then r else { r with joined := Tab.put rank r.next r.joined }
  if remove || s3.rankOf g.ctx != rank then s3 else s3.clearSteps g.ctx group

/-- What `grpchg` writes (R342). -/
def groupAnswer (status step gen : Nat) : DWord :=
  BitVec.ofNat 64 ((if status = 0 then step % 2 ^ 32 else 0) * 2 ^ 32 + gen * 256 + status)

/-- GROUP_CHANGE_APPLY: the fabric manager applies the oldest change of a group, or refuses it (R342, R343). -/
def execGroupChangeApply (op : Nat) (s : State) : Host.Outcome State Fault Refusal :=
  .next (match s.op op with
    | none => s
    | some o =>
      match o.kind with
      | .grpchg d group rank remove =>
        let first := s.ops.find? fun x => match x.kind with
          | .grpchg _ g _ _ => g == group
          | _ => false
        if (first.map (·.id)) != some o.id || s.fenced o then s
        else
          let st := groupStatus (s.group group) o.src.ctx group rank remove
          let s1 := if st = 0 then s.changeGroup group rank remove else s
          let x := groupAnswer st (s.root group).next (s1.group group).gen
          ((s1.mapWarp o.src.warp fun w => w.setS d x).dropOp op).settleFlags o.src.warp
      | _ => s)

/-- GROUP_TABLE_WRITE: Gallery or the fabric manager writes an entry (R321, R383); an entry that becomes valid, or passes to another
context, starts a group whose steps start at 0 (R334).  Ranks that the entry takes from the group or adds to it leave or join at the
lowest step that is not granted (R343). -/
def execGroupTableWrite (index : Nat) (entry : GroupSetting) (s : State) : Host.Outcome State Fault Refusal :=
  .next (
    let g := s.group index
    let same := g.valid && g.ctx == entry.ctx
    if 4096 ≤ index || 32767 < entry.base || entry.base % 512 ≠ 0 || 65536 ≤ entry.gen || 65536 ≤ entry.ctx then s
    else
      let old := groupMembers g
      let new := if entry.valid then groupMembers entry else []
      let gone := if same then old.filter fun r => !new.contains r else []
      let come := if same then new.filter fun r => !old.contains r else []
      let s0 := gone.foldl (fun s r => s.dropRequests g.ctx r (· == index)) s
      let s1 := s0.mapFabric fun f =>
        { f with groups := Tab.put index entry f.groups
                 roots := if same then f.roots else Tab.erase index f.roots }
      let s2 := if come.isEmpty then s1 else s1.mapRoot index fun r =>
        { r with joined := come.foldl (fun t m => Tab.put m r.next t) r.joined }
      if !same || come.contains (s2.rankOf g.ctx) then s2.clearSteps entry.ctx index else s2)

end Sys2Proof.Machine
end

