-- ==== Sys2Proof/Machine/Stope.lean ====
section
/-! DEFINITION. Stope units (R347 to R356): the unit and its program, columns, load-program and run commands, leases,
faults, the stope words (R360, R361), and gather-reduce (R355, R358, R359). -/

namespace Sys2Proof.Machine

/-! ## What a program may hold (R349) -/

/-- The effect of a word. -/
abbrev StopeWord := State → Host.Outcome State Fault Refusal

/-- The word of format R with one of the listed X. -/
def threeRegs (l : List (Nat × (BitVec 7 → BitVec 7 → BitVec 7 → StopeWord))) (w : Word) : Option StopeWord :=
  (l.find? fun e => e.1 == subOf w).map fun e => e.2 (w.extractLsb' 18 7) (w.extractLsb' 11 7) (w.extractLsb' 4 7)

/-- The word with D and A, B being zero, with one of the listed X. -/
def twoRegs (l : List (Nat × (BitVec 7 → BitVec 7 → StopeWord))) (w : Word) : Option StopeWord :=
  if fieldB w ≠ 0 then none
  else (l.find? fun e => e.1 == subOf w).map fun e => e.2 (w.extractLsb' 18 7) (w.extractLsb' 11 7)

/-- The meaning of a word that a stope program may hold, column loads and stores aside (R349). -/
def stopeWord (w : Word) : Option StopeWord :=
  match majorOf w with
  | 0x01 => if w.extractLsb' 20 1 = 1 ∧ w.extractLsb' 0 4 = 4 then
      some (execIfThen (w.extractLsb' 22 3) (w.extractLsb' 21 1) (w.extractLsb' 4 16)) else
    if w.extractLsb' 20 5 = 0 ∧ w.extractLsb' 0 4 = 5 then some (execElseThen (w.extractLsb' 4 16)) else
    if w.extractLsb' 20 5 = 0 ∧ w.extractLsb' 0 4 = 6 then some (execLoop (w.extractLsb' 4 16)) else
    if w.extractLsb' 20 5 = 0 ∧ w.extractLsb' 0 4 = 7 then some (execEndloop (w.extractLsb' 4 16)) else none
  | 0x03 => if w.extractLsb' 0 25 = 0 then some (execNop) else
    if w.extractLsb' 0 25 = 1 then some (execEndif) else
    if w.extractLsb' 0 25 = 2 then some (execBrk) else
    if w.extractLsb' 0 25 = 3 then some (execCont) else
    if w.extractLsb' 0 25 = 4 then some (execExit) else none
  | 0x04 => if w.extractLsb' 0 9 = 0 then some (execSetm (w.extractLsb' 9 16)) else
    if w.extractLsb' 18 7 = 0 ∧ w.extractLsb' 0 11 = 1 then some (execSetmReg (w.extractLsb' 11 7)) else none
  | 0x05 => some (execLim (w.extractLsb' 0 25))
  | 0x06 => if w.extractLsb' 7 18 = 0 then some (execLimh (w.extractLsb' 0 7)) else none
  | 0x08 => threeRegs [(0, execAdd), (1, execSub), (2, execAddc), (3, execSubb), (4, execMul), (5, execMulh),
    (8, execMin), (9, execMax)] w
  | 0x09 => threeRegs [(0, execAddI), (1, execSubI), (2, execAddcI), (3, execSubbI), (4, execMulI), (5, execMulhI),
    (8, execMinI), (9, execMaxI)] w
  | 0x0A => threeRegs [(0, execAndBits), (1, execOrBits), (2, execXorBits), (3, execShl), (4, execShr), (5, execSar),
    (6, execRot)] w
  | 0x0B => threeRegs [(0, execAndBitsI), (1, execOrBitsI), (2, execXorBitsI), (3, execShlI), (4, execShrI),
    (5, execSarI), (6, execRotI)] w
  | 0x0C => twoRegs [(0, execNotBits), (1, execClz), (2, execPopc), (3, execBrev), (4, execAbs), (5, execMov)] w
  | 0x0D => if w.extractLsb' 11 7 = 0 ∧ w.extractLsb' 0 4 = 5 then
      some (execMovImm (w.extractLsb' 18 7) (w.extractLsb' 4 7)) else none
  | 0x0E => threeRegs [(0, execCmpEq), (1, execCmpNe), (2, execCmpLt), (3, execCmpLe), (4, execCmpGt), (5, execCmpGe)] w
  | 0x0F => threeRegs [(0, execCmpEqI), (1, execCmpNeI), (2, execCmpLtI), (3, execCmpLeI), (4, execCmpGtI),
    (5, execCmpGeI)] w
  | 0x10 => threeRegs [(0, execMad)] w
  | 0x11 => threeRegs [(0, execBfe), (1, execBfi)] w
  | 0x12 => some (execSel (w.extractLsb' 18 7) (w.extractLsb' 11 7)
      (w.extractLsb' 4 7) (w.extractLsb' 3 1) (w.extractLsb' 0 3))
  | 0x16 => threeRegs [(0, execRedAdd), (1, execRedMin), (2, execRedMax), (3, execRedAnd), (4, execRedOr),
    (5, execRedXor)] w
  | 0x18 => twoRegs [(0, execS2v), (1, execV2s)] w
  | 0x19 => threeRegs [(0, execPand), (1, execPor), (2, execPxor)] w <|> twoRegs [(3, execPnot), (4, execPmov)] w
  | 0x1A => threeRegs [(0, execAddS), (1, execSubS), (4, execMulS), (5, execMulhS), (8, execMinS), (9, execMaxS)] w
  | 0x1B => threeRegs [(0, execAddSi), (1, execSubSi), (4, execMulSi), (5, execMulhSi), (8, execMinSi),
    (9, execMaxSi)] w
  | 0x1C => threeRegs [(0, execAndBitsS), (1, execOrBitsS), (2, execXorBitsS), (3, execShlS), (4, execShrS),
    (5, execSarS), (6, execRotS)] w
  | 0x1D => threeRegs [(0, execAndBitsSi), (1, execOrBitsSi), (2, execXorBitsSi), (3, execShlSi), (4, execShrSi),
    (5, execSarSi), (6, execRotSi)] w
  | 0x1E => twoRegs [(0, execNotBitsS), (1, execClzS), (2, execPopcS), (3, execBrevS), (4, execAbsS), (5, execMovS)] w
  | 0x1F => if w.extractLsb' 11 7 = 0 ∧ w.extractLsb' 0 4 = 5 then
      some (execMovSImm (w.extractLsb' 18 7) (w.extractLsb' 4 7)) else none
  | 0x20 => threeRegs [(0, execCmpEqS), (1, execCmpNeS), (2, execCmpLtS), (3, execCmpLeS), (4, execCmpGtS),
    (5, execCmpGeS)] w
  | 0x21 => threeRegs [(0, execCmpEqSi), (1, execCmpNeSi), (2, execCmpLtSi), (3, execCmpLeSi), (4, execCmpGtSi),
    (5, execCmpGeSi)] w
  | 0x28 => threeRegs [(0, execFadd), (1, execFsub), (2, execFmul)] w
  | 0x29 => threeRegs [(0, execFaddI), (1, execFsubI), (2, execFmulI)] w
  | 0x2A => threeRegs [(0, execFfma)] w
  | 0x2B => threeRegs [(0, execFcmpEq), (1, execFcmpNe), (2, execFcmpLt), (3, execFcmpLe), (4, execFcmpGt),
    (5, execFcmpGe), (6, execFcmpUn), (7, execFcmpOrd)] w
  | _ => none

/-- Fields D and A of a word. -/
def fieldD (w : Word) : Nat := bitsOf w.toNat 18 7
def fieldA (w : Word) : Nat := bitsOf w.toNat 11 7

/-- Do a word's uniform registers and predicates lie among those of a unit, s0 to s3 and p0 to p3 (R347, R349)?  Lane
registers are checked when the word issues. -/
def stopeRegs (w : Word) : Bool :=
  let low := fun (n : Nat) => decide (n < 4)
  match majorOf w with
  | 0x01 => subOf w != 4 || low (bitsOf w.toNat 22 3)
  | 0x04 => subOf w == 0 || low (fieldA w)
  | 0x0E | 0x0F | 0x2B => low (fieldD w)
  | 0x12 => low (bitsOf w.toNat 0 3)
  | 0x16 => low (fieldB w)
  | 0x18 => if subOf w = 0 then low (fieldA w) else low (fieldD w)
  | 0x19 | 0x1A | 0x1C | 0x20 => low (fieldD w) && low (fieldA w) && low (fieldB w)
  | 0x1B | 0x1D | 0x1E | 0x21 => low (fieldD w) && low (fieldA w)
  | 0x1F => low (fieldD w)
  | _ => true

/-- The MODE values that a stope program may set. -/
def stopeMode (m : Word) : Bool :=
  [1, 2, 8].contains (modeType m) && decide (modeRnd m ≤ 3) && !modeMat m && !modeNskip m &&
    [0, 8, 9, 10, 11, 24, 25, 26, 27].contains (modeGuard m)

/-- Does a word keep the restrictions of R349 on MODE? -/
def stopeModeOk (u : Warp) (mode w : Word) : Bool :=
  match majorOf w with
  | 0x04 => stopeMode (if subOf w = 0 then (w.extractLsb' 9 16).setWidth 32 else loWord (u.sreg (fieldA w)))
  | 0x28 | 0x29 | 0x2A | 0x2B => modeType mode == 8
  | _ => true

/-! ## A unit as a machine of its own -/

/-- Bytes of an instruction store (R349). -/
def storeBytes : Nat := 16384

/-- A unit at the start of a run (R348): NCOL, ARG, LEN and the unit's number. -/
def Warp.unit (ncol lines entry number : Nat) (arg : DWord) : Warp :=
  { Warp.blank with
    lanes := 8
    s := [(0, BitVec.ofNat 64 ncol), (1, arg), (2, BitVec.ofNat 64 lines), (3, BitVec.ofNat 64 number)].filter fun e => e.2 != 0
    slices := (List.range 8).map fun k => if k < 2 then ⟨0xF, 0, [], [], none, 0⟩ else Slice.gone
    frags := [Frag.start 3 (BitVec.ofNat 64 (4 * entry)) 0x20] }

/-- The unit's code addresses count bytes of its store, whose end leads to its start (R347: PC has 12 bits). -/
def Frag.wrap (f : Frag) : Frag := { f with pc := BitVec.ofNat 64 (f.pc.toNat % storeBytes) }

/-- A machine that holds nothing but a unit and its store, twice over, so that a clause may run across its end. -/
def unitState (u : Warp) (store : Tab Word) : State :=
  let put := fun (m : Tab (BitVec 8)) (e : Nat × Word) => putBytes m (4 * e.1) (leBytes e.2.toNat 4)
  { State.reset with
    mem := (store ++ store.map fun (e : Nat × Word) => (e.1 + 4096, e.2)).foldl put []
    tlb := [(0, [⟨0, 0, 16, 0x17, 0⟩])]
    ctxs := [(0, { Context.fresh with faultQ := some ⟨0, 1, 0, []⟩ })]
    crews := [(0, Crew.blank)]
    warps := [(0, { u with frags := u.frags.map Frag.wrap })] }

/-- The unit within its machine. -/
def State.theUnit (t : State) : Warp := (Tab.lookup 0 t.warps).getD Warp.blank
def State.theFrag (t : State) : Frag := t.theUnit.frags.headD (Frag.start 3 0 0)

/-- The cause of the fault that stopped the unit, if any. -/
def State.unitCause (t : State) : Option Nat :=
  ((Tab.lookup 0 t.ctxs).bind (·.faultQ)).bind fun q => q.held.head?.map fun r => bitsOf (r.getD 0 0).toNat 24 8

/-- SUB of a stope fault (R356). -/
def stopeSub (cause : Nat) : Nat :=
  if cause = causeHazard then 2 else if cause = causeBadTarget then 3
  else if cause = causeStackOverflow ∨ cause = causeStackMismatch ∨ cause = causeLoopOverflow then 4
  else if cause = causeBounds then 5 else if cause = causeData then 6 else 1

/-! ## Columns (R351, R352) -/

/-- Bytes of a stack's memory, and of the first tier. -/
def stackBytes : Nat := 48 * 2 ^ 30
def firstTier : Nat := 8 * stackBytes

/-- The number of a line within its 256 KiB that belongs to a channel's bank. -/
def bankLine (chan bank : Nat) : Nat := chan % 32 + 32 * bank

/-- The bank key of a physical address of the first tier (R355). -/
def bankKey (pa : Nat) : Nat :=
  let f := frameOf pa
  let o := f % stackBytes
  f / stackBytes * 1024 + bitsOf o 8 5 * 32 + bitsOf o 13 5

/-- Of a page of a run's region, the lines of one bank: virtual and physical address of the first, and how many. -/
def StopeRun.part (r : StopeRun) (bank : Nat) (p : Nat × Nat × Nat) : Nat × Nat × Nat :=
  let n := p.2.2 / 256
  let f := (bankLine r.chan bank + 1024 - p.2.1 / 256 % 1024) % 1024
  if frameOf p.2.1 / stackBytes = r.chan / 32 ∧ f < n then (p.1 + 256 * f, p.2.1 + 256 * f, (n - f - 1) / 1024 + 1) else (0, 0, 0)

/-- NCOL of a unit. -/
def StopeRun.columns (r : StopeRun) (bank : Nat) : Nat :=
  r.pages.foldl (fun n p => n + 8 * (r.part bank p).2.2) 0

/-- The virtual and physical address of a column of a unit. -/
def columnIn (r : StopeRun) (bank : Nat) : List (Nat × Nat × Nat) → Nat → Option (Nat × Nat)
  | [], _ => none
  | p :: ps, c =>
    let x := r.part bank p
    if c < 8 * x.2.2 then
      let off := 262144 * (c / 8) + 32 * (c % 8)
      some (x.1 + off, x.2.1 + off)
    else columnIn r bank ps (c - 8 * x.2.2)

/-- A column as an access, or the fault: its cause and the address that the record shows.  Of a column past the last the
manual gives no address, and the record's is free. -/
def State.column (s : State) (r : StopeRun) (bank c : Nat) (read : Bool) : Except (Nat × Addr) (Nat × List (BitVec 8)) :=
  match columnIn r bank r.pages c with
  | none => .error (causeBounds, BitVec.ofNat 64 (leNat (s.freeBytes 0 8)))
  | some (va, pa) =>
    if read && s.uncorrectable pa 32 then .error (causeData, BitVec.ofNat 64 va)
    else .ok (pa, (List.range 32).map fun i => Tab.get 0 s.dram (pa + i))

/-- A column store of a run at the bank: home and DRAM hold it at once, and the tokens of its regions are left free (R205, R352). -/
def State.bankWrite (s : State) (o : Op) (pa : Nat) (bs : List (BitVec 8)) : State :=
  { s.outsideWrite o.src.warp pa bs (agentOf o.id) with dram := putBytes s.dram pa bs, unflushed := s.unflushed }

/-- Is a word a column load or store (R349)? -/
def columnWord (w : Word) : Option Bool :=
  if bitsOf w.toNat 0 11 ≠ 8 || decide (16 ≤ fieldD w) || decide (4 ≤ fieldA w) then none
  else if majorOf w = 0x38 then some false
  else if majorOf w = 0x39 then some true
  else none

/-- The effect of a column word on the unit; a fault carries the cause of a column. -/
def columnBody (store : Bool) (w : Word) (col : Except (Nat × Addr) (Nat × List (BitVec 8))) : StopeWord :=
  issueWord (fun _ =>
    { reads := .s (fieldA w) :: (if store then [.v (fieldD w)] else []), writes := if store then [] else [.v (fieldD w)],
      long := true }) fun v t =>
    match col with
    | .error (c, a) => .fault t { cause := c, lanes := v.act, addr := a }
    | .ok (_, bs) =>
      if store then .done t
      else onWarp v t fun u => u.setV v.type (fieldD w) v.act
        (Lanes.ofFn fun n => BitVec.ofNat 32 (leNat ((bs.drop (4 * n)).take 4)))

/-- The words that a column store writes: those of the active lanes. -/
def State.columnStore (s : State) (o : Op) (v : View) (w : Word) (pa : Nat) : State :=
  (laneList v.act).foldl (fun s n =>
    s.bankWrite o (pa + 4 * n) (leBytes ((v.w.vreg (fieldD w)).get n).toNat 4)) s

/-! ## A clause of a unit (R349, R350) -/

/-- What stops a unit: kind, store word, address, lanes.  Kind 0 is no fault: the unit waits for the token of the region at a
physical address into which a column store is to write (R205). -/
abbrev UnitFault := Nat × Nat × Addr × Nat

/-- The store word at a code address. -/
def storeWord (a : Addr) : Nat := a.toNat / 4 % 4096

/-- `red` names the lanes of bits [7:0] of its mask (R349). -/
def State.unitRed (t : State) (w : Word) (f : StopeWord) : Host.Outcome State Fault Refusal :=
  if majorOf w ≠ 0x16 then f t
  else
    let m := t.theUnit.sreg (fieldB w)
    match f (t.mapWarp 0 fun u => u.setS (fieldB w) (m &&& 0xFF)) with
    | .next t1 => .next (t1.mapWarp 0 fun u => u.setS (fieldB w) m)
    | x => x

/-- The words of a clause, up to `fuel` of them: the module, the unit's machine, and what stopped the unit.  Whether tokens let
the clause's column stores write is asked of the module as the clause found it, `s0`. -/
def State.unitWords (s0 : State) (s : State) (o : Op) (r : StopeRun) (bank : Nat) (store : Tab Word) : Nat → State → State × State × Option UnitFault
  | 0, t => (s, t, none)
  | fuel + 1, t =>
    match t.view with
    | none => (s, t, none)
    | some v =>
      let w := v.word
      let lanes := v.act.toNat % 256
      let stop := fun (k : Nat) (a : Addr) => (s, t, some ((k, storeWord v.addr, a, lanes) : UnitFault))
      let go := fun (s1 : State) (x : Host.Outcome State Fault Refusal) =>
        match x with
        | .next t1 =>
          match t1.unitCause with
          | some c => stop (stopeSub c) 0
          | none =>
            let f := t1.theFrag
            if f.state == .done then (s1, t1, none)
            else if f.clause.isNone && f.pc != v.c.after && majorOf (Tab.get 0 store (storeWord f.pc)) != 0x7F then stop 3 0
            else State.unitWords s0 s1 o r bank store fuel t1
        | _ => stop 1 0
      match columnWord w with
      | some st =>
        let col := s.column r bank (loWord (v.w.sreg (fieldA w))).toNat (!st)
        let pa := (col.toOption.map (·.1)).getD 0
        if st && col.toOption.isSome && !s0.tokensLet pa (agentOf o.id) then stop 0 (BitVec.ofNat 64 pa)
        else match columnBody st w col t with
        | .next t1 =>
          match t1.unitCause, col with
          | some c, .error (e, a) => if c = e then stop (stopeSub c) a else stop (stopeSub c) 0
          | none, .ok (pa, _) => go (if st then s.columnStore o v w pa else s) (.next t1)
          | some c, .ok _ => stop (stopeSub c) 0
          | none, .error _ => stop 1 0
        | _ => stop 1 0
      | none =>
        match stopeWord w with
        | none => stop 1 0
        | some f =>
          if !stopeRegs w || !stopeModeOk v.w v.f.mode w then stop 1 0
          else if majorOf w = 1 ∧ (subOf w = 4 ∨ subOf w = 6) ∧ 4 ≤ (v.w.slice 0).stack.length then stop 4 0
          else go s (t.unitRed w f)

/-- One clause of a unit: its header and words are checked, then run. -/
def State.unitClause (s : State) (o : Op) (r : StopeRun) (bank : Nat) (u : Warp) : State × Warp × Option UnitFault :=
  let store := (Tab.get Channel.free s.channels r.chan).store
  let t := unitState u store
  let f := t.theFrag
  let lanes := (t.theUnit.active f).toNat % 256
  let hw := Tab.get 0 store (storeWord f.pc)
  let h := headerOf hw
  let words := (List.range h.len).map fun i => Tab.get 0 store (storeWord (f.pc + BitVec.ofNat 64 (4 * (i + 1))))
  let flag := fun (n : Nat) => decide (n < 4) || n == 15
  let stop := fun (a : Addr) => (s, u, some ((1, storeWord a, 0, lanes) : UnitFault))
  if majorOf hw ≠ 0x7F || h.wait &&& 0xFF0 != 0 || !(flag h.setA && flag h.setB) then stop f.pc
  else
    match misplaced words h.len 0 0 with
    | some p => stop (f.pc + BitVec.ofNat 64 (4 * (p + 1)))
    | none =>
      let x := State.unitWords s s o r bank store 8 (t.openClause 0 0 h hw)
      (x.1, x.2.1.theUnit, x.2.2)

/-! ## Running (R353, R354) -/

/-- The run that a channel's bank executes: its request, and the unit. -/
def State.unitAt (s : State) (chan bank : Nat) : Option (Op × StopeRun × Tab StopeUnit × StopeUnit) :=
  s.ops.findSome? fun o =>
    match o.kind with
    | .stopeRun r true us =>
      if r.chan ≠ chan then none
      else match Tab.lookup bank us with
        | some u => if u.ended then none else some (o, r, us, u)
        | none => none
    | _ => none

/-- Put a unit back. -/
def State.putUnit (s : State) (o : Op) (r : StopeRun) (us : Tab StopeUnit) (bank : Nat) (u : StopeUnit) : State :=
  s.putOp { o with kind := .stopeRun r true (Tab.put bank u us) }

/-- Has every lane of a unit exited? -/
def StopeUnit.exited (u : StopeUnit) : Bool := u.w.frags.all fun f => f.state == .done

/-- STOPE_CLAUSE_ISSUE: a unit runs one clause, once every token that its column stores need has reached it (R205, R347, R349,
R350, R352). -/
def execStopeClauseIssue (channel bank : Nat) (s : State) : Host.Outcome State Fault Refusal :=
  .next (match s.unitAt channel bank with
    | none => s
    | some (o, r, us, u) =>
      if u.bad.isSome || u.exited then s
      else
        let x := s.unitClause o r bank u.w
        match x.2.2 with
        | some (0, _, pa, _) => s.outsideAsk pa.toNat (agentOf o.id)
        | bad => x.1.putUnit o r us bank { u with w := x.2.1, bad := bad })

/-- STOPE_UNIT_END: every lane of a unit has exited, and the unit ends (R350). -/
def execStopeUnitEnd (channel bank : Nat) (s : State) : Host.Outcome State Fault Refusal :=
  .next (match s.unitAt channel bank with
    | none => s
    | some (o, r, us, u) => if u.bad.isNone && u.exited then s.putUnit o r us bank { u with ended := true } else s)

/-- STOPE_FAULT: a unit that met a fault ends; its record is written, the context is descheduled and a shot is taken
(R356, R378). -/
def execStopeFault (channel bank : Nat) (s : State) : Host.Outcome State Fault Refusal :=
  .next (match s.unitAt channel bank with
    | none => s
    | some (o, r, us, u) =>
      match u.bad with
      | none => s
      | some x =>
        ((s.putUnit o r us bank { u with ended := true }).unitRecord o channel bank x).mapCtx o.src.ctx fun c =>
          { c with state := if c.state == .running then .descheduled else c.state })

/-- Do two lists of physical ranges meet? -/
def rangesMeet (a b : List (Nat × Nat)) : Bool := a.any fun x => b.any fun y => decide (x.1 < y.1 + y.2 ∧ y.1 < x.1 + x.2)

/-- The physical ranges of a run's region. -/
def StopeRun.ranges (r : StopeRun) : List (Nat × Nat) := r.pages.map fun p => (frameOf p.2.1, p.2.2)

/-- Does a run name a bank? -/
def StopeRun.names (r : StopeRun) (bank : Nat) : Bool := r.banks.getLsbD bank

/-- What a run waits for at the base die: an earlier request that stands in its way (R353, R354). -/
def State.runBlocked (s : State) (o : Op) (r : StopeRun) : Bool :=
  (s.leases.any fun l => rangesMeet l.ranges r.ranges) ||
  s.ops.any fun x => decide (x.id < o.id) &&
    match x.kind with
    | .stopeRun q started us =>
      (!started && rangesMeet q.ranges r.ranges) || (q.chan == r.chan && (List.range 32).any fun b =>
        q.names b && r.names b && (!started || (Tab.lookup b us).any fun u => !u.ended))
    | .stopeLoad c _ _ ps => c == r.chan && !ps.isEmpty
    | .gred _ _ _ _ left _ => left.any fun a => match a.place with
      | .pa pa => r.names (bankKey pa % 32) && bankKey pa / 32 == r.chan
      | _ => false
    | _ => false

/-- Is a write that the warp issued before a request still to be performed (R353)? -/
def State.writesLeft (s : State) (o : Op) : Bool :=
  s.ops.any fun x => x.src.warp == o.src.warp && decide (x.id < o.id) &&
    match x.kind with
    | .store .. | .fp4s .. | .atomic .. => true
    | .copy _ _ _ rows => !rows.isEmpty
    | _ => false

/-- A line goes from its home share to DRAM (R207). -/
def State.flushLine (s : State) (line : Nat) : State :=
  { s with dram := putBytes s.dram (256 * line) (s.bytes (256 * line) 256), unflushed := Tab.erase line s.unflushed }

/-- The flush before a run (R206): dirty token words come home, sharers go, and dirty lines are written to DRAM. -/
def State.flushRegion (s : State) (l : List (Nat × Nat)) : State :=
  let within := fun (pa : Nat) => l.any fun r => decide (r.1 ≤ frameOf pa ∧ frameOf pa < r.1 + r.2)
  let s1 := s.cores.foldl (fun s e => s.writeBack e.1 within) s
  let s2 := { s1 with directory := s1.directory.filter fun e => !within (256 * e.1) }
  ((s2.unflushed.map (·.1)).filter fun n => within (256 * n)).foldl State.flushLine s2

/-- STOPE_RUN_START: what the run waits for is done; it takes its lease, the region is flushed, and its units start
(R206, R348, R351, R353). -/
def execStopeRunStart (op : Nat) (s : State) : Host.Outcome State Fault Refusal :=
  .next (match s.op op with
    | none => s
    | some o =>
      match o.kind with
      | .stopeRun r false _ =>
        if s.writesLeft o || s.runBlocked o r || s.fenced o then s
        else
          let us := ((List.range 32).filter r.names).map fun b =>
            (b, (⟨Warp.unit (r.columns b) r.lines r.entry (32 * r.chan + b) r.arg, false, none⟩ : StopeUnit))
          let s1 := s.flushRegion r.ranges
          ({ s1 with leases := s1.leases ++ [(⟨op, o.src.ctx, r.ranges⟩ : Lease)] }).putOp { o with kind := .stopeRun r true us }
      | _ => s)

/-- STOPE_RUN_RETIRE: every named unit has ended; the lease ends, flags and the mask of failed banks go to the warp
(R353). -/
def execStopeRunRetire (op : Nat) (s : State) : Host.Outcome State Fault Refusal :=
  .next (match s.op op with
    | none => s
    | some o =>
      match o.kind with
      | .stopeRun r true us =>
        if !(us.all fun u => u.2.ended) || !s.oldest o then s
        else
          let failed := maskOf fun b => (Tab.lookup b us).any fun u => u.bad.isSome
          let exc := (Exc.sum (us.map fun u => u.2.w.xc)).once
          let s1 := s.mapWarp o.src.warp fun w =>
            { w.raiseExc exc with stopeMasks := Tab.set 0 w.stopeMasks r.chan (Tab.get 0 w.stopeMasks r.chan ||| failed) }
          ({ s1 with leases := s1.leases.filter fun l => l.op != op }).retire o
      | _ => s)

/-- LEASE_ABORT: Gallery forces the unmap of a leased page; the units of the run stop and a record is written (R354).  A unit that
a fault has stopped before keeps its fault, and its own record follows (R356). -/
def execLeaseAbort (op page : Nat) (s : State) : Host.Outcome State Fault Refusal :=
  .next (match s.op op with
    | none => s
    | some o =>
      match o.kind with
      | .stopeRun r started us =>
        if !(r.pages.any fun p => p.1 / 65536 ≤ page / 65536 ∧ page / 65536 ≤ (p.1 + p.2.2 - 1) / 65536) ||
            (started && us.all fun u => u.2.ended) then s
        else
          let all := if started then us else ((List.range 32).filter r.names).map fun b => (b, (⟨Warp.blank, false, none⟩ : StopeUnit))
          let ends := Tab.mapVals (fun _ (u : StopeUnit) => if u.ended || u.bad.isSome then u else { u with ended := true, bad := some (7, 0, 0, 0) }) all
          (s.putOp { o with kind := .stopeRun r true ends }).postFault o.src.ctx
            (s.engineRecord o causeLease 2 (BitVec.ofNat 64 (page / 65536 * 65536)) 0 (stopeInfo 0 r.chan 0 0))
      | _ => s)

/-! ## The words (R353, R360, R361) -/

/-- Does a context own a channel (32 × stack + channel)? -/
def State.ownsChannel (s : State) (ctx chan : Nat) : Bool := (Tab.get Channel.free s.channels chan).owner == some ctx

/-- The pages that `n` bytes from `a` upward lie in, and the causes they meet with their lowest addresses (R353). -/
def State.regionPages (s : State) (v : View) (write : Bool) : Nat → Nat → Nat → List (Nat × Nat × Nat) × List (Nat × Nat)
  | 0, _, _ => ([], [])
  | fuel + 1, a, n =>
    if n = 0 then ([], [])
    else
      let bad := fun (c m : Nat) =>
        let r := s.regionPages v write fuel (a + m) (n - m)
        (r.1, (c, a) :: r.2)
      let m := Nat.min n (65536 - a % 65536)
      if isMap a || 2 ^ 57 ≤ a then bad causeType m
      else
        match s.translate v.crew.ctx v.crew.core a true write with
        | .error c => bad c m
        | .ok x =>
          let m := Nat.min n (2 ^ x.log - a % 2 ^ x.log)
          if x.leaf.typeCode ≠ 0 || (write && decide (firstTier < frameOf x.pa + m)) then bad causeType m
          else
            let r := s.regionPages v write fuel (a + m) (n - m)
            ((a, x.pa, m) :: r.1, r.2)

/-- The fault of the causes that a command's pages meet: the lowest code and its lowest address (R54, R55). -/
def View.pagesFault (v : View) (l : List (Nat × Nat)) (write : Bool) : FaultInfo :=
  let c := leastOf (l.map (·.1))
  let a := leastOf ((l.filter fun e => e.1 == c).map (·.2))
  { cause := c, lanes := v.act, addr := BitVec.ofNat 64 a, granule := if pageCause c then some (a / 65536) else none,
    read := true, write := write }

/-- Keep the translations of a command's pages. -/
def State.rememberPages (s : State) (v : View) (l : List (Nat × Nat × Nat)) : State :=
  l.foldl (fun s p => s.remember v.crew.ctx v.crew.core p.1) s

/-- `stope.load sA, COUNT` (R353, R360). -/
def execStopeLoad (d a n : BitVec 7) (s : State) : Host.Outcome State Fault Refusal :=
  let count := 128 * d.toNat + n.toNat
  issueWord (fun v =>
    let x := (v.w.sreg a.toNat).toNat
    let y := (v.w.sreg (a.toNat + 1)).toNat
    { reads := [.s a.toNat, .s (a.toNat + 1)], long := true,
      ok := a.toNat % 2 == 0 && decide (a.toNat ≤ 62) && bitsOf x 57 7 == 0 && x % 4 == 0 && bitsOf y 28 36 == 0 &&
        bitsOf y 12 8 == 0 && decide (1 ≤ count ∧ count ≤ 4096 ∧ bitsOf y 0 12 + count ≤ 4096) }) (fun v s =>
    let x := (v.w.sreg a.toNat).toNat
    let y := (v.w.sreg (a.toNat + 1)).toNat
    let chan := bitsOf y 20 8
    if !s.ownsChannel v.crew.ctx chan then .fault s { cause := causePermission, lanes := v.act }
    else
      let r := s.regionPages v false 2 x (4 * count)
      if !r.2.isEmpty then .fault s (v.pagesFault r.2 false)
      else if v.full 3 then .hold s .held
      else
        let places := r.1.flatMap fun p => (List.range (p.2.2 / 4)).map fun i => p.2.1 + 4 * i
        .done (((s.rememberPages v r.1).addEngine v 3 (.stopeLoad chan (bitsOf y 0 12) x places)).endRegion v)) s

/-- STOPE_LOAD_PERFORM: with no run in progress on the channel the words are copied into its store, and the load retires
in the order of its class (R353).  An uncorrectable granule ends the copy as it ends every copy (R71). -/
def execStopeLoadPerform (op : Nat) (s : State) : Host.Outcome State Fault Refusal :=
  .next (match s.op op with
    | none => s
    | some o =>
      match o.kind with
      | .stopeLoad chan off va places =>
        let running := s.ops.any fun x => match x.kind with
          | .stopeRun r true us => r.chan == chan && us.any fun u => !u.2.ended
          | .stopeRun r false _ => r.chan == chan && decide (x.id < op)
          | .stopeLoad c _ _ ps => c == chan && decide (x.id < op) && !ps.isEmpty
          | _ => false
        let finish := fun (s : State) => if s.oldest o then s.retire o else s
        if places.isEmpty then finish s
        else if running || s.fenced o || places.any s.leased then s
        else
          let bad := places.findIdx? fun p => s.uncorrectable p 4
          let k := bad.getD places.length
          let word := fun (i : Nat) => if i < k then s.word (places.getD i 0) else BitVec.ofNat 32 (leNat (s.freeBytes (4 * i) 4))
          let c := Tab.get Channel.free s.channels chan
          let c1 := { c with store := (List.range places.length).foldl (fun t i => Tab.set 0 t (off + i) (word i)) c.store }
          let s1 := { s with channels := Tab.put chan c1 s.channels }
          let s2 := match bad with
            | some i => s1.postFault o.src.ctx (s.engineRecord o causeData 2 (BitVec.ofNat 64 (va + 4 * i)) 0 0)
            | none => s1
          finish (s2.putOp { o with kind := .stopeLoad chan off va [] })
      | _ => s)

/-- `stope.run sA` (R353, R360). -/
def execStopeRun (a : BitVec 7) (s : State) : Host.Outcome State Fault Refusal :=
  issueWord (fun v =>
    let r := fun (i : Nat) => (v.w.sreg (a.toNat + i)).toNat
    { reads := (List.range 4).map fun i => .s (a.toNat + i), long := true,
      ok := a.toNat % 4 == 0 && decide (a.toNat ≤ 60) && bitsOf (r 0) 57 7 == 0 && r 0 % 256 == 0 && bitsOf (r 1) 0 12 == 0 &&
        bitsOf (r 1) 32 32 != 0 && bitsOf (r 2) 32 32 == 0 && r 2 != 0 }) (fun v s =>
    let r := fun (i : Nat) => (v.w.sreg (a.toNat + i)).toNat
    let chan := bitsOf (r 1) 12 3 * 32 + bitsOf (r 1) 15 5
    if !s.ownsChannel v.crew.ctx chan then .fault s { cause := causePermission, lanes := v.act }
    else
      let p := s.regionPages v true (r 2 / 256 + 2) (r 0) (256 * r 2)
      if !p.2.isEmpty then .fault s (v.pagesFault p.2 true)
      else if v.full 3 then .hold s .held
      else
        let run : StopeRun := ⟨chan, BitVec.ofNat 32 (bitsOf (r 1) 32 32), bitsOf (r 1) 20 12, r 0, r 2,
          v.w.sreg (a.toNat + 3), p.1⟩
        .done (((s.rememberPages v p.1).addEngine v 3 (.stopeRun run false [])).endRegion v)) s

/-- `stope.wait sD, sA` (R353, R361). -/
def execStopeWait (d a : BitVec 7) (s : State) : Host.Outcome State Fault Refusal :=
  issueWord (fun v => { reads := [.s a.toNat], writes := [.s d.toNat], ok := decide ((v.w.sreg a.toNat).toNat < 256) })
    (fun v s =>
      let chan := (v.w.sreg a.toNat).toNat
      let lim := v.limit s
      if !s.ownsChannel v.crew.ctx chan then .fault s { cause := causePermission, lanes := v.act }
      else if s.ops.any fun o => o.src.warp == v.key && decide (o.id < lim) && match o.kind with
          | .stopeRun r _ _ => r.chan == chan
          | _ => false then v.holdAt s .held
      else onWarp v s fun w =>
        { (w.setS d.toNat ((Tab.get 0 w.stopeMasks chan).setWidth 64)) with stopeMasks := Tab.set 0 w.stopeMasks chan 0 }) s

/-! ## Gather-reduce (R355, R358, R359) -/

/-- A leaf of a gather-reduce as R133 takes it. -/
def gredLeaf (mode : Word) (gop x : Nat) : Nat × Exc :=
  let ty := modeType mode
  if !isFloat ty then (x, Exc.none)
  else
    let f := readFloat ty (modeFtz mode) x
    if f.isNan then if modeNskip mode then (nskipIdentity ty gop, Exc.none) else (defaultNan ty, Exc.nvIf f.isSig)
    else (exactBits ty f, Exc.none)

/-- A step of a unit's fold: integers wrap, fp32 rounds by RNE (R355). -/
def gredNode (mode : Word) (gop x y : Nat) : Nat × Exc :=
  let ty := modeType mode
  if isFloat ty then
    let a := readFloat ty (modeFtz mode) x
    let b := readFloat ty (modeFtz mode) y
    if a.isNan || b.isNan then (defaultNan ty, Exc.none)
    else if gop = 0 then fnFadd ty ⟨0, modeSat mode, modeFtz mode, 0⟩ a b
    else fnPick (gop == 1) ty Rnd.rne a b
  else
    let v := fun (z : Nat) => valueOf 32 (typeSigned ty) z
    if gop = 0 then ((x + y) % 2 ^ 32, Exc.none)
    else if gop = 1 then (if v y < v x then y else x, Exc.none)
    else (if v x < v y then y else x, Exc.none)

/-- Put what was read in the order of keys, then lanes. -/
def insertRead (x : Nat × Nat) : List (Nat × Nat) → List (Nat × Nat)
  | [] => [x]
  | y :: ys => if x.1 < y.1 then x :: y :: ys else y :: insertRead x ys

/-- Fold what was read, key by key: the partials in ascending key, and the flags. -/
def gredFold (mode : Word) (gop : Nat) : Option (Nat × Nat) → List (Nat × Nat) → List Nat × Exc
  | none, [] => ([], Exc.none)
  | some (_, x), [] => ([x], Exc.none)
  | none, (k, y) :: l =>
    let r := gredLeaf mode gop y
    let q := gredFold mode gop (some (k / 32, r.1)) l
    (q.1, r.2.add q.2)
  | some (key, x), (k, y) :: l =>
    let r := gredLeaf mode gop y
    if k / 32 = key then
      let z := gredNode mode gop x r.1
      let q := gredFold mode gop (some (key, z.1)) l
      (q.1, (r.2.add z.2).add q.2)
    else
      let q := gredFold mode gop (some (k / 32, r.1)) l
      (x :: q.1, r.2.add q.2)

/-- `gred.op vD, [bN, vI], pP` (R358). -/
def gredWord (gop : Nat) (d a : BitVec 7) (b : BitVec 4) (p : BitVec 3) (u : BitVec 1) :
    State → Host.Outcome State Fault Refusal :=
  issueWord (fun v =>
    { reads := [indexReg u a, .b b.toNat], also := [.v d.toNat, .p p.toNat], long := true,
      ok := [1, 2, 8].contains v.type && (bufOf (v.w.breg b.toNat)).esz == 2 && v.c.flag != 15 }) fun v s =>
    let buf := bufOf (v.w.breg b.toNat)
    let r := v.reachAll s buf buf.clamp false true false false
      (fun _ x => buf.pageType x == .plain && decide (frameOf x.pa + 4 ≤ firstTier)) u a
    let far : List LaneFault := r.2.filterMap fun e => match e.2 with
      | .fab x => some ⟨e.1, causeType, BitVec.ofNat 64 x, 0, none⟩
      | _ => none
    if !(r.1 ++ far).isEmpty then .fault s (mergeFaults (r.1 ++ far) true false)
    else if v.full 1 then .hold s .held
    else
      let accs := r.2.filterMap fun e => match e.2 with
        | .mem va x => some (⟨e.1, BitVec.ofNat 64 va, .pa x.pa, 4, [], none⟩ : Access)
        | _ => none
      .done (((s.rememberAll v.crew r.2).pendEngine v [.v d.toNat, .p p.toNat]).addEngine v 1
        (.gred gop d.toNat p.toNat (v.w.unexited 0xFF) accs []))

/-- `gred.add` (R358). -/
def execGredAdd (d a : BitVec 7) (b : BitVec 4) (p : BitVec 3) (u : BitVec 1) (s : State) :
    Host.Outcome State Fault Refusal := gredWord 0 d a b p u s
/-- `gred.min` (R358). -/
def execGredMin (d a : BitVec 7) (b : BitVec 4) (p : BitVec 3) (u : BitVec 1) (s : State) :
    Host.Outcome State Fault Refusal := gredWord 1 d a b p u s
/-- `gred.max` (R358). -/
def execGredMax (d a : BitVec 7) (b : BitVec 4) (p : BitVec 3) (u : BitVec 1) (s : State) :
    Host.Outcome State Fault Refusal := gredWord 2 d a b p u s

/-- An element of a gather-reduce is read at its home, unless its line is leased or its unit runs a program. -/
def State.gredRead (s : State) (o : Op) (gop d p : Nat) (alive : LaneMask) (left : List Access) (got : List (Nat × Nat)) :
    State :=
  match left.drop (s.freeBelow 0 left.length) with
  | [] => s
  | x :: _ =>
    match x.place with
    | .pa pa =>
      let key := bankKey pa
      if s.leased pa || (s.unitAt (key / 32) (key % 32)).isSome then s
      else if s.uncorrectable pa 4 then
        if !s.oldest o then s else (s.retire o).lateFault o { cause := causeData, lanes := maskOf (· == x.lane), addr := x.addr }
      else
        let rest := left.filter fun y => y.lane != x.lane
        s.putOp { o with kind := .gred gop d p alive rest (insertRead (32 * key + x.lane, leNat (s.bytes pa 4)) got) }
    | _ => s

/-- GRED_RETIRE: an element is read, or, when all are, the partials are written to the lanes and the predicate and the
operation retires in the order of its class (R355, R358, R359). -/
def execGredRetire (op : Nat) (s : State) : Host.Outcome State Fault Refusal :=
  .next (match s.op op with
    | none => s
    | some o =>
      match o.kind with
      | .gred gop d p alive left got =>
        if !left.isEmpty then if s.fenced o then s else s.gredRead o gop d p alive left got
        else if !s.oldest o then s
        else
          let r := gredFold o.src.mode gop none got
          (s.mapWarp o.src.warp fun w =>
            ((w.writeLanes (modeType o.src.mode) false d alive fun n => r.1.getD n 0).setP p alive
              (maskOf fun n => decide (n < r.1.length))).raiseExc r.2.once).retire o
      | _ => s)

end Sys2Proof.Machine
end

