-- ==== Sys2Proof/Machine/Launch.lean ====
section
/-! DEFINITION. Launches: the `launch` word, the checks of a record, hardware queues and their settings, dispatch, and
completion (R37 to R42, R45, R50, R362, R363, R386). -/

namespace Sys2Proof.Machine

/-! ## Barrier objects that the scheduler uses -/

/-- The barrier object at an address of a context, when it translates to a PLAIN page with the permissions asked for and
holds one: its physical address and fields (R39, R40, R50). -/
def State.barObject (s : State) (ctx va : Nat) (write : Bool) : Option (Nat × Abar) :=
  if va % 16 ≠ 0 || isMap va || decide (2 ^ 57 ≤ va) then none
  else match s.walkCtx ctx va with
    | none => none
    | some x =>
      let a := abarOf (s.bytes x.pa 16)
      if !x.leaf.rd || (write && !x.leaf.wr) || x.leaf.typeCode != 0 || !x.leaf.leafOk x.log || !s.keyOk ctx x.leaf.key ||
          s.uncorrectable x.pa 16 || a.tag != abarTag then none
      else some (x.pa, a)

/-- The record of a DONE address at which no arrival could be made (R50): the scheduler wrote it (R56). -/
def State.depRecord (s : State) (done : Nat) : FaultRecord :=
  { cause := causeDep, noRegion := true, origin := 3, addr := BitVec.ofNat 64 done, time := s.time }

/-- The arrival at DONE of launch number `k`, which has ended (R40, R45, R50); `none` while the object's line is under a lease or its
token is out. -/
def State.arriveDone (s : State) (k : Nat) (l : Launch) : Option State :=
  if l.done = 0 then some s
  else match s.barObject l.ctx l.done true with
    | none => some (s.postFault l.ctx (s.depRecord l.done))
    | some (pa, a) => 
      if s.outsideFree pa (agentOf k) then some (s.outsideWrite 0 pa (a.arrive 1).bytes (agentOf k)) else none

/-! ## STATUS (R37, R39) -/

/-- The physical address of a launch's STATUS. -/
def State.statusAt (s : State) (l : Launch) : Option Nat := (s.walkCtx l.ctx (l.record + 2)).map (·.pa)

/-- May STATUS of launch number `k` be written now (R205, R206)? -/
def State.statusFree (s : State) (k : Nat) (l : Launch) : Bool :=
  ((s.statusAt l).map fun pa => s.outsideFree pa (agentOf k)).getD true

/-- May a crew of a launch start: may the STATUS that the first of them writes be written now? -/
def State.startFree (s : State) (k : Nat) (l : Launch) : Bool := l.status != 1 || s.statusFree k l

/-- Ask for the tokens that writing STATUS needs. -/
def State.statusAsk (s : State) (k : Nat) (l : Launch) : State :=
  ((s.statusAt l).map fun pa => s.outsideAsk pa (agentOf k)).getD s

/-- Write STATUS of launch number `k`, leaving the tokens free that the writer holds. -/
def State.tellStatus (s : State) (k : Nat) (l : Launch) (code who : Nat) : State :=
  let s1 := s.writeStatus k code
  ((s.statusAt l).map fun pa => s1.outsideWrite 0 pa [] who).getD s1

/-- Write the line that holds STATUS to DRAM, where every observer sees it (R45). -/
def State.flushStatus (s : State) (l : Launch) : State :=
  match s.statusAt l with
  | none => s
  | some pa => if (Tab.lookup (pa / 256) s.unflushed).isSome then s.flushLine (pa / 256) else s

/-! ## The checks (R37, R40, R43) -/

/-- Is a reserved field nonzero, or a field out of its range? -/
def Launch.badField (l : Launch) : Bool :=
  let w := fun (i lo n : Nat) => bitsOf (l.words.getD i 0).toNat lo n
  w 0 0 8 != 0 || w 1 0 6 != 0 || w 3 0 9 != 0 || w 12 0 16 != 0 || w 13 0 32 != 0 ||
    decide (l.warps = 0 ∨ 48 < l.warps) || w 1 17 4 == 15 || decide (32 < l.spad) || decide (16 < l.nbrec) ||
    bitsOf l.entry 57 7 != 0 || l.entry % 4 != 0 || l.uregAt % 8 != 0 || l.brecAt % 16 != 0 || !l.brec.all recordOk

/-- The first STATUS of a record: QUEUED, or the first refusal in the order of R40. -/
def State.firstStatus (s : State) (l : Launch) : Nat :=
  let q := Tab.get LaunchQueue.free s.queues l.queue
  let g := s.group l.fgroup
  if l.badField then 0x8003
  else if q.owner != some l.ctx || !q.enabled then 0x8005
  else if 64 ≤ q.waiting.length then 0x8004
  else if 16 < l.crews then 0x8001
  else if 768 < (l.warps + 3) / 4 * l.regs then 0x8002
  else if l.fgroup != 0 && !(g.valid && g.ctx == l.ctx) then 0x8006
  else 1

/-- Submit a copied record: its first STATUS is written, and it stands in its queue when it is accepted.  A refused one is
kept until it has arrived at DONE. -/
def State.submit (s : State) (l : Launch) (who : Nat) : State × Nat :=
  let stopped := ((Tab.lookup l.ctx s.ctxs).map fun c => c.state == .stopped).getD false
  let code := if stopped then 0x8008 else s.firstStatus l
  let k := s.nextId
  let q := Tab.get LaunchQueue.free s.queues l.queue
  let s1 : State := { s with launches := Tab.put k l s.launches, nextId := k + 1 }
  let s2 := s1.tellStatus k l code who
  (if code = 1 then { s2 with queues := Tab.put l.queue { q with waiting := q.waiting ++ [k] } s2.queues }
   else if code = 0x8008 || l.done = 0 then { s2 with launches := Tab.erase k s2.launches }
   else s2, code)

/-- Numbers of `size` bytes each. -/
def numbersOf (size n : Nat) (bs : List (BitVec 8)) : List Nat :=
  (List.range n).map fun i => leNat ((bs.drop (size * i)).take size)

/-- A launch as its record and the values that it names give it. -/
def launchOf (ctx va : Nat) (words : List Word) (ureg brec : List (BitVec 8)) : Launch :=
  let l : Launch := ⟨ctx, va, words, [], [], 0, 0, none, []⟩
  { l with
    ureg := (numbersOf 8 (ureg.length / 8) ureg).map (BitVec.ofNat 64)
    brec := (numbersOf 16 (brec.length / 16) brec).map (BitVec.ofNat 128) }

/-- The sixteen words of a record. -/
def State.recordWords (s : State) (pa : Nat) : List Word := (List.range 16).map fun i => s.word (pa + 4 * i)

/-- The range of the UREG values of a record, or of its BREC records, when they are read (R37, R362). -/
def Launch.uregSpan (l : Launch) : Nat × Nat := (l.uregAt, if l.uregAt % 8 = 0 then 8 * l.nureg else 0)
def Launch.brecSpan (l : Launch) : Nat × Nat :=
  (l.brecAt, if l.brecAt % 16 = 0 ∧ l.nbrec ≤ 16 then 16 * l.nbrec else 0)

/-- The first byte of pages (virtual and physical address, length) in a granule with an uncorrectable error. -/
def State.firstBadByte (s : State) (l : List (Nat × Nat × Nat)) : Option Nat :=
  l.findSome? fun p => ((List.range p.2.2).find? fun i => s.uncorrectable (p.2.1 + i) 1).map (p.1 + ·)

/-- The bytes of pages. -/
def State.pageBytes (s : State) (l : List (Nat × Nat × Nat)) : List (BitVec 8) := l.flatMap fun p => s.bytes p.2.1 p.2.2

/-- `launch` on a record at a virtual and a physical address, its release having taken effect (R37, R362). -/
def View.launchAt (v : View) (s : State) (d va : Nat) (x : Xlat) : Res :=
  let pa := x.pa
  let words := s.recordWords pa
  let l := launchOf v.crew.ctx va words [] []
  let u := s.regionPages v false 3 l.uregSpan.1 l.uregSpan.2
  let r := s.regionPages v false 3 l.brecSpan.1 l.brecSpan.2
  if s.uncorrectable pa 64 then .fault s { cause := causeData, lanes := v.act, addr := BitVec.ofNat 64 va }
  else if !(u.2 ++ r.2).isEmpty then .fault s (v.pagesFault (u.2 ++ r.2) false)
  else
    match s.firstBadByte (u.1 ++ r.1) with
    | some y => .fault s { cause := causeData, lanes := v.act, addr := BitVec.ofNat 64 y }
    | none =>
      let who := agentOf (v.limit s)
      if !s.outsideFree pa who then v.holdAt (s.outsideAsk pa who) .held
      else
        let s2 := ((s.rememberAll v.crew [(0, .mem va x)]).rememberPages v (u.1 ++ r.1)).submit
          (launchOf v.crew.ctx va words (s.pageBytes u.1) (s.pageBytes r.1)) who
        .done ((s2.1.addOp v.src (.result [.s d (BitVec.ofNat 64 s2.2)] Exc.none) true false).endRegion v)

/-- `launch sD, [bN, sA]` (R362, R363). -/
def execLaunch (d a : BitVec 7) (b : BitVec 4) (s : State) : Host.Outcome State Fault Refusal :=
  issueWord (fun _ => { reads := [.s a.toNat, .b b.toNat], writes := [.s d.toNat], long := true }) (fun v s =>
    v.afterRelease s 0x3F .held fun s =>
      match v.uniformReach s (bufOf (v.w.breg b.toNat)) 64 true true .plain (loWord (v.w.sreg a.toNat)).toNat with
      | .error x => .fault s x
      | .ok r =>
        match r with
        | .mem va x => v.launchAt s d.toNat va x
        | _ => .fault s { cause := causeType, lanes := v.act, addr := BitVec.ofNat 64 r.addr }) s

/-- The pages of a range of a context, when Gallery can read all of it as PLAIN memory, and write it where asked. -/
def State.plainSpan (s : State) (ctx : Nat) (write : Bool) : Nat → Nat → Nat → Option (List (Nat × Nat × Nat))
  | 0, _, n => if n = 0 then some [] else none
  | fuel + 1, a, n =>
    if n = 0 then some []
    else if isMap a || decide (2 ^ 57 ≤ a) then none
    else match s.walkCtx ctx a with
      | none => none
      | some x =>
        let m := Nat.min n (2 ^ x.log - a % 2 ^ x.log)
        if !x.leaf.rd || (write && !x.leaf.wr) || x.leaf.typeCode != 0 || !x.leaf.leafOk x.log || !s.keyOk ctx x.leaf.key ||
            s.uncorrectable x.pa m then
          none
        else (s.plainSpan ctx write fuel (a + m) (n - m)).map fun l => (a, x.pa, m) :: l

/-- HOST_LAUNCH_SUBMIT: a launch of the host reaches its queue through Gallery's request region and follows the same rules
(R41).  Nothing happens while its record cannot be read and written, or its values cannot be read. -/
def execHostLaunchSubmit (ctx record : Nat) (s : State) : Host.Outcome State Fault Refusal :=
  .next (
    if record % 64 ≠ 0 then s
    else match s.plainSpan ctx true 1 record 64 with
      | some [(_, pa, _)] =>
        let l := launchOf ctx record (s.recordWords pa) [] []
        match s.plainSpan ctx false 3 l.uregSpan.1 l.uregSpan.2, s.plainSpan ctx false 3 l.brecSpan.1 l.brecSpan.2 with
        | some u, some r =>
          if s.outsideFree pa then (s.submit (launchOf ctx record (s.recordWords pa) (s.pageBytes u) (s.pageBytes r)) outsider).1
          else s.outsideAsk pa
        | _, _ => s
      | _ => s)

/-! ## What Gallery sets (R41, R44, R49, R57, R188, R191, R386) -/

/-- QUEUE_CONFIG: owner, class and enable of a hardware queue; launches in it stay (R41, R50). -/
def execQueueConfig (queue owner cls : Nat) (enable : Bool) (s : State) : Host.Outcome State Fault Refusal :=
  .next (
    if 256 ≤ queue ∨ 4 ≤ cls then s
    else
      let q := Tab.get LaunchQueue.free s.queues queue
      { s with queues := Tab.put queue { q with owner := some owner, cls := cls, enabled := enable } s.queues })

/-- Is a setting one that a queue of records of `size` bytes may have: base aligned, a power of two of slots from 64 to
64 × 2^k? -/
def queueGood (size k : Nat) (q : QueueSetting) : Bool :=
  q.base % size == 0 && (List.range (k + 1)).any fun i => q.slots == 64 * 2 ^ i

/-- A queue at its new place, with the records that it still holds back. -/
def queueOf (q : QueueSetting) (old : Option RecordQueue) : RecordQueue :=
  ⟨q.base, q.slots, 0, (old.map (·.held)).getD []⟩

/-- Has a context all four queues (R386)? -/
def Context.queuesSet (c : Context) : Bool :=
  c.faultQ.isSome && c.eventQ.isSome && c.statusQ.isSome && c.requestQ.isSome

/-- CONTEXT_QUEUES_SET: Gallery sets a context's four queues, or moves them while the context is descheduled (R57, R258,
R324, R367, R386). -/
def execContextQueuesSet (ctx : Nat) (fault event status request : QueueSetting) (s : State) :
    Host.Outcome State Fault Refusal :=
  .next (s.mapCtx ctx fun c =>
    if (c.queuesSet && c.state != .descheduled) || !(queueGood 64 10 fault && queueGood 32 10 event && queueGood 64 10 status &&
        queueGood 32 6 request) then c
    else { c with faultQ := some (queueOf fault c.faultQ), eventQ := some (queueOf event c.eventQ),
                  statusQ := some (queueOf status c.statusQ), requestQ := some (queueOf request c.requestQ) })

/-- CONTEXT_SETTINGS: Gallery creates a context, or changes its table, weight, allowed drifts, privileged mark and rank. -/
def execContextSettings (ctx : Nat) (setting : ContextSetting) (s : State) : Host.Outcome State Fault Refusal :=
  .next (
    if setting.weight < 1 ∨ 15 < setting.weight ∨ 65536 ≤ ctx ∨ setting.root % 8192 ≠ 0 then s
    else
      let c := (Tab.lookup ctx s.ctxs).getD Context.fresh
      { s with ctxs := Tab.put ctx { c with root := setting.root, weight := setting.weight, drifts := setting.drifts,
                                            privileged := setting.privileged, rank := setting.rank } s.ctxs })

/-- CONTEXT_STOP (R50, R51). -/
def execContextStop (ctx : Nat) (s : State) : Host.Outcome State Fault Refusal := .next (s.stopContext ctx)

/-- CONTEXT_RESUME: Gallery resumes a descheduled context (R51, R356). -/
def execContextResume (ctx : Nat) (s : State) : Host.Outcome State Fault Refusal :=
  .next (s.mapCtx ctx fun c => if c.state == .descheduled then { c with state := .running } else c)

/-! ## Dispatch (R42, R333, R386) -/

/-- Does another launch of the context that names the same group run (R333)? -/
def State.groupInUse (s : State) (l : Launch) : Bool :=
  l.fgroup != 0 && s.launches.any fun e => e.2.ctx == l.ctx && e.2.fgroup == l.fgroup && e.2.dispatched.isSome && !e.2.ended

/-- Move a launch from the head of its queue to the placement list of the queue's class. -/
def State.dispatch (s : State) (queue : Nat) (q : LaunchQueue) (k : Nat) (l : Launch) : State :=
  { s with
    queues := Tab.put queue { q with waiting := q.waiting.drop 1 } s.queues
    launches := Tab.put k { l with cls := q.cls, dispatched := some s.nextId } s.launches
    placement := s.placement.set q.cls (s.placement.getD q.cls [] ++ (List.range l.groups).map fun g => (k, g))
    nextId := s.nextId + 1 }

/-- QUEUE_DISPATCH: the head of an enabled queue is dispatched when its dependence is satisfied, or ends with DEP_FAULT.  DEP is judged
anew each time that the head is examined, so that an object that was good when the launch came to the head and is none later gives
DEP_FAULT too, where R42 speaks of reaching the head: the model's choice (notes/assumptions/42). -/
def execQueueDispatch (queue : Nat) (s : State) : Host.Outcome State Fault Refusal :=
  .next (
    let q := Tab.get LaunchQueue.free s.queues queue
    match q.waiting with
    | [] => s
    | k :: _ =>
      match Tab.lookup k s.launches with
      | none => s
      | some l =>
        let ready := ((Tab.lookup l.ctx s.ctxs).map fun c => c.queuesSet && c.state != .stopped).getD false
        if !q.enabled || !ready || s.groupInUse l then s
        else if l.dep = 0 then s.dispatch queue q k l
        else match s.barObject l.ctx l.dep false with
          | some (_, a) => if a.reached l.phase then s.dispatch queue q k l else s
          | none =>
            if !s.statusFree k l then s.statusAsk k l
            else
              let s1 := s.tellStatus k l 0x8007 (agentOf k)
              let s2 : State := { s1 with queues := Tab.put queue { q with waiting := q.waiting.drop 1 } s1.queues }
              if l.done = 0 then { s2 with launches := Tab.erase k s2.launches } else s2)

/-! ## Completion (R40, R45) -/

/-- The crews of a launch, with their numbers. -/
def State.crewsOf (s : State) (k : Nat) : Tab Crew := s.crews.filter fun e => e.2.launch == k

/-- Have all crews of a launch started and exited, with nothing of theirs outstanding? -/
def State.launchOver (s : State) (k : Nat) (l : Launch) : Bool :=
  let cs := s.crewsOf k
  let mine := fun (warp : Nat) => cs.any fun c => c.1 == warp / 64
  !(s.placement.any fun p => p.any fun g => g.1 == k) && cs.length == l.groups * l.crews &&
    (cs.all fun c => c.2.state == .exited && c.2.engine.all (·.done)) && !(s.ops.any fun o => mine o.src.warp)

/-- Has every line that a warp of a launch wrote reached DRAM (R45, observer S)? -/
def State.launchFlushed (s : State) (k : Nat) : Bool :=
  s.unflushed.all fun e => e.2.all fun w => !((s.crewsOf k).any fun c => c.1 == w / 64 && decide (64 ≤ w))

/-- LAUNCH_COMPLETION: when its crews have exited and its writes are visible, STATUS becomes DONE and the launch arrives
once at DONE; a refused launch arrives once STATUS is visible. -/
def execLaunchCompletion (launch : Nat) (s : State) : Host.Outcome State Fault Refusal :=
  .next (match Tab.lookup launch s.launches with
    | none => s
    | some l =>
      let finish := fun (s : State) =>
        match s.arriveDone launch l with
        | some s1 => ({ s1 with launches := Tab.erase launch s1.launches } : State)
        | none => s.outsideAsk (((s.barObject l.ctx l.done true).map (·.1)).getD 0) (agentOf launch)
      if 0x8001 ≤ l.status ∧ l.status ≤ 0x8007 then finish (s.flushStatus l)
      else if l.status = 3 then finish s
      else if l.status = 2 ∧ s.launchOver launch l then
        let s1 := (s.crewsOf launch).foldl (fun s c => if c.2.image.isNone then s.writeBack c.2.core fun _ => true else s) s
        if !s1.launchFlushed launch then s1
        else if !s1.statusFree launch l then s1.statusAsk launch l
        else finish ((s1.tellStatus launch l 3 (agentOf launch)).flushStatus l)
      else s)

end Sys2Proof.Machine
end

