-- ==== Sys2Proof/Machine/Place.lean ====
section
/-! DEFINITION. Crews on cores: placement (R34, R38, R43, R44), the cage reservation (R46), partial eviction and return
(R63 to R65), whole-drift swaps, images and migration (R66 to R68), shootdown (R70), and the end of a context (R375). -/

namespace Sys2Proof.Machine

/-! ## Free cores (R44, R46) -/

/-- Is a drift among the last `n` of its die, which are those that the cage takes (notes/assumptions/20)? -/
def lastDrifts (drift n : Nat) : Bool := decide (16 ≤ drift % 16 + n)

/-- Is a drift reserved for the cage? -/
def State.caged (s : State) (drift : Nat) : Bool := lastDrifts drift (s.cage.getD (drift / 16) 0)

/-- Is it, or is it being added: then it receives no new crew (R46)? -/
def State.closed (s : State) (drift : Nat) : Bool := s.caged drift || lastDrifts drift (s.cageGoal.getD (drift / 16) 0)

/-- Does a crew still hold something on its core: warps, or the scratchpad that its group may read (R35, R44, R50)?  An exited
crew without scratchpad holds nothing: the model's choice, where R50 names no scratchpad and R44 only that
(notes/assumptions/42). -/
def State.occupies (s : State) (c : Crew) : Bool :=
  match c.state with
  | .resident => true
  | .evicted => false
  | .exited => decide (0 < c.spadMacros) && c.image.isNone && !s.groupGone c &&
      !((Tab.lookup c.ctx s.ctxs).map fun x => x.state == .stopped).getD true

/-- Does a core stand at a place outside the cage and hold no crew and no scratchpad? -/
def State.coreFree (s : State) (core : Nat) : Bool :=
  decide (s.placeOf core < 1024) && s.coreAt (s.placeOf core) == core && !s.caged (s.driftAt core) &&
    !s.crews.any fun e => e.2.core == core && s.occupies e.2

/-- The cores of a drift. -/
def State.coresOf (s : State) (drift : Nat) : List Nat := (List.range 16).map fun i => s.coreAt (16 * drift + i)

/-- The number of free cores of a drift. -/
def State.freeCores (s : State) (drift : Nat) : Nat := ((s.coresOf drift).filter s.coreFree).length

/-- The drifts in which a context may place new crews. -/
def State.allowed (s : State) (ctx : Nat) : List Nat :=
  (List.range 64).filter fun d => !s.closed d && ((Tab.lookup ctx s.ctxs).map fun c => c.drifts.contains d).getD false

/-- The allowed drift with the most free cores, the lowest among equals. -/
def State.bestDrift (s : State) (ctx : Nat) : Option Nat :=
  ((s.allowed ctx).foldl (fun (b : Option (Nat × Nat)) d =>
    let n := s.freeCores d
    if n = 0 then b
    else match b with
      | none => some (n, d)
      | some (m, e) => if m < n then some (n, d) else some (m, e)) none).map (·.2)

/-- The head of the placement list of the highest class that has one: class, launch, group. -/
def State.head (s : State) : Option (Nat × Nat × Nat) :=
  (List.range 4).findSome? fun k => ((s.placement.getD k []).head?).map fun g => (k, g)

/-! ## Room on a core (R43, R48) -/

/-- The warps that hold registers of a quadrant of a core. -/
def State.inQuad (s : State) (core quad : Nat) : List (Nat × Warp) :=
  s.warps.filter fun e => e.2.id % 4 == quad && !e.2.evicted && !e.2.retired &&
    ((Tab.lookup e.2.crew s.crews).map fun c => c.core == core && c.state == .resident).getD false

/-- Do `n` more warps with `rows` registers each fit into a quadrant: 768 rows and 12 warps? -/
def State.quadFits (s : State) (core quad n rows : Nat) : Bool :=
  let l := s.inQuad core quad
  decide ((l.map fun e => e.2.nregs).sum + n * rows ≤ 768 ∧ l.length + n ≤ 12)

/-- How many of the warps of a launch run in a quadrant. -/
def Launch.inQuad (l : Launch) (quad : Nat) : Nat := ((List.range l.warps).filter fun w => w % 4 == quad).length

/-- Does a crew of a launch fit on a core beside the warps there? -/
def State.crewFits (s : State) (core : Nat) (l : Launch) : Bool :=
  (List.range 4).all fun q => s.quadFits core q (l.inQuad q) l.regs

/-! ## Starting a crew (R14, R38) -/

/-- The lanes of a slice that a warp of `n` lanes has not. -/
def exitedLanes (n k : Nat) : BitVec 4 :=
  (List.range 4).foldl (fun m i => if n ≤ 4 * k + i then m ||| BitVec.ofNat 4 (2 ^ i) else m) 0

/-- A slice of a warp of `n` lanes at launch. -/
def sliceAt (n k : Nat) : Slice := ⟨~~~ exitedLanes n k, exitedLanes n k, [], [], none, 0⟩

/-- A table of the values of a list that are not zero. -/
def tableOf {w : Nat} (l : List (BitVec w)) : Tab (BitVec w) :=
  (l.mapIdx fun i x => (i, x)).filter fun e => e.2 != 0

/-- Warp `id` of a launch at its start. -/
def Warp.launched (crew id : Nat) (l : Launch) : Warp :=
  { Warp.blank with
    crew := crew
    id := id
    lanes := l.lanes
    nregs := l.regs
    s := tableOf l.ureg
    b := tableOf l.brec
    slices := (List.range 8).map (sliceAt l.lanes)
    frags := [Frag.start (sliceMaskOf fun k => (sliceAt l.lanes k).xm != 0xF) (BitVec.ofNat 64 l.entry) 0]
    origLane := Lanes.ofFn fun n => BitVec.ofNat 32 (32 * id + n) }

/-- The step that an earlier crew of the same participant had reached in each group, as the step of every warp: a warp that
exited counts as having issued the steps of the others (R333, R334). -/
def State.stepsSoFar (s : State) (ctx row col : Nat) : Tab Nat :=
  let t := ((s.crews.filter fun e => e.2.ctx == ctx && e.2.row == row && e.2.col == col).getLast?.map fun e => e.2.steps).getD []
  t.foldl (fun u e => (List.range 64).foldl (fun u w =>
    let k := 64 * (e.1 / 64) + w
    Tab.put k (Nat.max e.2 (Tab.get 0 u k)) u) u) []

/-- Has a context a warp on a core? -/
def State.onCore (s : State) (ctx core : Nat) : Bool :=
  (List.range 4).any fun q => (s.inQuad core q).any fun e => s.ctxOfCrew e.2.crew == ctx

/-- A context comes to a core: unless it has a warp there, its credit is zero (R49). -/
def State.freshCredit (s : State) (core ctx : Nat) : State :=
  if s.onCore ctx core then s else s.mapCore core fun q => { q with credit := Tab.erase ctx q.credit }

/-- A crew comes to a core: the first-level cache and the operand stage are empty. -/
def State.arriveAt (s : State) (core ctx : Nat) : State :=
  ((s.freshCredit core ctx).invalidate core).mapCore core fun q => { q with stage := [] }

/-- Start crew `i` of group `g` of a launch on a core. -/
def State.startCrew (s : State) (k : Nat) (l : Launch) (g i core : Nat) : State :=
  let n := s.nextId
  let row := (l.row0 + g) % 65536
  let crew : Crew :=
    { Crew.blank with
      ctx := l.ctx, launch := k, group := g, idx := i, row := row, col := i, cls := l.cls, core := core, placed := n,
      spadMacros := l.spad, steps := s.stepsSoFar l.ctx row i }
  let s1 := s.arriveAt core l.ctx
  let s2 : State :=
    { s1 with
      crews := Tab.put n crew s1.crews
      warps := (List.range l.warps).foldl (fun t w => Tab.put (64 * n + w) (Warp.launched n w l) t) s1.warps
      nextId := n + 1 }
  if l.status = 1 then s2.tellStatus k l 2 (agentOf k) else s2

/-- A group starts: it leaves the placement list of class `cls`, and its drift is fixed. -/
def State.startGroup (s : State) (cls k : Nat) (l : Launch) (g drift : Nat) : State :=
  { s with
    placement := s.placement.set cls ((s.placement.getD cls []).drop 1)
    launches := Tab.put k { l with drift := Tab.put g drift l.drift } s.launches }

/-- The number of crews of a group that have started. -/
def State.started (s : State) (k g : Nat) : Nat := (s.crews.filter fun e => e.2.launch == k && e.2.group == g).length

/-- The groups that have started in a drift and are not complete: order of dispatch, group, launch. -/
def State.incomplete (s : State) (drift : Nat) : List (Nat × Nat × Nat) :=
  s.launches.flatMap fun e =>
    if e.2.ended then []
    else (e.2.drift.filter fun d => d.2 == drift && decide (s.started e.1 d.1 < e.2.crews)).map fun d =>
      (e.2.dispatched.getD 0, d.1, e.1)

/-- The least of a list of such groups. -/
def earliest (l : List (Nat × Nat × Nat)) : Option (Nat × Nat × Nat) :=
  l.foldl (fun b x => match b with
    | none => some x
    | some y => if x.1 < y.1 ∨ (x.1 = y.1 ∧ x.2.1 < y.2.1) then some x else some y) none

/-- The drift in which the group of a crew lives (R44). -/
def State.home (s : State) (c : Crew) : Option Nat := (Tab.lookup c.launch s.launches).bind fun l => Tab.lookup c.group l.drift

/-- The crews of a drift that were evicted whole and wait to return, a drift swap's aside. -/
def State.returning (s : State) (drift : Nat) : Tab Crew :=
  s.crews.filter fun e => e.2.state == .evicted && s.home e.2 == some drift &&
    (e.2.image.bind fun i => Tab.lookup i s.images).any fun i => i.drift.isNone

/-- CREW_PLACEMENT: a free core is offered by the rules of R44.  A crew that returns comes by EVICTED_RESTORE.  A drift that is
being added to the cage still takes the rest of its started groups, which are no new crews (R34, R46); so does one that Gallery
has since taken from the drifts that the context is allowed, the model's choice (notes/assumptions/42). -/
def execCrewPlacement (core : Nat) (s : State) : Host.Outcome State Fault Refusal :=
  .next (
    let drift := s.driftAt core
    if !s.coreFree core || !(s.returning drift).isEmpty then s
    else match earliest (s.incomplete drift) with
      | some (_, g, k) =>
        match Tab.lookup k s.launches with
        | none => s
        | some l => if s.startFree k l then s.startCrew k l g (s.started k g) core else s.statusAsk k l
      | none =>
        match s.head with
        | none => s
        | some (cls, k, g) =>
          match Tab.lookup k s.launches with
          | none => s
          | some l =>
            if s.bestDrift l.ctx != some drift then s
            else if !s.startFree k l then s.statusAsk k l
            else
              let l1 := { l with drift := Tab.put g drift l.drift }
              (s.startGroup cls k l g drift).startCrew k l1 g 0 core)

/-! ## The cage reservation (R46) -/

/-- The drifts that a change of a die's reservation concerns. -/
def cageDrifts (die a b : Nat) : List Nat :=
  (List.range 16).filterMap fun i => if 16 ≤ i + Nat.max a b ∧ i + Nat.min a b < 16 then some (16 * die + i) else none

/-- CAGE_RESERVATION_CHANGE: Gallery sets what a die reserves; the change is made when the drifts concerned hold no crew and none
that lives there is out (notes/assumptions/20), and from the moment of the change a drift that is being added receives no new
one. -/
def execCageReservationChange (die drifts : Nat) (s : State) : Host.Outcome State Fault Refusal :=
  .next (
    if 4 ≤ die ∨ 4 < drifts then s
    else
      let busy := (cageDrifts die (s.cage.getD die 0) drifts).any fun d =>
        s.crews.any fun e => if e.2.state == .evicted then s.home e.2 == some d else s.driftAt e.2.core == d && s.occupies e.2
      let s1 : State := { s with cageGoal := s.cageGoal.set die drifts }
      if busy then s1 else { s1 with cage := s1.cage.set die drifts })

/-! ## Eviction (R63 to R65) -/

/-- Does a completion flag of a slice allow eviction: clear, or set only for an outstanding `sys`? -/
def State.flagAllows (s : State) (k slice : Nat) (x : Slice) (n : Nat) : Bool :=
  !x.flags.getLsbD n ||
    (s.flagTied k slice n && s.ops.all fun o =>
      !(o.src.warp == k && o.src.slices.getLsbD slice && o.src.flag == n && !o.completed) || match o.kind with
        | .sys .. => true
        | _ => false)

/-- May a warp be evicted: at a clause boundary, with oc.cp, oc.gr, oc.st and oc.fb at zero and its flags clear? -/
def State.evictable (s : State) (k : Nat) (w : Warp) : Bool :=
  w.retired || ((w.frags.all fun f => f.clause.isNone) && w.oc.cp == 0 && w.oc.gr == 0 && w.oc.st == 0 && w.oc.fb == 0 &&
    (List.range 8).all fun i => (List.range 12).all fun n => s.flagAllows k i (w.slice i) n)

/-- May a crew be saved: every warp may, and every operation of its engine has been performed, members of sets that are
not formed aside (R292)? -/
def State.crewSavable (s : State) (k : Nat) (c : Crew) : Bool :=
  ((s.warpsOf k).all fun e => e.2.evicted || s.evictable e.1 e.2) && c.engine.all fun m =>
    m.done || match m.kind with
      | .mmaq _ _ _ _ l _ => l.isEmpty
      | _ => false

/-- Every token of a core is released, its dirty words going home (R200, R205). -/
def State.releaseTokens (s : State) (core : Nat) : State :=
  s.ctxs.foldl (fun s e => (List.range e.2.tokens.length).foldl (fun s r =>
    if (s.tokenRegion e.1 r).any fun t => t.holder == some core then s.passToken e.1 r s.nextId true else s) s) s

/-- Does a core hold a token? -/
def State.holdsAny (s : State) (core : Nat) : Bool := s.ctxs.any fun e => e.2.tokens.any fun t => t.holder == some core

/-- A core's first-level cache and operand stage are emptied, dirty words going home, and its tokens are released. -/
def State.emptyCore (s : State) (core : Nat) : State :=
  (((s.releaseTokens core).writeBack core fun _ => true).dropSectors core fun _ => true).mapCore core fun q =>
    { q with stage := [] }

/-- Bytes of a crew's share of an image (R66). -/
def State.shareSize (s : State) (k : Nat) (c : Crew) : Nat :=
  ((s.warpsOf k).map fun e => if e.2.retired then 0 else e.2.nregs * 128).sum +
    c.spadMacros * 16384 + if c.spadMacros = 0 then 0 else 262144

/-- Shadow storage of a die, and what images take of it (R67). -/
def shadowBytes : Nat := 64 * 2 ^ 20
def State.shadowUsed (s : State) (die : Nat) : Nat :=
  (s.images.map fun e => if e.2.die = die ∧ e.2.shadow then e.2.size else 0).sum

/-- The physical core behind a virtual core of a context, by the context's table (R4): the core at that place where the table
lists none. -/
def State.physOf (s : State) (ctx virt : Nat) : Nat :=
  ((Tab.lookup ctx s.ctxs).bind fun c => Tab.lookup virt c.cores).getD (s.coreAt virt)

/-- The virtual core of a context that a physical one stands for. -/
def State.virtOf (s : State) (ctx core : Nat) : Nat :=
  (((Tab.lookup ctx s.ctxs).bind fun c => c.cores.find? fun e => e.2 == core).map (·.1)).getD (s.placeOf core)

/-- Gallery writes a context's table: a virtual core stands for a physical one, and the virtual core that did takes the other in
exchange (R4, R68). -/
def State.bindCore (s : State) (ctx virt core : Nat) : State :=
  let old := s.physOf ctx virt
  if old = core then s
  else
    let u := s.virtOf ctx core
    s.mapCtx ctx fun c => { c with cores := Tab.put virt core (Tab.put u old c.cores) }

/-- Crews go into a new image: shadow storage when there is room, else the context's save area.  The image names their cores as
virtual ones (R68). -/
def State.saveCrews (s : State) (die : Nat) (drift : Option Nat) (ks : List Nat) : State :=
  let n := s.nextId
  let size := (ks.map fun k => ((Tab.lookup k s.crews).map (s.shareSize k)).getD 0).sum
  { s with
    images := Tab.put n ⟨die, size, decide (s.shadowUsed die + size ≤ shadowBytes), drift,
      ks.map fun k => (k, s.placeOf (((Tab.lookup k s.crews).map (·.core)).getD 0) % 16), false⟩ s.images
    crews := Tab.mapVals (fun k c => if !ks.contains k then c else
      { c with state := if c.state == .exited then .exited else .evicted, core := s.virtOf c.ctx c.core, image := some n }) s.crews
    nextId := n + 1 }

/-- Put a warp out. -/
def State.evictWarp (s : State) (k : Nat) : State := s.mapWarp k fun w => { w with evicted := true }

/-- Is `a` a better victim than `b` (R63): the numerically higher class, then placed later? -/
def worseCrew (a b : Nat × Crew) : Bool := decide (b.2.cls < a.2.cls ∨ (a.2.cls = b.2.cls ∧ b.2.placed < a.2.placed))

/-- The quadrants of a core in which the crews of a launch find no room. -/
def State.fullQuads (s : State) (core : Nat) (l : Launch) : List Nat :=
  (List.range 4).filter fun q => !s.quadFits core q (l.inQuad q) l.regs

/-- Would it give a launch room to put warps of a crew out: the launch needs scratchpad, which moves a crew whole, or it finds room
on the crew's core already, or the crew has a warp in a quadrant without room? -/
def State.givesRoom (s : State) (k : Nat) (c : Crew) (l : Launch) : Bool :=
  decide (0 < l.spad) || (s.fullQuads c.core l).isEmpty ||
    (s.fullQuads c.core l).any fun q => (s.inQuad c.core q).any fun e => e.2.crew == k

/-- The victim for the head of class `cls`, of a launch: among the resident crews of a numerically higher class in drifts that its
context may use, which would give it room. -/
def State.victim (s : State) (cls : Nat) (l : Launch) : Option (Nat × Crew) :=
  let ds := s.allowed l.ctx
  (s.crews.filter fun e => e.2.state == .resident && decide (cls < e.2.cls) && ds.contains (s.driftAt e.2.core) &&
    ((s.warpsOf e.1).any fun w => !w.2.evicted && !w.2.retired) && s.givesRoom e.1 e.2 l).foldl (fun b e => match b with
      | none => some e
      | some x => if worseCrew e x then some e else some x) none

/-- The next warp to put out for a launch: the highest WARPID of the victim in the first quadrant without room in which it has one. -/
def State.nextOut (s : State) (k core : Nat) (l : Launch) : Option (Nat × Warp) :=
  (s.fullQuads core l).findSome? fun q => (s.inQuad core q).foldl (fun b e =>
      if e.2.crew != k then b
      else match b with
        | none => some e
        | some x => if x.2.id < e.2.id then some e else some x) none

/-- The warps of a core that were put out and whose crew is there, with their crews. -/
def State.outWarps (s : State) (core : Nat) : List (Crew × Nat × Warp) :=
  s.warps.filterMap fun e =>
    if !e.2.evicted then none
    else match Tab.lookup e.2.crew s.crews with
      | some c => if c.core = core ∧ c.state = .resident then some (c, e.1, e.2) else none
      | none => none

/-- The warps that were put out and find room on their core again. -/
def State.backWarps (s : State) (core : Nat) : List (Crew × Nat × Warp) :=
  (s.outWarps core).filter fun x => s.quadFits core (x.2.2.id % 4) 1 x.2.2.nregs

/-- PARTIAL_EVICTION: the head of the highest class finds no room, and a victim on this core gives it some: a warp goes
out, or the whole crew when the incoming one has a scratchpad, and a context that leaves the module so parks its rank (R345); as
soon as the incoming crew fits it is placed here.  Where it fits with no warp put out, warps that find room again come first
(R65).  The room that a pre-emption makes in a drift with a group that is not complete goes to the incoming crew: the model's
choice, where R34 and R63 name different ones (notes/assumptions/42). -/
def execPartialEviction (core : Nat) (s : State) : Host.Outcome State Fault Refusal :=
  .next (match s.head with
    | none => s
    | some (cls, k, g) =>
      match Tab.lookup k s.launches with
      | none => s
      | some l =>
        if (s.bestDrift l.ctx).isSome then s
        else match s.victim cls l with
          | none => s
          | some (x, c) =>
            let place := fun (s : State) =>
              if !s.crewFits core l || (decide (0 < l.spad) && s.crews.any fun e => e.2.core == core && s.occupies e.2 &&
                  decide (0 < e.2.spadMacros)) then s
              else
                let l1 := { l with drift := Tab.put g (s.driftAt core) l.drift }
                (s.startGroup cls k l g (s.driftAt core)).startCrew k l1 g 0 core
            if c.core != core then s
            else if !s.startFree k l then s.statusAsk k l
            else if 0 < l.spad then
              let t := s.emptyCore core
              if !s.crewSavable x c || t.holdsAny core then s
              else place (s.parkLeft (t.saveCrews (dieOf core) none [x]))
            else
              match s.nextOut x core l with
              | none => if (s.backWarps core).isEmpty then place s else s
              | some (n, w) =>
                if !s.evictable n w then s else place (s.parkLeft (s.evictWarp n)))

/-- Does a warp that was put out return before another: higher classes first, then the crew placed earlier, then the lower
WARPID, the reverse of the order of eviction? -/
def returnsBefore (a b : Crew × Nat × Warp) : Bool :=
  if a.1.cls != b.1.cls then decide (a.1.cls < b.1.cls)
  else if a.1.placed != b.1.placed then decide (a.1.placed < b.1.placed)
  else decide (a.2.2.id < b.2.2.id)

/-- A crew of an image comes to a core, which the table of its context names for it (R4, R68). -/
def State.loadCrew (s : State) (k : Nat) (c : Crew) (core : Nat) : State :=
  let s1 := (s.bindCore c.ctx c.core core).arriveAt core c.ctx
  { s1 with crews := Tab.put k { c with state := if c.state == .evicted then .resident else c.state, core := core,
                                        image := none } s1.crews }

/-- The registers of a warp. -/
def Warp.allRegs (w : Warp) : List Reg :=
  (List.range w.nregs).map .v ++ (List.range 8).map .p ++ (List.range 64).map .s ++ (List.range 16).map .b

/-- The reading of an image with an uncorrectable error: every fragment of the crew raises data-integrity, and its registers keep
the failing check (R71; notes/assumptions/44). -/
def State.badImage (s : State) (k : Nat) : State :=
  (s.warpsOf k).foldl (fun s e =>
    let s1 := s.mapWarp e.1 fun w => { w with bad := w.allRegs }
    e.2.frags.foldl (fun s f =>
      if e.2.retired || f.state == .done || f.state == .parked then s
      else s.takeFault e.1 (fragNo f.mask) { cause := causeData, lanes := e.2.active f } 0 f.pc .replay) s1) s

/-- EVICTED_RESTORE: a warp that was put out returns to its core when its quadrant has room; else the crew of the drift that
was evicted whole earliest returns to a core that is free (R44, R65). -/
def execEvictedRestore (core : Nat) (s : State) : Host.Outcome State Fault Refusal :=
  .next (
    match (s.backWarps core).foldl (fun b x => match b with
      | none => some x
      | some y => if returnsBefore x y then some x else some y) none with
    | some (c, k, _) =>
      (s.freshCredit core c.ctx).mapWarp k fun w => { w with evicted := false }
    | none =>
      if !s.coreFree core then s
      else
        match (s.returning (s.driftAt core)).foldl (fun b e => match b with
          | none => some e
          | some x => if e.2.image.getD 0 < x.2.image.getD 0 then some e else some x) none with
        | none => s
        | some (k, c) =>
          let i := c.image.getD 0
          let bad := (Tab.lookup i s.images).any (·.bad)
          let s1 := s.loadCrew k { c with placed := s.nextId } core
          let s2 : State := { s1 with images := Tab.erase i s1.images, nextId := s1.nextId + 1 }
          if bad then s2.badImage k else s2)

/-! ## Whole drifts (R66 to R68) -/

/-- The crews on the cores of a drift that have warps or scratchpad there. -/
def State.onDrift (s : State) (drift : Nat) : Tab Crew := s.crews.filter fun e => s.occupies e.2 && s.driftAt e.2.core == drift

/-- The crews of an image. -/
def State.inImage (s : State) (i : Nat) : Tab Crew := s.crews.filter fun e => e.2.image == some i

/-- The oldest image of a swap of a drift. -/
def State.swapImage (s : State) (drift : Nat) : Option Nat := (s.images.find? fun e => e.2.drift == some drift).map (·.1)

/-- An image of cores is loaded into those of a drift, each into the core at the same place (R66, R68). -/
def State.restoreImage (s : State) (i drift : Nat) : State :=
  match Tab.lookup i s.images with
  | none => s
  | some x =>
    let s1 := (s.inImage i).foldl (fun s e =>
      let t := s.loadCrew e.1 e.2 (s.coreAt (16 * drift + Tab.get 0 x.slots e.1))
      if x.bad then t.badImage e.1 else t) s
    { s1 with images := Tab.erase i s1.images }

/-- DRIFT_SWAP: every core of a drift has halted; its crews go into an image, and the image that was swapped out of the
drift earliest comes back.  An image for which shadow storage has no room goes to the save area (R67).  A context that leaves the
module parks its rank (R345). -/
def execDriftSwap (drift : Nat) (s : State) : Host.Outcome State Fault Refusal :=
  .next (
    let out := s.onDrift drift
    let cores := s.coresOf drift
    let t := cores.foldl (fun s c => s.emptyCore c) s
    let back := s.swapImage drift
    if 64 ≤ drift || (out.isEmpty && back.isNone) || !(out.all fun e => s.crewSavable e.1 e.2) ||
        cores.any t.holdsAny then s
    else
      let s1 := if out.isEmpty then t else t.saveCrews (drift / 16) (some drift) (out.map (·.1))
      s.parkLeft (match back with
        | none => s1
        | some i => s1.restoreImage i drift))

/-- IMAGE_MOVE: Gallery moves the image that holds a crew from shadow storage to the save area (R67). -/
def execImageMove (crew : Nat) (s : State) : Host.Outcome State Fault Refusal :=
  .next (match ((Tab.lookup crew s.crews).bind (·.image)) with
    | none => s
    | some i =>
      match Tab.lookup i s.images with
      | none => s
      | some x => { s with images := Tab.put i { x with shadow := false } s.images })

/-- The oldest image that holds crews of one context alone. -/
def State.imageOf (s : State) (ctx : Nat) : Option Nat :=
  (s.images.find? fun e => !(s.inImage e.1).isEmpty && (s.inImage e.1).all fun c => c.2.ctx == ctx).map (·.1)

/-- Do the groups of an image move whole: is every crew of theirs in it, or gone without a scratchpad, and has every one started
(R34, R44)? -/
def State.imageWhole (s : State) (l : Tab Crew) : Bool :=
  (s.crews.all fun e => !(l.any fun x => x.2.sameGroup e.2) || (l.any fun x => x.1 == e.1) ||
    (e.2.state == .exited && e.2.spadMacros == 0)) &&
  l.all fun x => ((Tab.lookup x.2.launch s.launches).map fun a => s.started x.2.launch x.2.group == a.crews).getD true

/-- On another module the fragments of a crew that are parked resume as if they were replayed: entries of the wait table do not
travel (R68). -/
def State.unpark (s : State) (k : Nat) : State :=
  (s.warpsOf k).foldl (fun s e => e.2.frags.foldl (fun s f => s.wake e.1 (fragNo f.mask)) s) s

/-- CONTEXT_MIGRATE_RESUME: Gallery writes the remap tables for another drift and loads the oldest image of a context there, each
crew into the core of its place, which must be free (R4, R34, R44, R68).  `drift.2` says that the image has come to this module
from another: it is one that left through the export gate (notes/assumptions/44). -/
def execContextMigrateResume (ctx : Nat) (drift : Nat × Bool) (s : State) : Host.Outcome State Fault Refusal :=
  .next (match s.imageOf ctx with
    | none => s
    | some i =>
      let l := s.inImage i
      let slots := ((Tab.lookup i s.images).map (·.slots)).getD []
      if !(s.allowed ctx).contains drift.1 || !s.imageWhole l || (drift.2 && !s.exported ctx i) ||
          !(l.all fun x => s.coreFree (s.coreAt (16 * drift.1 + Tab.get 0 slots x.1))) then s
      else
        let there := fun (k g : Nat) => l.any fun (x : Nat × Crew) => x.2.launch == k && x.2.group == g
        let s1 : State :=
          { s with
            launches := Tab.mapVals (fun k (a : Launch) =>
              { a with drift := Tab.mapVals (fun g d => if there k g then drift.1 else d) a.drift }) s.launches }
        let s2 := s1.restoreImage i drift.1
        if drift.2 then l.foldl (fun s x => s.unpark x.1) s2 else s2)

/-! ## Shootdown (R61, R70) -/

/-- Has a request in flight translated an address of a context from `lo` up to `hi`: for a store that a fabric port of this module
has accepted, an address of the window that it names (R70, R330)? -/
def State.inPage (s : State) (o : Op) (ctx lo hi : Nat) : Bool :=
  let within := fun (a : Nat) => decide (lo ≤ a ∧ a < hi)
  o.src.ctx == ctx && match o.kind with
    | .copy _ _ granules _ => granules.any fun g => within (65536 * g)
    | .gred _ _ _ _ left _ => left.any fun x => within x.addr.toNat
    | .coll c => within c.bar.addr.toNat
    | .stopeLoad _ _ va places => !places.isEmpty && decide (va < hi ∧ lo < va + 4 * places.length)
    | k => k.accs.any fun x => match x.place with
        | .pa _ => within x.addr.toNat
        | .fab a => k.isStore && o.completed && !s.remote ctx o.id a &&
            ((Tab.lookup ctx s.ctxs).bind fun c => Tab.lookup (fabWindow a) c.windows).any fun w => within (w.base + fabOffset a)
        | .map _ => false

/-- Does a matrix operation whose batch has not retired move rows of a page (R309)?  A batch that its warp never closed ends with
the warp. -/
def State.matInPage (s : State) (m : MatOp) (ctx lo hi : Nat) : Bool :=
  m.src.ctx == ctx && !(m.done && (Tab.lookup m.src.warp s.warps).all (·.retired)) &&
    m.kind.rows.any fun x => decide (lo ≤ x.acc.addr.toNat ∧ x.acc.addr.toNat < hi)

/-- Does a stope run hold a lease on a part of a range of a context (R354)? -/
def State.leasedIn (s : State) (ctx lo hi : Nat) : Bool :=
  s.ops.any fun o => o.src.ctx == ctx && match o.kind with
    | .stopeRun r _ _ => r.pages.any fun p => decide (p.1 < hi ∧ lo < p.1 + p.2.2)
    | _ => false

/-- SHOOTDOWN of a page, given by an address in it and log₂ of its size: its translations leave the caches.  Once no access
translated under the old mapping is in flight and what cores hold dirty has gone home, the entries of the wait table for those of
its granules whose mapping is gone are freed when no fragment is parked under them (R61, R70).  A leased page is left as it is
(R354). -/
def execShootdown (ctx : Nat) (page : Nat × Nat) (s : State) : Host.Outcome State Fault Refusal :=
  .next (
    let log := page.2
    let lo := page.1 - page.1 % 2 ^ log
    let hi := lo + 2 ^ log
    if !([16, 21, 30].contains log) || s.leasedIn ctx lo hi then s
    else
      let old := fun (t : Translation) => t.ctx == ctx && decide (t.base < hi ∧ lo < t.base + 2 ^ t.log)
      let s1 : State := { s with tlb := Tab.mapVals (fun _ l => l.filter fun t => !old t) s.tlb }
      if (s.ops.any fun o => s.inPage o ctx lo hi) || s.crews.any fun c => c.2.engine.any fun m => s.matInPage m ctx lo hi then s1
      else
        let s2 := s1.cores.foldl (fun s e => s.writeBack e.1 fun _ => true) s1
        { s2 with waits := s2.waits.filter fun e => match e.2 with
            | .page c x _ _ => !(c == ctx && decide (lo / 65536 ≤ x ∧ x < hi / 65536) && (s2.walkCtx ctx (65536 * x)).isNone &&
                !s2.parkedUnder e.1)
            | .token .. => true })

/-! ## The end of a context (R375) -/

/-- Does a request write memory? -/
def OpKind.writes : OpKind → Bool
  | .store .. | .fp4s .. | .atomic .. | .insert .. | .skinit .. | .skmerge .. | .skfold .. | .abar .. | .copy .. => true
  | _ => false

/-- CONTEXT_DESTROY: Gallery ends a context that has nothing left in flight that writes memory; its key slots are cleared
before they are released (R375), and what was its own is free again. -/
def execContextDestroy (ctx : Nat) (s : State) : Host.Outcome State Fault Refusal :=
  .next (
    if (Tab.lookup ctx s.ctxs).isNone then s
    else
      let s1 := s.stopContext ctx
      if s1.ops.any fun o => o.src.ctx == ctx && o.kind.writes then s1
      else
        let mine := fun (k : Nat) => ((Tab.lookup k s1.crews).map fun c => c.ctx == ctx).getD false
        let s2 := (s1.crews.filter fun e => e.2.ctx == ctx && e.2.image.isNone).foldl (fun s e => s.emptyCore e.2.core) s1
        { s2 with
          ctxs := Tab.erase ctx s2.ctxs
          ops := s2.ops.filter fun o => o.src.ctx != ctx
          warps := s2.warps.filter fun e => !mine e.2.crew
          crews := s2.crews.filter fun e => e.2.ctx != ctx
          launches := s2.launches.filter fun e => e.2.ctx != ctx
          images := s2.images.filter fun e => !(s2.inImage e.1).all fun c => c.2.ctx == ctx
          tlb := Tab.mapVals (fun _ l => l.filter fun t => t.ctx != ctx) s2.tlb
          cores := Tab.mapVals (fun _ q => { q with credit := Tab.erase ctx q.credit }) s2.cores
          queues := Tab.mapVals (fun _ q => if q.owner == some ctx then { q with owner := none } else q) s2.queues
          channels := Tab.mapVals (fun _ c => if c.owner == some ctx then { c with owner := none } else c) s2.channels
          trust := { s2.trust with
            keys := s2.trust.keys.filter fun e => e.2 != ctx
            cleared := s2.trust.keys.foldl (fun t e => if e.2 = ctx then Tab.set 0 t e.1 (Tab.get 0 t e.1 + 1) else t)
              s2.trust.cleared } })

end Sys2Proof.Machine
end

