-- ==== Sys2Proof/Machine/Digest.lean ====
section
/-! DEFINITION. SHA-384, by which Headframe extends a measurement slot (R376).  The spec names the digest and does not state
it; it is taken from FIPS 180-4 (notes/assumptions/22).  Its constants are computed from what they are: leading bits of the
fractional parts of roots of primes. -/

namespace Sys2Proof.Machine

/-! ## The constants -/

/-- Is a number from 2 upward prime, by division by every smaller one? -/
def isPrime (n : Nat) : Bool := decide (2 ≤ n) && (List.range n).all fun d => decide (d < 2) || n % d != 0

/-- The primes below 410: there are 80 of them. -/
def smallPrimes : List Nat := (List.range 410).filter isPrime

/-- The greatest number whose `deg`-th power is at most `n`, found bit by bit from bit `i` downward above `r`. -/
def rootFrom (deg n : Nat) : Nat → Nat → Nat
  | 0, r => if (r + 1) ^ deg ≤ n then r + 1 else r
  | i + 1, r => rootFrom deg n i (if (r + 2 ^ (i + 1)) ^ deg ≤ n then r + 2 ^ (i + 1) else r)

/-- The first 64 bits of the fractional part of the `deg`-th root of a number below 2^24. -/
def rootFraction (deg p : Nat) : BitVec 64 := BitVec.ofNat 64 (rootFrom deg (p * 2 ^ (64 * deg)) 76 0)

/-! ## One block -/

/-- The eight working words of the digest. -/
structure Working where
  a : BitVec 64
  b : BitVec 64
  c : BitVec 64
  d : BitVec 64
  e : BitVec 64
  f : BitVec 64
  g : BitVec 64
  h : BitVec 64
  deriving DecidableEq, Repr

/-- The working words at the start: from the square roots of the ninth to the sixteenth prime. -/
def Working.start : Working :=
  let r := fun i => rootFraction 2 (smallPrimes.getD (8 + i) 0)
  ⟨r 0, r 1, r 2, r 3, r 4, r 5, r 6, r 7⟩

/-- Working words added in pairs. -/
def Working.plus (x y : Working) : Working :=
  ⟨x.a + y.a, x.b + y.b, x.c + y.c, x.d + y.d, x.e + y.e, x.f + y.f, x.g + y.g, x.h + y.h⟩

/-- A word turned right by three distances, the three combined. -/
def threeTurns (i j k : Nat) (x : BitVec 64) : BitVec 64 := x.rotateRight i ^^^ x.rotateRight j ^^^ x.rotateRight k

/-- A word turned right by two distances and moved right by a third, the three combined. -/
def twoTurns (i j k : Nat) (x : BitVec 64) : BitVec 64 := x.rotateRight i ^^^ x.rotateRight j ^^^ x >>> k

/-- One round on a scheduled word with its constant added. -/
def Working.round (x : Working) (k : BitVec 64) : Working :=
  let choice := (x.e &&& x.f) ||| (~~~ x.e &&& x.g)
  let majority := (x.a &&& (x.b ||| x.c)) ||| (x.b &&& x.c)
  let into := x.h + threeTurns 14 18 41 x.e + choice + k
  ⟨into + threeTurns 28 34 39 x.a + majority, x.a, x.b, x.c, x.d + into, x.e, x.f, x.g⟩

/-- Word `t` of the schedule, from the latest words of it, the latest first. -/
def nextScheduled (l : List (BitVec 64)) : BitVec 64 :=
  l.getD 15 0 + twoTurns 1 8 7 (l.getD 14 0) + l.getD 6 0 + twoTurns 19 61 6 (l.getD 1 0)

/-- The rounds of the primes left: the sixteen latest words of the schedule, the oldest of which is the round's. -/
def rounds : List Nat → List (BitVec 64) → Working → Working
  | [], _, x => x
  | p :: ps, l, x => rounds ps ((nextScheduled l :: l).take 16) (x.round (l.getD 15 0 + rootFraction 3 p))

/-- A number of `n` bytes, highest first. -/
def bigNat (l : List (BitVec 8)) : Nat := leNat l.reverse

/-- The sixteen words of a block, the last first. -/
def blockWords (block : List (BitVec 8)) : List (BitVec 64) :=
  (List.range 16).map fun i => BitVec.ofNat 64 (bigNat ((block.drop (8 * (15 - i))).take 8))

/-! ## A message -/

/-- The message with its padding: a bit 1, zeros, and its length in bits in 16 bytes. -/
def shaPadded (m : List (BitVec 8)) : List (BitVec 8) :=
  m ++ [0x80] ++ List.replicate ((239 - m.length % 128) % 128) 0 ++ (leBytes (8 * m.length) 16).reverse

/-- The digest of SHA-384: the first six working words after the last block. -/
def sha384 (m : List (BitVec 8)) : BitVec 384 :=
  let p := shaPadded m
  let x := (List.range (p.length / 128)).foldl
    (fun x i => x.plus (rounds smallPrimes (blockWords ((p.drop (128 * i)).take 128)) x)) Working.start
  x.a ++ x.b ++ x.c ++ x.d ++ x.e ++ x.f

end Sys2Proof.Machine
end

