-- ==== Sys2Proof/Machine/System.lean ====
section
/-! DEFINITION. Calls to Gallery (R366 to R368), shots (R370, R377, R378), replays (R371), the host, the control cluster and
errors of memory (R57, R71, R202, R207, R346, R379), telemetry and power (R380, R381), boot, keys, measurements and the
export gate (R68, R373 to R376), and spares (R382). -/

namespace Sys2Proof.Machine

/-! ## Calls to Gallery (R366, R367) -/

/-- The eight words of a request entry, with V = 1 (R367). -/
def sysEntry (svc : Nat) (arg : DWord) (id row col : Nat) (seq : Word) (time : DWord) : List Word :=
  [field 25 svc ||| field 24 1, field 26 id, field 16 row ||| field 0 col, seq, loWord arg, hiWord arg, loWord time,
    hiWord time]

/-- `sys sD, sA, n` (R366). -/
def execSys (d a n : BitVec 7) (s : State) : Host.Outcome State Fault Refusal :=
  issueWord (fun _ => { reads := [.s a.toNat], writes := [.s d.toNat], long := true }) (fun v s =>
    let ctx := v.crew.ctx
    v.afterRelease s 0x3F .held fun s =>
      match Tab.lookup ctx s.ctxs with
      | none => v.holdAt s .held
      | some c =>
        match c.requestQ with
        | none => v.holdAt s .held
        | some q =>
          let arg := v.w.sreg a.toNat
          match s.writeRecord ctx 24 { q with held := [sysEntry n.toNat arg v.w.id v.crew.row v.crew.col c.seq s.time] } with
          | none => v.holdAt s .held
          | some (s2, q1) =>
            let s3 := s2.mapCtx ctx fun c => { c with requestQ := some { q1 with held := q.held }, seq := c.seq + 1 }
            .done ((s3.addOp v.src (.sys n.toNat arg d.toNat c.seq none) true false).endRegion v)) s

/-! ## Services (R368) -/

/-- An error answer: 1 NOSVC, 2 BADARG, 3 OVERLAP, 4 LIMIT, 5 BUSY. -/
def sysError (code : Nat) : DWord := BitVec.ofNat 64 (2 ^ 63 + code)

/-- Gallery serves a request for a service: what it has done so far, and the answer, `none` while it is not done yet. -/
def State.serve (s : State) (op svc : Nat) (f : State → Op → Nat → State × Option DWord) : Host.Outcome State Fault Refusal :=
  .next (match s.op op with
    | none => s
    | some o =>
      match o.kind with
      | .sys n arg d seq none =>
        if n ≠ svc then s
        else match f s o arg.toNat with
          | (s1, none) => s1
          | (s1, some x) => s1.putOp { o with kind := .sys n arg d seq (some x) }
      | _ => s)

/-- SYS_ECHO: service 0. -/
def execSysEcho (op : Nat) (s : State) : Host.Outcome State Fault Refusal :=
  s.serve op 0 fun s _ a => (s, some (BitVec.ofNat 64 a))

/-- Do two token regions share a byte? -/
def TokenRegion.meets (t u : TokenRegion) : Bool := decide (t.base < u.base + 2 ^ u.log ∧ u.base < t.base + 2 ^ t.log)

/-- SYS_REGISTER_TOKEN_REGION: service 1. -/
def execSysRegisterTokenRegion (op : Nat) (s : State) : Host.Outcome State Fault Refusal :=
  s.serve op 1 fun s o a =>
    let log := bitsOf a 0 5
    let t : TokenRegion := ⟨bitsOf a 16 41 * 65536, log, none, [], [], none⟩
    let old := ((Tab.lookup o.src.ctx s.ctxs).map (·.tokens)).getD []
    if bitsOf a 5 11 ≠ 0 ∨ bitsOf a 57 7 ≠ 0 ∨ log < 16 ∨ 30 < log ∨ t.base % 2 ^ log ≠ 0 then (s, some (sysError 2))
    else if old.any t.meets then (s, some (sysError 3))
    else if 256 ≤ old.length then (s, some (sysError 4))
    else (s.mapCtx o.src.ctx fun c => { c with tokens := c.tokens ++ [t] }, some 0)

/-- SYS_REMOVE_TOKEN_REGION: service 2, done when the holder has written its dirty words back. -/
def execSysRemoveTokenRegion (op : Nat) (s : State) : Host.Outcome State Fault Refusal :=
  s.serve op 2 fun s o a =>
    let ctx := o.src.ctx
    let old := ((Tab.lookup ctx s.ctxs).map (·.tokens)).getD []
    match old.findIdx? fun t => t.base == a with
    | none => (s, some (sysError 2))
    | some r =>
      let s1 := s.passToken ctx r s.nextId true
      let held := (s1.tokenRegion ctx r).any fun t => t.holder.any fun n => decide (n < outsider)
      let leaving := s.ops.any fun x => match x.kind with
        | .tokenRelease c _ => c == ctx
        | _ => false
      if held || leaving then (s1, none)
      else (s1.mapCtx ctx fun c => { c with tokens := c.tokens.eraseIdx r }, some 0)

/-- The four words of the block of service 3, when it lies on a PLAIN page that can be read. -/
def State.windowBlock (s : State) (ctx a : Nat) : Option (Nat × Nat × Nat × Nat) :=
  if a % 32 ≠ 0 then none
  else match s.plainSpan ctx false 1 a 32 with
    | some [(_, pa, _)] => some (s.dword pa, s.dword (pa + 8), s.dword (pa + 16), s.dword (pa + 24))
    | _ => none

/-- SYS_MAP_WINDOW: service 3 (R329), done when nothing that came through the window as it was is left to be performed. -/
def execSysMapWindow (op : Nat) (s : State) : Host.Outcome State Fault Refusal :=
  s.serve op 3 fun s o a =>
    match s.windowBlock o.src.ctx a with
    | none => (s, some (sysError 2))
    | some (win, base, log, perm) =>
      if 64 ≤ win ∨ log < 16 ∨ 35 < log ∨ 2 ^ 57 ≤ base ∨ base % 2 ^ log ≠ 0 ∨ 4 ≤ perm then (s, some (sysError 2))
      else if s.windowInUse o.src.ctx win then (s, none)
      else (s.mapCtx o.src.ctx fun c =>
        { c with windows := Tab.put win ⟨base, log, perm % 2 == 1, bitsOf perm 1 1 == 1, false⟩ c.windows }, some 0)

/-- SYS_REVOKE_WINDOW: service 4; a revocation takes effect at one point in time, and completes, and is answered, when every access
that the port accepted before has been performed (R326). -/
def execSysRevokeWindow (op : Nat) (s : State) : Host.Outcome State Fault Refusal :=
  s.serve op 4 fun s o a =>
    match (Tab.lookup o.src.ctx s.ctxs).bind fun c => Tab.lookup a c.windows with
    | none => (s, some (sysError 2))
    | some w =>
      (s.mapCtx o.src.ctx fun c => { c with windows := Tab.put a { w with revoked := true } c.windows },
        if s.windowInUse o.src.ctx a then none else some 0)

/-- SYS_CLAIM_STOPE_CHANNEL: service 5 (R353). -/
def execSysClaimStopeChannel (op : Nat) (s : State) : Host.Outcome State Fault Refusal :=
  s.serve op 5 fun s o a =>
    let c := Tab.get Channel.free s.channels a
    if 256 ≤ a then (s, some (sysError 2))
    else if c.owner.isSome && c.owner != some o.src.ctx then (s, some (sysError 5))
    else ({ s with channels := Tab.put a { c with owner := some o.src.ctx } s.channels }, some 0)

/-- SYS_RELEASE_STOPE_CHANNEL: service 6, done when the channel's commands have retired. -/
def execSysReleaseStopeChannel (op : Nat) (s : State) : Host.Outcome State Fault Refusal :=
  s.serve op 6 fun s o a =>
    let c := Tab.get Channel.free s.channels a
    if 256 ≤ a ∨ c.owner = none then (s, some (sysError 2))
    else if c.owner != some o.src.ctx then (s, some (sysError 5))
    else if s.ops.any fun x => x.kind.stopeAt.any fun y => y.1 == a then (s, none)
    else ({ s with channels := Tab.put a { c with owner := none } s.channels }, some 0)

/-- SYS_ANSWER: Gallery's answer is written to the destination and the word's flag clears; a service that Gallery does not
have is answered NOSVC, and what a service that Gallery has added answers is free (R366, R368, R384). -/
def execSysAnswer (op : Nat) (s : State) : Host.Outcome State Fault Refusal :=
  .next (match s.op op with
    | none => s
    | some o =>
      match o.kind with
      | .sys n _ d _ answer =>
        match (if n ≤ 6 then answer else some (if Config.service n then Config.word (8 * s.freeCtr) else sysError 1)) with
        | none => s
        | some x => ((s.mapWarp o.src.warp fun w => w.setS d x).dropOp op).settleFlags o.src.warp
      | _ => s)

/-! ## Shots (R370, R377, R378) -/

/-- `snap sD, sA` (R370). -/
def execSnap (d a : BitVec 7) (s : State) : Host.Outcome State Fault Refusal :=
  issueWord (fun v =>
    { reads := [.s a.toNat], writes := [.s d.toNat], long := true,
      ok := bitsOf (v.w.sreg a.toNat).toNat 16 48 == 0 }) (fun v s =>
    let allowed := ((Tab.lookup v.crew.ctx s.ctxs).map (·.shots)).getD false
    let answer : Nat := if !allowed then 1 else if s.shot.isSome then 2 else 0
    let s1 := if answer = 0 then s.takeShot .snap (some (loWord (v.w.sreg a.toNat))) else s
    .done ((s1.addOp v.src (.result [.s d.toNat (BitVec.ofNat 64 answer)] Exc.none) true false).endRegion v)) s

/-- SHOT_TRIGGER: a source asks for a shot (R377), or Gallery sets which error events are masked as such sources (R378). -/
def execShotTrigger (source : ShotTrigger) (s : State) : Host.Outcome State Fault Refusal :=
  .next (match source with
    | .from x => s.takeShot x none
    | .mask m => { s with plant := { s.plant with shotMask := m } })

/-- FABRIC_SHOT_MESSAGE: the module latches when its TIME reaches the value, or at once when that has passed (R377). -/
def execFabricShotMessage (time : Nat) (s : State) : Host.Outcome State Fault Refusal :=
  .next (if time ≤ s.time.toNat then s.takeShot .fabric none
    else { s with shotAt := s.shotAt ++ [BitVec.ofNat 64 time] })

/-- The messages whose time has come. -/
def State.dueShots (s : State) : State :=
  if s.shotAt.any fun t => decide (t.toNat ≤ s.time.toNat) then
    ({ s with shotAt := s.shotAt.filter fun t => !decide (t.toNat ≤ s.time.toNat) }).takeShot .fabric none
  else s

/-- SHOT_RELEASE: Gallery releases the latched registers (R377). -/
def execShotRelease (s : State) : Host.Outcome State Fault Refusal := .next { s with shot := none }

/-- SHOT_PERMISSION (R370, R374). -/
def execShotPermission (ctx : Nat) (granted : Bool) (s : State) : Host.Outcome State Fault Refusal :=
  .next (s.mapCtx ctx fun c => { c with shots := granted })

/-- DEBUG_ENABLE_SET (R364). -/
def execDebugEnableSet (ctx : Nat) (enable : Bool) (s : State) : Host.Outcome State Fault Refusal :=
  .next (s.mapCtx ctx fun c => { c with debug := enable })

/-! ## Replays (R12, R61, R371) -/

/-- A replay form: A even, reserved fields zero, a privileged context. -/
def replayWord (token : Bool) (a : BitVec 7) : State → Host.Outcome State Fault Refusal :=
  issueWord (fun v =>
    let x := (v.w.sreg a.toNat).toNat
    let y := (v.w.sreg (a.toNat + 1)).toNat
    { reads := [.s a.toNat, .s (a.toNat + 1)],
      ok := a.toNat % 2 == 0 && bitsOf x 57 7 == 0 && bitsOf y 16 48 == 0 && (!token || bitsOf x 12 45 == 0) }) fun v s =>
    let x := (v.w.sreg a.toNat).toNat
    let y := (v.w.sreg (a.toNat + 1)).toNat
    if !s.privileged v.crew.ctx then .fault s (v.cause causePermission)
    else .done (if token then s.replayEntry y x else s.replayPage y x)

/-- `replay.tok sA` (R371). -/
def execReplayTok (a : BitVec 7) (s : State) : Host.Outcome State Fault Refusal := replayWord true a s
/-- `replay.pg sA` (R371). -/
def execReplayPg (a : BitVec 7) (s : State) : Host.Outcome State Fault Refusal := replayWord false a s

/-- GALLERY_REPLAY: the same operation through Gallery's control port (R371). -/
def execGalleryReplay (token : Bool) (target ctx : Nat) (s : State) : Host.Outcome State Fault Refusal :=
  .next (if token then s.replayEntry ctx target else s.replayPage ctx target)

/-! ## Memory as others use it (R57, R71, R202, R207, R346) -/

/-- Bytes from `a` upward, cut at the ends of lines. -/
def cutLines (a : Nat) (bs : List (BitVec 8)) : Nat → List (Nat × List (BitVec 8))
  | 0 => []
  | fuel + 1 =>
    if bs.isEmpty then []
    else
      let n := 256 - a % 256
      (a, bs.take n) :: cutLines (a + n) (bs.drop n) fuel

/-- Does a write to the line of a physical address stand in the queue of its home? -/
def State.lineWaits (s : State) (pa : Nat) : Bool := s.outside.any fun e => match e.2 with
  | .line p _ => p / 256 == pa / 256
  | .peer .. => false

/-- A write of an agent other than a core, line by line; while a line is leased or its token is out, it waits in the queue of its
home, behind those that wait there (R205, R206). -/
def State.agentWrite (s : State) (a : Nat) (bs : List (BitVec 8)) : State :=
  (cutLines a bs (bs.length + 1)).foldl (fun s x =>
    if s.outsideFree x.1 && !s.lineWaits x.1 then s.outsideWrite 0 x.1 x.2 else s.outsideWait x.1 (.line x.1 x.2)) s

/-- CONTROL_CLUSTER_ACCESS: Gallery reads memory, which changes nothing, or writes it. -/
def execControlClusterAccess (pa : Nat) (write : Option (List (BitVec 8))) (s : State) : Host.Outcome State Fault Refusal :=
  .next (match write with
    | none => s
    | some bs => s.agentWrite pa bs)

/-- HOST_CXL_ACCESS: the host reads or writes device memory in an exposed range; elsewhere it is an unsupported request
(R346).  The host's read makes it a sharer of the 64-byte lines that it touches (R202). -/
def execHostCxlAccess (pa : Nat) (write : Option (List (BitVec 8))) (s : State) : Host.Outcome State Fault Refusal :=
  .next (match write with
    | none =>
      if !Config.hostVisible pa || s.leased pa then s
      else s.share .host (pa / 64 * 64) 64
    | some bs => if (List.range bs.length).all fun i => Config.hostVisible (pa + i) then s.agentWrite pa bs else s)

/-- CXL_CACHE_SNOOP: the host takes back a 64-byte line of its memory that the device holds: what the device wrote goes to
the host first, no sharer keeps the line, and what it reads next is the host's (R202, R346). -/
def execCxlCacheSnoop (pa : Nat) (s : State) : Host.Outcome State Fault Refusal :=
  .next (
    let a := pa / 64 * 64
    if !Config.hostMemory a then s
    else
      let s1 := if (Tab.lookup (a / 256) s.unflushed).isSome then s.flushLine (a / 256) else s
      let bs := s1.freeBytes 0 64
      { s1 with
        mem := putBytes s1.mem a bs
        dram := putBytes s1.dram a bs
        directory := s1.directory.map fun e =>
          if e.1 = a / 256 then (e.1, e.2.map (Sharer.clear (wordMask (a % 256) 64))) else e })

/-- HOME_SHARE_WRITEBACK: a line goes from its home share to DRAM (R207). -/
def execHomeShareWriteback (line : Nat) (s : State) : Host.Outcome State Fault Refusal :=
  .next (if (Tab.lookup line s.unflushed).isSome then s.flushLine line else s)

/-- The controller of a physical address: of its first-tier stack, or of its second-tier channel (R1, R351). -/
def controllerOf (pa : Nat) : Nat :=
  if frameOf pa < firstTier then frameOf pa / stackBytes else 8 + Config.channelOf (frameOf pa) % 24

/-- Change the controller of a physical address. -/
def Plant.mapController (p : Plant) (pa : Nat) (g : Controller → Controller) : Plant :=
  { p with controllers := Tab.put (controllerOf pa) (g (Tab.get ⟨0, 0, 0⟩ p.controllers (controllerOf pa))) p.controllers }

/-- The block in which an error arises, memory aside: the core of a register, of a crew's scratchpad or of a first-level cache, by
its number, or the shadow storage of a die, numbered after the 1,024 cores and their 64 spares, or an L2 slice, numbered after these
(R2, R5, R380). -/
def State.blockOf (s : State) : ErrorPlace → Nat
  | .memory _ => 0
  | .register k _ _ => ((Tab.lookup (k / 64) s.crews).map (·.core)).getD 0
  | .spad k _ => ((Tab.lookup k s.crews).map (·.core)).getD 0
  | .l1 core _ => core
  | .image i => 1088 + ((Tab.lookup i s.images).map (·.die)).getD 0
  | .l2 pa => 1092 + homeSlice pa

/-- An error is corrected where it stands, and its block counts it (R71, R380). -/
def State.correct (s : State) (place : ErrorPlace) : State :=
  let b := s.blockOf place
  { s with plant := { s.plant with
      corrected := s.plant.corrected + 1
      blockErrors := Tab.set 0 s.plant.blockErrors b (Tab.get 0 s.plant.blockErrors b + 1) } }

/-- MEMORY_ERROR: an error arises (R71).  A soft one in memory stays until the scrubber comes to it; elsewhere it is corrected at
once, and only a count tells.  An uncorrectable one leaves its granule with a failing check. -/
def execMemoryError (place : ErrorPlace) (correctable : Bool) (s : State) : Host.Outcome State Fault Refusal :=
  .next (match place with
    | .memory pa =>
      let g := granuleOf pa
      if s.bad.contains g then s
      else if correctable then
        if s.plant.soft.contains g then s else { s with plant := { s.plant with soft := s.plant.soft ++ [g] } }
      else { s with bad := s.bad ++ [g] }
    | .l2 pa =>
      if correctable then s.correct place
      else if s.bad.contains (granuleOf pa) then s else { s with bad := s.bad ++ [granuleOf pa] }
    | .register k kind n =>
      if correctable then s.correct place
      else
        let r : Reg := match kind with
          | 0 => .v n
          | 1 => .p n
          | 2 => .s n
          | _ => .b n
        s.mapWarp k fun w => if w.bad.contains r then w else { w with bad := w.bad ++ [r] }
    | .spad k off =>
      if correctable then s.correct place
      else s.mapCrew k fun c => if c.spadBad.contains (granuleOf off) then c else { c with spadBad := c.spadBad ++ [granuleOf off] }
    | .l1 core n =>
      if correctable then s.correct place
      else s.mapCore core fun c => { c with l1 := Tab.mapVals (fun m x => if m = n then { x with bad := true } else x) c.l1 }
    | .image i =>
      if correctable then s.correct place
      else { s with images := Tab.mapVals (fun k x => if k = i then { x with bad := true } else x) s.images })

/-- The context that owns a physical address, with its virtual address there; the lowest number of several. -/
def State.ownerOf (s : State) (pa : Nat) : Option (Nat × Nat) :=
  s.ctxs.findSome? fun e => (s.mappings (frameOf pa) tableLevels e.2.root 0).head?.map fun m => (e.1, m.1)

/-- The record of an uncorrectable granule that nothing consumed (R71). -/
def State.reportGranule (s : State) (g : Nat) : State :=
  match s.ownerOf (g * 2 ^ Config.granuleLog) with
  | none => s
  | some (ctx, va) => s.postFault ctx
      { cause := causeData, noRegion := true, origin := 5, addr := BitVec.ofNat 64 va, time := s.time }

/-- The record of an uncorrectable granule of a crew's scratchpad that nothing consumed (R71): its address is that of the map. -/
def State.reportSpad (s : State) (c : Crew) (g : Nat) : State :=
  s.postFault c.ctx
    { cause := causeData, noRegion := true, origin := 5, time := s.time,
      addr := BitVec.ofNat 64 (2 ^ 56 + c.row * 2 ^ 40 + c.col * 2 ^ 24 + g * 2 ^ Config.granuleLog) }

/-- The scrubber reads a granule of memory: a soft error is corrected and counted; an uncorrectable one is reported, with a shot
(R71, R378, R379).  The controller of the granule counts too (R377). -/
def State.scrubMemory (s : State) (pa : Nat) : State :=
  let g := granuleOf pa
  let count := fun (c u : Nat) => { s with plant := { (s.plant.mapController pa fun x =>
    ⟨x.corrected + c, x.uncorrectable + u, pa⟩) with scrubAt := pa } }
  if s.plant.unused.contains (controllerOf pa) then s
  else if s.bad.contains g then ((count 0 1).reportGranule g).errorShot 2
  else if s.plant.soft.contains g then
    let s1 := count 1 0
    { s1 with plant := { s1.plant with soft := s1.plant.soft.filter (· != g), corrected := s1.plant.corrected + 1 } }
  else count 0 0

/-- SCRUB: the scrubber reads a granule of memory, of an L2 slice or of a scratchpad, armed or not (R71, R378, R379); it reads
nothing else. -/
def execScrub (place : ErrorPlace) (s : State) : Host.Outcome State Fault Refusal :=
  .next (match place with
    | .memory pa => s.scrubMemory pa
    | .l2 pa => if s.bad.contains (granuleOf pa) then (s.reportGranule (granuleOf pa)).errorShot 2 else s
    | .spad k off =>
      match Tab.lookup k s.crews with
      | none => s
      | some c => if c.spadBad.contains (granuleOf off) then (s.reportSpad c (granuleOf off)).errorShot 2 else s
    | _ => s)

/-- L2_EVICT_UNCORRECTABLE: an eviction of a line from its home share meets an uncorrectable granule (R71). -/
def execL2EvictUncorrectable (pa : Nat) (s : State) : Host.Outcome State Fault Refusal :=
  .next (if s.bad.contains (granuleOf pa) then
      let s1 := s.reportGranule (granuleOf pa)
      if (Tab.lookup (pa / 256) s1.unflushed).isSome then s1.flushLine (pa / 256) else s1
    else s)

/-! ## Telemetry and power (R380, R381) -/

/-- The clock and the supply step of every quadrant of every core in use (R1, R380). -/
def State.quadrants (s : State) : List (Nat × Nat × Nat × Nat) :=
  (List.range 1024).flatMap fun place => (List.range 4).map fun q =>
    let core := s.coreAt place
    let g := Tab.get Governor.reset (s.core core).gov q
    (core, q, Nat.min g.clock s.plant.ceiling, g.supply)

/-- TELEMETRY_RECORD: what each governor does, the windows that have ended since the last record, the temperatures, the power
averaged over the millisecond and the corrected errors of every block are recorded (R380). -/
def execTelemetryRecord (watts : Nat) (s : State) : Host.Outcome State Fault Refusal :=
  .next (
    let temps := (List.range 4).map fun i => Config.word (8 * s.freeCtr + i)
    let r : Telemetry := ⟨s.time, s.quadrants, s.plant.windows, temps, watts, s.plant.corrected, s.plant.blockErrors, s.plant.working⟩
    { s with plant := { s.plant with windows := [], telemetry := s.plant.telemetry ++ [r] } })

/-- POWER_WINDOW: the power averaged over a millisecond exceeds PLIM, and the ceiling falls by one step (R381). -/
def execPowerWindow (watts : Nat) (s : State) : Host.Outcome State Fault Refusal :=
  .next (if s.plant.plim < watts then { s with plant := { s.plant with ceiling := s.plant.ceiling - 25 } } else s)

/-- CEILING_RAISE: the average has stayed below PLIM − 50 W, and the ceiling rises by one step, to 1,800 MHz at most. -/
def execCeilingRaise (watts : Nat) (s : State) : Host.Outcome State Fault Refusal :=
  .next (if watts + 50 < s.plant.plim then
      { s with plant := { s.plant with ceiling := Nat.min 1800 (s.plant.ceiling + 25) } }
    else s)

/-- PLIM_SET: 600 W to 2,200 W in steps of 25 W. -/
def execPlimSet (watts : Nat) (s : State) : Host.Outcome State Fault Refusal :=
  .next (if 600 ≤ watts ∧ watts ≤ 2200 ∧ watts % 25 = 0 then { s with plant := { s.plant with plim := watts } } else s)

/-! ## Headframe (R68, R373 to R376) -/

/-- The bytes of a digest or a signature, as FIPS 180-4 and R376 write them: highest first. -/
def bigBytes {w : Nat} (x : BitVec w) : List (BitVec 8) := (leBytes x.toNat (w / 8)).reverse

/-- A measurement slot is extended. -/
def Trust.extend (t : Trust) (slot : Nat) (d : BitVec 384) : Trust :=
  { t with ms := t.ms.set slot (sha384 (bigBytes (t.ms.getD slot 0) ++ bigBytes d)) }

/-- What the outcome of the stage in progress does (R373), and with it who drives the root ports (R384). -/
def Trust.stageEnds (t : Trust) (r : StageResult) : Trust :=
  if t.code ≠ 0xFF then t
  else
    match t.stage, r with
    | 1, .good d => { (t.extend 0 d) with stage := 2, rootPorts := (.headframe, .inReset) }
    | 1, .bad => { t with code := 0x01 }
    | 2, .good d => { (t.extend 1 d) with stage := 3 }
    | 2, .bad => { t with code := 0x02 }
    | 3, .good d => { (t.extend 2 d) with stage := 4, rootPorts := (.inReset, .inReset) }
    | 4, .good _ => { t with stage := 5 }
    | 4, .block c _ =>
      if 0x10 ≤ c ∧ c ≤ 0x1F then { t with degraded := true, fail := if t.fail = 0 then c else t.fail } else t
    | 5, .good d => { (t.extend 3 d) with stage := 6 }
    | 5, .bad => { t with code := 0x20 }
    | 6, .good _ => { t with code := 0x00 }
    | _, _ => t

/-- Gallery brings up a root port, from stage 4 on (R384). -/
def Trust.bringUp (t : Trust) (second : Bool) : Trust :=
  if t.stage < 4 then t
  else { t with rootPorts := if second then (t.rootPorts.1, .gallery) else (.gallery, t.rootPorts.2) }

/-- A block that failed training is left unused (R373): a memory controller stands for its stack or channel, and links that failed
are as links that are lost. -/
def State.leaveUnused (s : State) (b : TrainBlock) : State :=
  let control := fun (n : Nat) => { s with plant := { s.plant with unused := (s.plant.unused.filter (· != n)) ++ [n] } }
  let link := fun (n : Nat) => { s with fabric := { s.fabric with down := (s.fabric.down.filter (· != n)) ++ [n] } }
  match b with
  | .stack n => if n < 8 then control n else s
  | .channel n => if n < 24 then control (8 + n) else s
  | .dieLink n => link (fabricPorts + n)
  | .fabricPort n => if n < fabricPorts then link n else s

/-- BOOT: power comes on or the module is reset, or the stage in progress comes to its end (R373), or Gallery brings up a root port
(R384).  Device time goes on (R69). -/
def execBoot (power : Bool) (result : StageResult) (s : State) : Host.Outcome State Fault Refusal :=
  .next (
    if power then
      { State.reset with time := s.time, freeCtr := s.freeCtr, nextId := s.nextId,
                         fabric := { State.reset.fabric with me := s.fabric.me } }
    else
      let s1 : State := match result with
        | .block c b =>
          if s.trust.stage = 4 ∧ s.trust.code = 0xFF ∧ 0x10 ≤ c ∧ c ≤ 0x1F then s.leaveUnused b else s
        | _ => s
      { s1 with trust := match result with
        | .rootPort second => s1.trust.bringUp second
        | _ => s1.trust.stageEnds result })

/-- BOOTST as the host reads it (R373). -/
def Trust.bootst (t : Trust) : Word :=
  field 24 t.degraded.toNat ||| field 16 t.fail ||| field 8 t.stage ||| field 0 t.code

/-- RECOVERY_IMAGE: after a failed stage 2 the host offers an image; a good one is measured and boot goes on (R373). -/
def execRecoveryImage (good : Bool) (digest : BitVec 384) (s : State) : Host.Outcome State Fault Refusal :=
  .next (if s.trust.stage = 2 ∧ s.trust.code = 0x02 ∧ good then
      { s with trust := { (s.trust.extend 1 digest) with stage := 3, code := 0xFF } }
    else s)

/-- MS_EXTEND: MS4 to MS15 are extended at Gallery's request, where Headframe's policy allows it (R374, R376). -/
def execMsExtend (slot : Nat) (digest : BitVec 384) (s : State) : Host.Outcome State Fault Refusal :=
  .next (if 4 ≤ slot ∧ slot ≤ 15 ∧ Config.allows 0 slot then { s with trust := s.trust.extend slot digest } else s)

/-- Bytes 0 to 831 of a report. -/
def State.reportBody (s : State) (nonce : BitVec 384) : List (BitVec 8) :=
  bigBytes nonce ++ (List.range 16).flatMap (fun i => bigBytes (s.trust.ms.getD i 0)) ++ leBytes s.time.toNat 8 ++
    leBytes Config.serial.toNat 8

/-- ATTESTATION_REPORT: Headframe signs the slots as they stand, where its policy allows it (R374, R376). -/
def execAttestationReport (nonce : BitVec 384) (s : State) : Host.Outcome State Fault Refusal :=
  .next (
    let body := s.reportBody nonce
    if Config.allows 1 0 then { s with trust := { s.trust with report := body ++ bigBytes (Config.sign body) } } else s)

/-- KEY_SLOT_ASSIGN: Headframe gives a context that has none a key slot that no context has, where its policy allows it: the context
is confidential from then on (R374, R375). -/
def execKeySlotAssign (ctx slot : Nat) (s : State) : Host.Outcome State Fault Refusal :=
  .next (if 1 ≤ slot ∧ slot ≤ 255 ∧ (Tab.lookup slot s.trust.keys).isNone ∧ (Tab.lookup ctx s.ctxs).isSome ∧
      s.slotOf ctx = none ∧ Config.allows 2 ctx then
      { s with trust := { s.trust with keys := Tab.put slot ctx s.trust.keys } }
    else s)

/-- SNAPSHOT_EXPORT_GATE: Headframe exports the oldest saved image of a context, or the registers that a shot has latched, under the
context's key, where its policy allows it (R68, R374, R375, R377). -/
def execSnapshotExportGate (ctx : Nat) (s : State) : Host.Outcome State Fault Refusal :=
  .next (
    let key := s.keyNo ((s.slotOf ctx).getD 0)
    let out := fun (i : Option Nat) => { s with trust := { s.trust with exports := s.trust.exports ++ [((ctx, i), key)] } }
    if !Config.allows 3 ctx then s
    else match s.imageOf ctx with
    | some i => out (some i)
    | none => if s.shot.isSome then out none else s)

/-! ## Spares (R382) -/

/-- SPARE_REMAP: Gallery maps a spare core of the die in place of a failing one, given by its place, or a bank, by rewriting the
remap tables of every context (R4).  The crews of the core go out and come back on the spare under their own coordinates; a bank's rows are copied
while no run of its channel (32 × stack + channel, its banks numbered after it) is in progress. -/
def execSpareRemap (core : Bool) (failing spare : Nat) (s : State) : Host.Outcome State Fault Refusal :=
  .next (
    if core then
      let old := s.coreAt failing
      let new := 1024 + 16 * dieOf failing + spare
      let here := s.crews.filter fun e => e.2.core == old && s.occupies e.2
      let t := s.emptyCore old
      let used := s.plant.spares.any fun e => dieOf e.1 == dieOf failing && e.2 == spare
      if 1024 ≤ failing || 16 ≤ spare || used || !(here.all fun e => s.crewSavable e.1 e.2) || t.holdsAny old then s
      else
        let t1 := t.mapCore old fun q => { q with credit := [] }
        { t1 with
          plant := { t1.plant with spares := Tab.put failing spare t1.plant.spares }
          ctxs := Tab.mapVals (fun _ (c : Context) =>
            { c with cores := Tab.mapVals (fun _ q => if q = old then new else q) c.cores }) t1.ctxs
          crews := Tab.mapVals (fun k (c : Crew) => if here.any fun e => e.1 == k then { c with core := new } else c) t1.crews }
    else
      let chan := failing / 32
      let c := Tab.get Channel.free s.channels chan
      let running := s.ops.any fun o => match o.kind with
        | .stopeRun r true _ => r.chan == chan
        | _ => false
      if 256 ≤ chan || spare != 0 || c.spare.isSome || running then s
      else { s with
        channels := Tab.put chan { c with spare := some (failing % 32) } s.channels
        ctxs := Tab.mapVals (fun _ (x : Context) => { x with banks := Tab.put failing 32 x.banks }) s.ctxs })

end Sys2Proof.Machine
end

