-- ==== Sys2Proof/Machine/Dispatch.lean ====
section
/-! DEFINITION. What each instruction does: one arm per constructor of `Instr`, each one call of its meaning. -/

namespace Sys2Proof.Machine

/-- The effect of one instruction on the machine. -/
def exec (i : Instr) (s : State) : Host.Outcome State Fault Refusal :=
  match i with
  | .resortCompletion crew => Sys2Proof.Machine.execResortCompletion crew s
  | .barCompletion crew => Sys2Proof.Machine.execBarCompletion crew s
  | .abarPerform op => Sys2Proof.Machine.execAbarPerform op s
  | .abarWaitSatisfied op => Sys2Proof.Machine.execAbarWaitSatisfied op s
  | .atomicPerform op => Sys2Proof.Machine.execAtomicPerform op s
  | .copyEarlyEnd op => Sys2Proof.Machine.execCopyEarlyEnd op s
  | .engineRetire op => Sys2Proof.Machine.execEngineRetire op s
  | .armMacroConfigured crew macroNo => Sys2Proof.Machine.execArmMacroConfigured crew macroNo s
  | .mmaQSetForm crew => Sys2Proof.Machine.execMmaQSetForm crew s
  | .matrixPass crew quad => Sys2Proof.Machine.execMatrixPass crew quad s
  | .passReplay crew quad => Sys2Proof.Machine.execPassReplay crew quad s
  | .batchRetire warp => Sys2Proof.Machine.execBatchRetire warp s
  | .filtInsert op => Sys2Proof.Machine.execFiltInsert op s
  | .freqInsert op => Sys2Proof.Machine.execFreqInsert op s
  | .freqDelete op => Sys2Proof.Machine.execFreqDelete op s
  | .distInsert op => Sys2Proof.Machine.execDistInsert op s
  | .quanInsert op => Sys2Proof.Machine.execQuanInsert op s
  | .quanDelete op => Sys2Proof.Machine.execQuanDelete op s
  | .filtQuery op => Sys2Proof.Machine.execFiltQuery op s
  | .freqQuery op => Sys2Proof.Machine.execFreqQuery op s
  | .distEstimate op => Sys2Proof.Machine.execDistEstimate op s
  | .quanQuery op => Sys2Proof.Machine.execQuanQuery op s
  | .sketchMergePerform op => Sys2Proof.Machine.execSketchMergePerform op s
  | .sketchFoldPerform op => Sys2Proof.Machine.execSketchFoldPerform op s
  | .sketchInitPerform op => Sys2Proof.Machine.execSketchInitPerform op s
  | .collRequestAtRoot group request => Sys2Proof.Machine.execCollRequestAtRoot group request s
  | .collStepGrant group => Sys2Proof.Machine.execCollStepGrant group s
  | .collStepResult group => Sys2Proof.Machine.execCollStepResult group s
  | .stepTimerExpiry group => Sys2Proof.Machine.execStepTimerExpiry group s
  | .rankPark ctx rank => Sys2Proof.Machine.execRankPark ctx rank s
  | .rankUnpark ctx rank => Sys2Proof.Machine.execRankUnpark ctx rank s
  | .mcstSwitchReplicate flit => Sys2Proof.Machine.execMcstSwitchReplicate flit s
  | .mcstMemberDelivery flit rank line => Sys2Proof.Machine.execMcstMemberDelivery flit rank line s
  | .mcstReplyCombine flit => Sys2Proof.Machine.execMcstReplyCombine flit s
  | .mcstCompletionWrite flit => Sys2Proof.Machine.execMcstCompletionWrite flit s
  | .groupChangeApply op => Sys2Proof.Machine.execGroupChangeApply op s
  | .gredRetire op => Sys2Proof.Machine.execGredRetire op s
  | .stopeLoadPerform op => Sys2Proof.Machine.execStopeLoadPerform op s
  | .stopeRunStart op => Sys2Proof.Machine.execStopeRunStart op s
  | .stopeUnitEnd channel bank => Sys2Proof.Machine.execStopeUnitEnd channel bank s
  | .stopeRunRetire op => Sys2Proof.Machine.execStopeRunRetire op s
  | .stopeFault channel bank => Sys2Proof.Machine.execStopeFault channel bank s
  | .leaseAbort op page => Sys2Proof.Machine.execLeaseAbort op page s
  | .galleryReplay token target ctx => Sys2Proof.Machine.execGalleryReplay token target ctx s
  | .clauseStart warp frag => Sys2Proof.Machine.execClauseStart warp frag s
  | .ageThreshold warp frag => Sys2Proof.Machine.execAgeThreshold warp frag s
  | .yieldHintExpiry warp frag => Sys2Proof.Machine.execYieldHintExpiry warp frag s
  | .operationCompletion op => Sys2Proof.Machine.execOperationCompletion op s
  | .trapEntry warp frag => Sys2Proof.Machine.execTrapEntry warp frag s
  | .timerTrap warp frag => Sys2Proof.Machine.execTimerTrap warp frag s
  | .faultRecordWrite ctx => Sys2Proof.Machine.execFaultRecordWrite ctx s
  | .regangMerge warp frag => Sys2Proof.Machine.execRegangMerge warp frag s
  | .warpRetire warp => Sys2Proof.Machine.execWarpRetire warp s
  | .queueConfig queue owner cls enable => Sys2Proof.Machine.execQueueConfig queue owner cls enable s
  | .hostLaunchSubmit ctx record => Sys2Proof.Machine.execHostLaunchSubmit ctx record s
  | .contextQueuesSet ctx fault event status request => Sys2Proof.Machine.execContextQueuesSet ctx fault event status request s
  | .queueDispatch queue => Sys2Proof.Machine.execQueueDispatch queue s
  | .crewPlacement core => Sys2Proof.Machine.execCrewPlacement core s
  | .launchCompletion launch => Sys2Proof.Machine.execLaunchCompletion launch s
  | .contextStop ctx => Sys2Proof.Machine.execContextStop ctx s
  | .contextResume ctx => Sys2Proof.Machine.execContextResume ctx s
  | .cageReservationChange die drifts => Sys2Proof.Machine.execCageReservationChange die drifts s
  | .partialEviction core => Sys2Proof.Machine.execPartialEviction core s
  | .evictedRestore core => Sys2Proof.Machine.execEvictedRestore core s
  | .driftSwap drift => Sys2Proof.Machine.execDriftSwap drift s
  | .imageMove crew => Sys2Proof.Machine.execImageMove crew s
  | .contextMigrateResume ctx drift => Sys2Proof.Machine.execContextMigrateResume ctx drift s
  | .shootdown ctx page => Sys2Proof.Machine.execShootdown ctx page s
  | .l1Eviction core sector => Sys2Proof.Machine.execL1Eviction core sector s
  | .hwPrefetch core pa => Sys2Proof.Machine.execHwPrefetch core pa s
  | .loadFillReturn op => Sys2Proof.Machine.execLoadFillReturn op s
  | .storePerformHome op => Sys2Proof.Machine.execStorePerformHome op s
  | .fp4sStorePerform op => Sys2Proof.Machine.execFp4sStorePerform op s
  | .missEntryGrant op => Sys2Proof.Machine.execMissEntryGrant op s
  | .tokenGrant ctx region => Sys2Proof.Machine.execTokenGrant ctx region s
  | .tokenPass ctx region => Sys2Proof.Machine.execTokenPass ctx region s
  | .mapAccessPerform op => Sys2Proof.Machine.execMapAccessPerform op s
  | .fabAccessTarget op peer => Sys2Proof.Machine.execFabAccessTarget op peer s
  | .hostCxlAccess pa write => Sys2Proof.Machine.execHostCxlAccess pa write s
  | .windowRevoke ctx window => Sys2Proof.Machine.execWindowRevoke ctx window s
  | .remapInstall ctx rank field module => Sys2Proof.Machine.execRemapInstall ctx rank field module s
  | .remapDrain ctx rank => Sys2Proof.Machine.execRemapDrain ctx rank s
  | .remapRetire ctx rank => Sys2Proof.Machine.execRemapRetire ctx rank s
  | .governorWindowEnd core quad => Sys2Proof.Machine.execGovernorWindowEnd core quad s
  | .timingCalibration core quad => Sys2Proof.Machine.execTimingCalibration core quad s
  | .scrub place => Sys2Proof.Machine.execScrub place s
  | .l2EvictUncorrectable pa => Sys2Proof.Machine.execL2EvictUncorrectable pa s
  | .telemetryRecord watts => Sys2Proof.Machine.execTelemetryRecord watts s
  | .powerWindow watts => Sys2Proof.Machine.execPowerWindow watts s
  | .ceilingRaise watts => Sys2Proof.Machine.execCeilingRaise watts s
  | .plimSet watts => Sys2Proof.Machine.execPlimSet watts s
  | .sysEcho op => Sys2Proof.Machine.execSysEcho op s
  | .sysRegisterTokenRegion op => Sys2Proof.Machine.execSysRegisterTokenRegion op s
  | .sysRemoveTokenRegion op => Sys2Proof.Machine.execSysRemoveTokenRegion op s
  | .sysMapWindow op => Sys2Proof.Machine.execSysMapWindow op s
  | .sysRevokeWindow op => Sys2Proof.Machine.execSysRevokeWindow op s
  | .sysClaimStopeChannel op => Sys2Proof.Machine.execSysClaimStopeChannel op s
  | .sysReleaseStopeChannel op => Sys2Proof.Machine.execSysReleaseStopeChannel op s
  | .sysAnswer op => Sys2Proof.Machine.execSysAnswer op s
  | .boot power result => Sys2Proof.Machine.execBoot power result s
  | .recoveryImage good digest => Sys2Proof.Machine.execRecoveryImage good digest s
  | .msExtend slot digest => Sys2Proof.Machine.execMsExtend slot digest s
  | .attestationReport nonce => Sys2Proof.Machine.execAttestationReport nonce s
  | .keySlotAssign ctx slot => Sys2Proof.Machine.execKeySlotAssign ctx slot s
  | .contextDestroy ctx => Sys2Proof.Machine.execContextDestroy ctx s
  | .shotPermission ctx granted => Sys2Proof.Machine.execShotPermission ctx granted s
  | .debugEnableSet ctx enable => Sys2Proof.Machine.execDebugEnableSet ctx enable s
  | .shotTrigger source => Sys2Proof.Machine.execShotTrigger source s
  | .fabricShotMessage time => Sys2Proof.Machine.execFabricShotMessage time s
  | .shotRelease => Sys2Proof.Machine.execShotRelease s
  | .spareRemap core failing spare => Sys2Proof.Machine.execSpareRemap core failing spare s
  | .linkLoss rank => Sys2Proof.Machine.execLinkLoss rank s
  | .controlClusterAccess pa write => Sys2Proof.Machine.execControlClusterAccess pa write s
  | .stopeClauseIssue channel bank => Sys2Proof.Machine.execStopeClauseIssue channel bank s
  | .fabricReplyLimit flit rank => Sys2Proof.Machine.execFabricReplyLimit flit rank s
  | .homeShareWriteback line => Sys2Proof.Machine.execHomeShareWriteback line s
  | .memoryError place correctable => Sys2Proof.Machine.execMemoryError place correctable s
  | .cxlCacheSnoop pa => Sys2Proof.Machine.execCxlCacheSnoop pa s
  | .groupTableWrite index entry => Sys2Proof.Machine.execGroupTableWrite index entry s
  | .contextSettings ctx setting => Sys2Proof.Machine.execContextSettings ctx setting s
  | .snapshotExportGate ctx => Sys2Proof.Machine.execSnapshotExportGate ctx s
  | .clauseHeader w a b l e y => Sys2Proof.Machine.execClauseHeader w a b l e y s
  | .bra p n c o => Sys2Proof.Machine.execBra p n c o s
  | .brs p n o => Sys2Proof.Machine.execBrs p n o s
  | .call o => Sys2Proof.Machine.execCall o s
  | .ret p n c => Sys2Proof.Machine.execRet p n c s
  | .ifThen p n o => Sys2Proof.Machine.execIfThen p n o s
  | .elseThen o => Sys2Proof.Machine.execElseThen o s
  | .loop o => Sys2Proof.Machine.execLoop o s
  | .endloop o => Sys2Proof.Machine.execEndloop o s
  | .mark o => Sys2Proof.Machine.execMark o s
  | .rptImm c l => Sys2Proof.Machine.execRptImm c l s
  | .rptReg k l => Sys2Proof.Machine.execRptReg k l s
  | .regang m => Sys2Proof.Machine.execRegang m s
  | .setm m => Sys2Proof.Machine.execSetm m s
  | .setmReg a => Sys2Proof.Machine.execSetmReg a s
  | .lim l => Sys2Proof.Machine.execLim l s
  | .limh h => Sys2Proof.Machine.execLimh h s
  | .rdsr d a => Sys2Proof.Machine.execRdsr d a s
  | .rdsrS d a => Sys2Proof.Machine.execRdsrS d a s
  | .wrsr a b => Sys2Proof.Machine.execWrsr a b s
  | .add d a b => Sys2Proof.Machine.execAdd d a b s
  | .addI d a imm => Sys2Proof.Machine.execAddI d a imm s
  | .addS d a b => Sys2Proof.Machine.execAddS d a b s
  | .addSi d a imm => Sys2Proof.Machine.execAddSi d a imm s
  | .sub d a b => Sys2Proof.Machine.execSub d a b s
  | .subI d a imm => Sys2Proof.Machine.execSubI d a imm s
  | .subS d a b => Sys2Proof.Machine.execSubS d a b s
  | .subSi d a imm => Sys2Proof.Machine.execSubSi d a imm s
  | .addc d a b => Sys2Proof.Machine.execAddc d a b s
  | .addcI d a imm => Sys2Proof.Machine.execAddcI d a imm s
  | .subb d a b => Sys2Proof.Machine.execSubb d a b s
  | .subbI d a imm => Sys2Proof.Machine.execSubbI d a imm s
  | .mul d a b => Sys2Proof.Machine.execMul d a b s
  | .mulI d a imm => Sys2Proof.Machine.execMulI d a imm s
  | .mulS d a b => Sys2Proof.Machine.execMulS d a b s
  | .mulSi d a imm => Sys2Proof.Machine.execMulSi d a imm s
  | .mulh d a b => Sys2Proof.Machine.execMulh d a b s
  | .mulhI d a imm => Sys2Proof.Machine.execMulhI d a imm s
  | .mulhS d a b => Sys2Proof.Machine.execMulhS d a b s
  | .mulhSi d a imm => Sys2Proof.Machine.execMulhSi d a imm s
  | .idiv d a b => Sys2Proof.Machine.execIdiv d a b s
  | .idivI d a imm => Sys2Proof.Machine.execIdivI d a imm s
  | .idivS d a b => Sys2Proof.Machine.execIdivS d a b s
  | .idivSi d a imm => Sys2Proof.Machine.execIdivSi d a imm s
  | .irem d a b => Sys2Proof.Machine.execIrem d a b s
  | .iremI d a imm => Sys2Proof.Machine.execIremI d a imm s
  | .iremS d a b => Sys2Proof.Machine.execIremS d a b s
  | .iremSi d a imm => Sys2Proof.Machine.execIremSi d a imm s
  | .min d a b => Sys2Proof.Machine.execMin d a b s
  | .minI d a imm => Sys2Proof.Machine.execMinI d a imm s
  | .minS d a b => Sys2Proof.Machine.execMinS d a b s
  | .minSi d a imm => Sys2Proof.Machine.execMinSi d a imm s
  | .max d a b => Sys2Proof.Machine.execMax d a b s
  | .maxI d a imm => Sys2Proof.Machine.execMaxI d a imm s
  | .maxS d a b => Sys2Proof.Machine.execMaxS d a b s
  | .maxSi d a imm => Sys2Proof.Machine.execMaxSi d a imm s
  | .andBits d a b => Sys2Proof.Machine.execAndBits d a b s
  | .andBitsI d a imm => Sys2Proof.Machine.execAndBitsI d a imm s
  | .andBitsS d a b => Sys2Proof.Machine.execAndBitsS d a b s
  | .andBitsSi d a imm => Sys2Proof.Machine.execAndBitsSi d a imm s
  | .orBits d a b => Sys2Proof.Machine.execOrBits d a b s
  | .orBitsI d a imm => Sys2Proof.Machine.execOrBitsI d a imm s
  | .orBitsS d a b => Sys2Proof.Machine.execOrBitsS d a b s
  | .orBitsSi d a imm => Sys2Proof.Machine.execOrBitsSi d a imm s
  | .xorBits d a b => Sys2Proof.Machine.execXorBits d a b s
  | .xorBitsI d a imm => Sys2Proof.Machine.execXorBitsI d a imm s
  | .xorBitsS d a b => Sys2Proof.Machine.execXorBitsS d a b s
  | .xorBitsSi d a imm => Sys2Proof.Machine.execXorBitsSi d a imm s
  | .shl d a b => Sys2Proof.Machine.execShl d a b s
  | .shlI d a imm => Sys2Proof.Machine.execShlI d a imm s
  | .shlS d a b => Sys2Proof.Machine.execShlS d a b s
  | .shlSi d a imm => Sys2Proof.Machine.execShlSi d a imm s
  | .shr d a b => Sys2Proof.Machine.execShr d a b s
  | .shrI d a imm => Sys2Proof.Machine.execShrI d a imm s
  | .shrS d a b => Sys2Proof.Machine.execShrS d a b s
  | .shrSi d a imm => Sys2Proof.Machine.execShrSi d a imm s
  | .sar d a b => Sys2Proof.Machine.execSar d a b s
  | .sarI d a imm => Sys2Proof.Machine.execSarI d a imm s
  | .sarS d a b => Sys2Proof.Machine.execSarS d a b s
  | .sarSi d a imm => Sys2Proof.Machine.execSarSi d a imm s
  | .rot d a b => Sys2Proof.Machine.execRot d a b s
  | .rotI d a imm => Sys2Proof.Machine.execRotI d a imm s
  | .rotS d a b => Sys2Proof.Machine.execRotS d a b s
  | .rotSi d a imm => Sys2Proof.Machine.execRotSi d a imm s
  | .notBits d a => Sys2Proof.Machine.execNotBits d a s
  | .notBitsS d a => Sys2Proof.Machine.execNotBitsS d a s
  | .clz d a => Sys2Proof.Machine.execClz d a s
  | .clzS d a => Sys2Proof.Machine.execClzS d a s
  | .popc d a => Sys2Proof.Machine.execPopc d a s
  | .popcS d a => Sys2Proof.Machine.execPopcS d a s
  | .brev d a => Sys2Proof.Machine.execBrev d a s
  | .brevS d a => Sys2Proof.Machine.execBrevS d a s
  | .abs d a => Sys2Proof.Machine.execAbs d a s
  | .absS d a => Sys2Proof.Machine.execAbsS d a s
  | .mov d a => Sys2Proof.Machine.execMov d a s
  | .movS d a => Sys2Proof.Machine.execMovS d a s
  | .movImm d imm => Sys2Proof.Machine.execMovImm d imm s
  | .movSImm d imm => Sys2Proof.Machine.execMovSImm d imm s
  | .cmpEq d a b => Sys2Proof.Machine.execCmpEq d a b s
  | .cmpEqI d a imm => Sys2Proof.Machine.execCmpEqI d a imm s
  | .cmpEqS d a b => Sys2Proof.Machine.execCmpEqS d a b s
  | .cmpEqSi d a imm => Sys2Proof.Machine.execCmpEqSi d a imm s
  | .cmpNe d a b => Sys2Proof.Machine.execCmpNe d a b s
  | .cmpNeI d a imm => Sys2Proof.Machine.execCmpNeI d a imm s
  | .cmpNeS d a b => Sys2Proof.Machine.execCmpNeS d a b s
  | .cmpNeSi d a imm => Sys2Proof.Machine.execCmpNeSi d a imm s
  | .cmpLt d a b => Sys2Proof.Machine.execCmpLt d a b s
  | .cmpLtI d a imm => Sys2Proof.Machine.execCmpLtI d a imm s
  | .cmpLtS d a b => Sys2Proof.Machine.execCmpLtS d a b s
  | .cmpLtSi d a imm => Sys2Proof.Machine.execCmpLtSi d a imm s
  | .cmpLe d a b => Sys2Proof.Machine.execCmpLe d a b s
  | .cmpLeI d a imm => Sys2Proof.Machine.execCmpLeI d a imm s
  | .cmpLeS d a b => Sys2Proof.Machine.execCmpLeS d a b s
  | .cmpLeSi d a imm => Sys2Proof.Machine.execCmpLeSi d a imm s
  | .cmpGt d a b => Sys2Proof.Machine.execCmpGt d a b s
  | .cmpGtI d a imm => Sys2Proof.Machine.execCmpGtI d a imm s
  | .cmpGtS d a b => Sys2Proof.Machine.execCmpGtS d a b s
  | .cmpGtSi d a imm => Sys2Proof.Machine.execCmpGtSi d a imm s
  | .cmpGe d a b => Sys2Proof.Machine.execCmpGe d a b s
  | .cmpGeI d a imm => Sys2Proof.Machine.execCmpGeI d a imm s
  | .cmpGeS d a b => Sys2Proof.Machine.execCmpGeS d a b s
  | .cmpGeSi d a imm => Sys2Proof.Machine.execCmpGeSi d a imm s
  | .mad d a b => Sys2Proof.Machine.execMad d a b s
  | .madS d a b => Sys2Proof.Machine.execMadS d a b s
  | .bfe d a b => Sys2Proof.Machine.execBfe d a b s
  | .bfeS d a b => Sys2Proof.Machine.execBfeS d a b s
  | .bfi d a b => Sys2Proof.Machine.execBfi d a b s
  | .bfiS d a b => Sys2Proof.Machine.execBfiS d a b s
  | .sel d a b n p => Sys2Proof.Machine.execSel d a b n p s
  | .laneLt d => Sys2Proof.Machine.execLaneLt d s
  | .laneLe d => Sys2Proof.Machine.execLaneLe d s
  | .laneGt d => Sys2Proof.Machine.execLaneGt d s
  | .laneGe d => Sys2Proof.Machine.execLaneGe d s
  | .laneEq d => Sys2Proof.Machine.execLaneEq d s
  | .shflIdx d m src => Sys2Proof.Machine.execShflIdx d m src s
  | .shflUp d m src => Sys2Proof.Machine.execShflUp d m src s
  | .shflDown d m src => Sys2Proof.Machine.execShflDown d m src s
  | .shflXor d m src => Sys2Proof.Machine.execShflXor d m src s
  | .shflIdxI d m imm => Sys2Proof.Machine.execShflIdxI d m imm s
  | .shflUpI d m imm => Sys2Proof.Machine.execShflUpI d m imm s
  | .shflDownI d m imm => Sys2Proof.Machine.execShflDownI d m imm s
  | .shflXorI d m imm => Sys2Proof.Machine.execShflXorI d m imm s
  | .voteAny d a m => Sys2Proof.Machine.execVoteAny d a m s
  | .voteAll d a m => Sys2Proof.Machine.execVoteAll d a m s
  | .voteUni d a m => Sys2Proof.Machine.execVoteUni d a m s
  | .ballot d a m => Sys2Proof.Machine.execBallot d a m s
  | .matchLanes d a m => Sys2Proof.Machine.execMatchLanes d a m s
  | .redAdd d a m => Sys2Proof.Machine.execRedAdd d a m s
  | .redMin d a m => Sys2Proof.Machine.execRedMin d a m s
  | .redMax d a m => Sys2Proof.Machine.execRedMax d a m s
  | .redAnd d a m => Sys2Proof.Machine.execRedAnd d a m s
  | .redOr d a m => Sys2Proof.Machine.execRedOr d a m s
  | .redXor d a m => Sys2Proof.Machine.execRedXor d a m s
  | .scanAdd d a m => Sys2Proof.Machine.execScanAdd d a m s
  | .scanMin d a m => Sys2Proof.Machine.execScanMin d a m s
  | .scanMax d a m => Sys2Proof.Machine.execScanMax d a m s
  | .scanAnd d a m => Sys2Proof.Machine.execScanAnd d a m s
  | .scanOr d a m => Sys2Proof.Machine.execScanOr d a m s
  | .scanXor d a m => Sys2Proof.Machine.execScanXor d a m s
  | .resort a b => Sys2Proof.Machine.execResort a b s
  | .s2v d a => Sys2Proof.Machine.execS2v d a s
  | .v2s d a => Sys2Proof.Machine.execV2s d a s
  | .pand d a b => Sys2Proof.Machine.execPand d a b s
  | .por d a b => Sys2Proof.Machine.execPor d a b s
  | .pxor d a b => Sys2Proof.Machine.execPxor d a b s
  | .pnot d a => Sys2Proof.Machine.execPnot d a s
  | .pmov d a => Sys2Proof.Machine.execPmov d a s
  | .fadd d a b => Sys2Proof.Machine.execFadd d a b s
  | .fsub d a b => Sys2Proof.Machine.execFsub d a b s
  | .fmul d a b => Sys2Proof.Machine.execFmul d a b s
  | .fmin d a b => Sys2Proof.Machine.execFmin d a b s
  | .fmax d a b => Sys2Proof.Machine.execFmax d a b s
  | .fdiv d a b => Sys2Proof.Machine.execFdiv d a b s
  | .faddI d a imm => Sys2Proof.Machine.execFaddI d a imm s
  | .fsubI d a imm => Sys2Proof.Machine.execFsubI d a imm s
  | .fmulI d a imm => Sys2Proof.Machine.execFmulI d a imm s
  | .fminI d a imm => Sys2Proof.Machine.execFminI d a imm s
  | .fmaxI d a imm => Sys2Proof.Machine.execFmaxI d a imm s
  | .fdivI d a imm => Sys2Proof.Machine.execFdivI d a imm s
  | .ffma d a b => Sys2Proof.Machine.execFfma d a b s
  | .fcmpEq d a b => Sys2Proof.Machine.execFcmpEq d a b s
  | .fcmpNe d a b => Sys2Proof.Machine.execFcmpNe d a b s
  | .fcmpLt d a b => Sys2Proof.Machine.execFcmpLt d a b s
  | .fcmpLe d a b => Sys2Proof.Machine.execFcmpLe d a b s
  | .fcmpGt d a b => Sys2Proof.Machine.execFcmpGt d a b s
  | .fcmpGe d a b => Sys2Proof.Machine.execFcmpGe d a b s
  | .fcmpUn d a b => Sys2Proof.Machine.execFcmpUn d a b s
  | .fcmpOrd d a b => Sys2Proof.Machine.execFcmpOrd d a b s
  | .frcp d a => Sys2Proof.Machine.execFrcp d a s
  | .frsq d a => Sys2Proof.Machine.execFrsq d a s
  | .fsqrt d a => Sys2Proof.Machine.execFsqrt d a s
  | .fexp2 d a => Sys2Proof.Machine.execFexp2 d a s
  | .flog2 d a => Sys2Proof.Machine.execFlog2 d a s
  | .fsin d a => Sys2Proof.Machine.execFsin d a s
  | .fcos d a => Sys2Proof.Machine.execFcos d a s
  | .ftanh d a => Sys2Proof.Machine.execFtanh d a s
  | .fcvt d a src => Sys2Proof.Machine.execFcvt d a src s
  | .fclass d a => Sys2Proof.Machine.execFclass d a s
  | .qcvt d a b => Sys2Proof.Machine.execQcvt d a b s
  | .dqcvt d a b => Sys2Proof.Machine.execDqcvt d a b s
  | .bscale d a b => Sys2Proof.Machine.execBscale d a b s
  | .had32 d a => Sys2Proof.Machine.execHad32 d a s
  | .rng d => Sys2Proof.Machine.execRng d s
  | .rngseed a => Sys2Proof.Machine.execRngseed a s
  | .pack d a imm => Sys2Proof.Machine.execPack d a imm s
  | .unpack d a imm => Sys2Proof.Machine.execUnpack d a imm s
  | .rdflg d n => Sys2Proof.Machine.execRdflg d n s
  | .clrflg m => Sys2Proof.Machine.execClrflg m s
  | .ld d a b p u q => Sys2Proof.Machine.execLd d a b p u q s
  | .ldn d a b p u q => Sys2Proof.Machine.execLdn d a b p u q s
  | .ldk d a b u => Sys2Proof.Machine.execLdk d a b u s
  | .st d a b u => Sys2Proof.Machine.execSt d a b u s
  | .cstore d a b u => Sys2Proof.Machine.execCstore d a b u s
  | .pref a b u => Sys2Proof.Machine.execPref a b u s
  | .pgreq a b u => Sys2Proof.Machine.execPgreq a b u s
  | .ldAcq d a o u b => Sys2Proof.Machine.execLdAcq d a o u b s
  | .stRel d a o u b => Sys2Proof.Machine.execStRel d a o u b s
  | .fenceAcq o => Sys2Proof.Machine.execFenceAcq o s
  | .fenceRel o => Sys2Proof.Machine.execFenceRel o s
  | .fenceAr o => Sys2Proof.Machine.execFenceAr o s
  | .abarInit d a b => Sys2Proof.Machine.execAbarInit d a b s
  | .abarArr d a b => Sys2Proof.Machine.execAbarArr d a b s
  | .abarWait d a b => Sys2Proof.Machine.execAbarWait d a b s
  | .abarWd d a b => Sys2Proof.Machine.execAbarWd d a b s
  | .tkacq a b => Sys2Proof.Machine.execTkacq a b s
  | .tkrel a b => Sys2Proof.Machine.execTkrel a b s
  | .bset d a => Sys2Proof.Machine.execBset d a s
  | .bget d a => Sys2Proof.Machine.execBget d a s
  | .atomAdd d a b n => Sys2Proof.Machine.execAtomAdd d a b n s
  | .atomMin d a b n => Sys2Proof.Machine.execAtomMin d a b n s
  | .atomMax d a b n => Sys2Proof.Machine.execAtomMax d a b n s
  | .atomAnd d a b n => Sys2Proof.Machine.execAtomAnd d a b n s
  | .atomOr d a b n => Sys2Proof.Machine.execAtomOr d a b n s
  | .atomXor d a b n => Sys2Proof.Machine.execAtomXor d a b n s
  | .atomExch d a b n => Sys2Proof.Machine.execAtomExch d a b n s
  | .cas d a b n => Sys2Proof.Machine.execCas d a b n s
  | .waitc n c => Sys2Proof.Machine.execWaitc n c s
  | .yieldc o n c => Sys2Proof.Machine.execYieldc o n c s
  | .cpy d src k => Sys2Proof.Machine.execCpy d src k s
  | .cpy2d d src k => Sys2Proof.Machine.execCpy2d d src k s
  | .arm a => Sys2Proof.Machine.execArm a s
  | .disarm a => Sys2Proof.Machine.execDisarm a s
  | .mma d a b => Sys2Proof.Machine.execMma d a b s
  | .mmaQ d a b => Sys2Proof.Machine.execMmaQ d a b s
  | .mmaG d a b => Sys2Proof.Machine.execMmaG d a b s
  | .drain d a b => Sys2Proof.Machine.execDrain d a b s
  | .czero d => Sys2Proof.Machine.execCzero d s
  | .cld d a b => Sys2Proof.Machine.execCld d a b s
  | .cst d a b => Sys2Proof.Machine.execCst d a b s
  | .mbatch d => Sys2Proof.Machine.execMbatch d s
  | .waitb a => Sys2Proof.Machine.execWaitb a s
  | .wfwd d a l => Sys2Proof.Machine.execWfwd d a l s
  | .winv d a => Sys2Proof.Machine.execWinv d a s
  | .wthr n => Sys2Proof.Machine.execWthr n s
  | .wtag d a => Sys2Proof.Machine.execWtag d a s
  | .skinit d a b => Sys2Proof.Machine.execSkinit d a b s
  | .skmerge d a b => Sys2Proof.Machine.execSkmerge d a b s
  | .skfold a b => Sys2Proof.Machine.execSkfold a b s
  | .skstat d n => Sys2Proof.Machine.execSkstat d n s
  | .skdel d a b u => Sys2Proof.Machine.execSkdel d a b u s
  | .collSum d a b => Sys2Proof.Machine.execCollSum d a b s
  | .collMin d a b => Sys2Proof.Machine.execCollMin d a b s
  | .collMax d a b => Sys2Proof.Machine.execCollMax d a b s
  | .collNse d a b => Sys2Proof.Machine.execCollNse d a b s
  | .collNsb d a b => Sys2Proof.Machine.execCollNsb d a b s
  | .collSkm d a b => Sys2Proof.Machine.execCollSkm d a b s
  | .mcst d a n => Sys2Proof.Machine.execMcst d a n s
  | .grpchg d a => Sys2Proof.Machine.execGrpchg d a s
  | .gredAdd d a b p u => Sys2Proof.Machine.execGredAdd d a b p u s
  | .gredMin d a b p u => Sys2Proof.Machine.execGredMin d a b p u s
  | .gredMax d a b p u => Sys2Proof.Machine.execGredMax d a b p u s
  | .stopeLoad d a n => Sys2Proof.Machine.execStopeLoad d a n s
  | .stopeRun a => Sys2Proof.Machine.execStopeRun a s
  | .stopeWait d a => Sys2Proof.Machine.execStopeWait d a s
  | .launch d a b => Sys2Proof.Machine.execLaunch d a b s
  | .trap n => Sys2Proof.Machine.execTrap n s
  | .sys d a n => Sys2Proof.Machine.execSys d a n s
  | .settmr a => Sys2Proof.Machine.execSettmr a s
  | .settmrRel a => Sys2Proof.Machine.execSettmrRel a s
  | .snap d a => Sys2Proof.Machine.execSnap d a s
  | .replayTok a => Sys2Proof.Machine.execReplayTok a s
  | .replayPg a => Sys2Proof.Machine.execReplayPg a s
  | .nop => Sys2Proof.Machine.execNop s
  | .endif => Sys2Proof.Machine.execEndif s
  | .brk => Sys2Proof.Machine.execBrk s
  | .cont => Sys2Proof.Machine.execCont s
  | .exit => Sys2Proof.Machine.execExit s
  | .join => Sys2Proof.Machine.execJoin s
  | .yield => Sys2Proof.Machine.execYield s
  | .bar => Sys2Proof.Machine.execBar s
  | .openw => Sys2Proof.Machine.execOpenw s
  | .closew => Sys2Proof.Machine.execClosew s
  | .l1inv => Sys2Proof.Machine.execL1inv s
  | .l1wb => Sys2Proof.Machine.execL1wb s
  | .rtt => Sys2Proof.Machine.execRtt s
  | .bkpt => Sys2Proof.Machine.execBkpt s

end Sys2Proof.Machine
end

