-- ==== Sys2Proof/Machine/Turns.lean ====
section
/-! DEFINITION. Whose turn it is: the issue of a fragment's next word (R47), the passing of time (R48, R69, R377), the turns
that are taken when nothing else is asked for (notes/assumptions/3), and a place for one instruction (notes/assumptions/4). -/

namespace Sys2Proof.Machine

/-! ## The next word of a fragment -/

/-- Run the instruction that a word stands for; a word that stands for none, or whose fields break a limit, comes to `bad`
(R88). -/
noncomputable def State.runWord (s bad : State) (w : Word) : Host.Outcome State Fault Refusal :=
  match decode w with
  | .ok i => if i.wf then exec i s else .next bad
  | .error _ => .next bad

/-- The illegal-instruction fault of the fragment in a clause (R56, R88). -/
def State.illegalAt (s : State) (k n : Nat) (w : Warp) (f : Frag) (c : Clause) (word : Word) : State :=
  s.takeFault k n { cause := causeIllegal, lanes := w.active f, info := word } c.pos c.header .replay

/-- The header at the PC of a fragment between clauses is fetched and run; any other word there is no clause (R82, R387). -/
noncomputable def State.runHeader (s : State) (k n : Nat) (w : Warp) (f : Frag) : Host.Outcome State Fault Refusal :=
  let core := ((Tab.lookup w.crew s.crews).map (·.core)).getD 0
  match s.fetchWord (s.ctxOfCrew w.crew) core f.pc with
  | .error (c, page) => .next (s.fetchFault k n f.pc c page)
  | .ok hw =>
    if majorOf hw == 0x7F then s.runWord (s.startIllegal k n 0 hw) hw else .next (s.startIllegal k n 0 hw)

/-- The fragment that has the issue slot goes on: with the next word of its clause, or with the header at its PC. -/
noncomputable def State.runCurrent (s : State) (k n : Nat) : Host.Outcome State Fault Refusal :=
  match s.fragOf k n with
  | none => .next { s with cur := none }
  | some (w, f) =>
    match f.clause with
    | some c => let word := c.words.getD c.pos 0
      s.runWord (s.illegalAt k n w f c word) word
    | none => s.runHeader k n w f

/-- May a fragment that was held take the issue slot again (R47, R223)?  One at a `bar` whose release is still to take effect
tries again. -/
def State.mayIssue (s : State) (k : Nat) (w : Warp) (f : Frag) : Bool :=
  f.clause.isSome && !w.evicted && !w.retired &&
    ([FragState.ready, .trapped, .held, .yielded].contains f.state || (f.state == .barrier && f.word == barWord && f.waitOp.isSome)) &&
    match Tab.lookup w.crew s.crews with
    | none => false
    | some c => s.crewGoes c && !s.quadBusy c.core (w.id % 4) k (fragNo f.mask)

/-- Is a step of Gallery's own making, which none takes before Headframe has released the control cluster (R373, R374)? -/
def galleryStep : Instr → Bool
  | .galleryReplay .. | .leaseAbort .. | .queueConfig .. | .hostLaunchSubmit .. | .contextQueuesSet .. | .contextStop .. |
    .contextResume .. | .cageReservationChange .. | .driftSwap .. | .imageMove .. | .contextMigrateResume .. | .shootdown .. |
    .windowRevoke .. | .remapInstall .. | .plimSet .. | .sysEcho .. | .sysRegisterTokenRegion .. | .sysRemoveTokenRegion .. |
    .sysMapWindow .. | .sysRevokeWindow .. | .sysClaimStopeChannel .. | .sysReleaseStopeChannel .. | .sysAnswer .. | .msExtend .. |
    .keySlotAssign .. | .contextDestroy .. | .shotPermission .. | .debugEnableSet .. | .shotTrigger (.from .gallery) |
    .shotTrigger (.mask _) | .shotRelease |
    .spareRemap .. | .controlClusterAccess .. | .groupTableWrite .. | .contextSettings .. | .snapshotExportGate .. => true
  | _ => false

/-- Has Headframe released the control cluster: has stage 3 ended (R373)? -/
def Trust.released (t : Trust) : Bool := decide (4 ≤ t.stage)

/-- One turn. -/
noncomputable def State.take (s : State) : Turn → Host.Outcome State Fault Refusal
  | .event i => if galleryStep i && !s.trust.released then .next s else exec i s
  | .issue k n =>
    match s.fragOf k n with
    | none => .next s
    | some (w, f) =>
      if s.mayIssue k w f then
        (({ s with cur := some (k, n) } : State).mapFrag k n fun f => { f with suspended := false }).runCurrent k n
      else .next s

/-! ## Time -/

/-- Time goes on with a step, what a cache holds beyond its size leaves it, and what waits in the queues of homes is performed when it
may be. -/
def State.tick (s : State) : State :=
  let n := Config.cycles s.freeCtr
  let t : State :=
    { s with
      time := s.time + BitVec.ofNat 64 (Config.ticks s.freeCtr)
      freeCtr := s.freeCtr + 1 }
  (t.passCycles n).trim.dueShots.outsideDue

/-! ## The turns that nothing else asks for -/

/-- The request of a crew of this module for the step of a collective. -/
def State.requestOf (s : State) (o : Op) (c : Collective) : Turn :=
  let crew := (s.crewOf o).getD Crew.blank
  .event (.collRequestAtRoot (collGroup c.desc)
    { rank := s.rankOf crew.ctx, crewRow := crew.row, crewCol := crew.col, operation := c.operation, type := c.type,
      count := 0, warps := 0, gen := 0, step := c.step, data := [], skip := [], object := [] })

/-- The events that concern a request. -/
def State.opTurns (s : State) (o : Op) : List Turn :=
  let n := o.id
  let away := o.kind.accs.any fun x => match x.place with
    | .pa _ => false
    | _ => true
  if away then [.event (.missEntryGrant n), .event (.mapAccessPerform n), .event (.fabAccessTarget n none)] else
  match o.kind with
  | .load .. | .tile .. => [.event (.missEntryGrant n), .event (.loadFillReturn n)]
  | .store .. => [.event (.missEntryGrant n), .event (.operationCompletion n), .event (.storePerformHome n)]
  | .prefetch .. => [.event (.missEntryGrant n), .event (.operationCompletion n)]
  | .fp4s .. => [.event (.missEntryGrant n), .event (.operationCompletion n), .event (.fp4sStorePerform n)]
  | .insert false .. => [.event (.missEntryGrant n), .event (.operationCompletion n), .event (.filtInsert n), .event (.freqInsert n),
      .event (.distInsert n), .event (.quanInsert n)]
  | .insert true .. => [.event (.operationCompletion n), .event (.freqDelete n), .event (.quanDelete n)]
  | .query .. => [.event (.filtQuery n), .event (.freqQuery n), .event (.distEstimate n), .event (.quanQuery n)]
  | .skinit .. => [.event (.sketchInitPerform n)]
  | .skmerge .. => [.event (.sketchMergePerform n)]
  | .skfold .. => [.event (.sketchFoldPerform n)]
  | .atomic .. => [.event (.atomicPerform n)]
  | .abar .. => [.event (.abarPerform n), .event (.abarWaitSatisfied n)]
  | .copy .. => [.event (.engineRetire n), .event (.copyEarlyEnd n)]
  | .gred .. => [.event (.gredRetire n)]
  | .stopeLoad .. => [.event (.stopeLoadPerform n)]
  | .stopeRun r _ us => [.event (.stopeRunStart n), .event (.stopeRunRetire n)] ++
      us.flatMap fun u => if u.2.ended then []
        else [.event (.stopeClauseIssue r.chan u.1), .event (.stopeUnitEnd r.chan u.1), .event (.stopeFault r.chan u.1)]
  | .mcst m => [.event (.mcstSwitchReplicate n), .event (.mcstReplyCombine n), .event (.mcstCompletionWrite n)] ++
      m.members.map fun r => .event (.mcstMemberDelivery n r none)
  | .coll c => [s.requestOf o c, .event (.collStepGrant (collGroup c.desc)), .event (.collStepResult (collGroup c.desc))]
  | .grpchg .. => [.event (.groupChangeApply n)]
  | .sys .. => [.event (.sysEcho n), .event (.sysRegisterTokenRegion n), .event (.sysRemoveTokenRegion n),
      .event (.sysMapWindow n), .event (.sysRevokeWindow n), .event (.sysClaimStopeChannel n),
      .event (.sysReleaseStopeChannel n), .event (.sysAnswer n)]
  | _ => [.event (.operationCompletion n)]

/-- The turns of a warp and its fragments. -/
def State.warpTurns (s : State) (k : Nat) (w : Warp) : List Turn :=
  if w.retired then if w.closedBatches.isEmpty then [] else [.event (.batchRetire k)]
  else if w.evicted || !s.resident w then []
  else [.event (.batchRetire k), .event (.warpRetire k)] ++ w.frags.flatMap fun f =>
    let n := fragNo f.mask
    if f.clause.isSome then
      if f.state == .regang then [.event (.regangMerge k n)]
      else if s.mayIssue k w f then [.issue k n] else []
    else if f.atBoundary then
      if w.takesTimer f then [.event (.timerTrap k n)]
      else if w.trapDue f then [.event (.trapEntry k n)]
      else [.event (.clauseStart k n)]
    else []

/-- The turns of a crew and its matrix engine. -/
def State.crewTurns (k : Nat) (c : Crew) : List Turn :=
  if c.state == .evicted || (c.state == .exited && c.engine.isEmpty) then []
  else [.event (.barCompletion k), .event (.resortCompletion k)] ++ (c.arming.map fun m => .event (.armMacroConfigured k m)) ++
    if c.engine.isEmpty then [] else .event (.mmaQSetForm k) :: (List.range 4).flatMap fun q =>
      [.event (.matrixPass k q), .event (.governorWindowEnd c.core q)]

/-- The turns of the scheduler. -/
def State.scheduleTurns (s : State) : List Turn :=
  let free := fun (d : Nat) => (s.coresOf d).find? s.coreFree
  let waits := (s.queues.filter fun e => !e.2.waiting.isEmpty).map fun e => .event (.queueDispatch e.1)
  let ends := s.launches.map fun e => .event (.launchCompletion e.1)
  let started := ((s.launches.flatMap fun e => e.2.drift.map (·.2)).eraseDups.filter fun d => !(s.incomplete d).isEmpty).filterMap free
  let back := (s.warps.filter fun e => e.2.evicted).filterMap fun e => (Tab.lookup e.2.crew s.crews).map (·.core)
  let whole := ((s.crews.filter fun e => e.2.state == .evicted).filterMap fun e => s.home e.2).filterMap free
  let next := match s.head with
    | none => []
    | some (cls, k, _) =>
      match Tab.lookup k s.launches with
      | none => []
      | some l =>
        match s.bestDrift l.ctx with
        | some d => (free d).toList.map fun c => .event (.crewPlacement c)
        | none => ((s.victim cls l).map fun v => v.2.core).toList.map fun c => .event (.partialEviction c)
  let unpark := (s.fabric.parked.filter fun e => s.onChip e.1 && s.rankOf e.1 == e.2).map fun e => .event (.rankUnpark e.1 e.2)
  let cages := ((List.range 4).filter fun d => s.cage.getD d 0 != s.cageGoal.getD d 0).map fun d =>
    .event (.cageReservationChange d (s.cageGoal.getD d 0))
  cages ++ unpark ++ waits ++ ends ++ (back ++ whole).map (fun c => .event (.evictedRestore c)) ++
    started.map (fun c => .event (.crewPlacement c)) ++ next

/-- The turns of memory: lines on their way to DRAM, tokens, records. -/
def State.memoryTurns (s : State) : List Turn :=
  (s.unflushed.map fun e => .event (.homeShareWriteback e.1)) ++
    s.ctxs.flatMap fun e =>
      (if (e.2.faultQ.map fun q => q.held.isEmpty).getD true then [] else [.event (.faultRecordWrite e.1)]) ++
        (e.2.tokens.mapIdx fun i t => (i, t)).flatMap fun t =>
          if t.2.asking.isEmpty then [] else [.event (.tokenPass e.1 t.1), .event (.tokenGrant e.1 t.1)]

/-- The turns that may be taken. -/
def State.turns (s : State) : List Turn :=
  s.ops.flatMap s.opTurns ++ (s.warps.flatMap fun e => s.warpTurns e.1 e.2) ++ (s.crews.flatMap fun e => State.crewTurns e.1 e.2) ++
    s.scheduleTurns ++ s.memoryTurns

/-- The turn that is taken when nothing else is asked for: they go round with the steps. -/
def State.pick (s : State) : Option Turn :=
  let l := s.turns
  l[s.freeCtr % l.length]?

/-- What happens in a step: what the agenda asks for; else the fragment that has the issue slot goes on; else the turn that
is next, or nothing. -/
noncomputable def State.act (s : State) : Host.Outcome State Fault Refusal :=
  match s.agenda with
  | t :: rest => ({ s with agenda := rest }).take t
  | [] =>
    match s.cur with
    | some (k, n) => s.runCurrent k n
    | none =>
      match s.pick with
      | some t => s.take t
      | none => .next s

/-! ## A place for one instruction (notes/assumptions/4) -/

/-- The words of the record of a launch of one crew of one warp of 32 lanes, with 128 registers and 32 macros. -/
def soloRecord : List Word :=
  [0x00020000, field 26 1 ||| field 21 31 ||| field 17 14 ||| field 11 32, 0, 0, 0x1000, 0, 0, 0, 0, 0, 0, 0, 0, 0, 0, 0]

/-- A table that maps the first GiB of a context to itself, and code at 0x1000. -/
def soloBytes (code : List Word) : List (Nat × List (BitVec 8)) :=
  [(0x10000, [1]), (0x10008, leBytes 0x14000 3), (0x14000, [1]), (0x14008, leBytes 0x18000 3), (0x18000, [0x1F]),
    (0x1000, wordsBytes code)]

/-- The context that runs it, its queues at 0x100000 and upward. -/
def soloCtx : Context :=
  { Context.fresh with
    root := 0x10000, drifts := [0], faultQ := some ⟨0x100000, 64, 0, []⟩, eventQ := some ⟨0x110000, 64, 0, []⟩,
    statusQ := some ⟨0x120000, 64, 0, []⟩, requestQ := some ⟨0x130000, 64, 0, []⟩ }

/-- The state with one word placed where the next step fetches: in the clause in progress when there is one, else as the
only word of a clause of a new crew that has just started it; a header at the PC of a fragment that is between clauses. -/
def State.place (s : State) (word : Word) : State :=
  let header := majorOf word == 0x7F
  let inClause := match s.cur with
    | none => none
    | some (k, n) => (s.fragOf k n).bind fun p => p.2.clause.map fun c => (k, n, c)
  match inClause with
  | some (k, n, c) =>
    ({ s with agenda := [] }).mapFrag k n fun f => { f with clause := some { c with words := c.words.set c.pos word } }
  | none =>
    let l := s.nextId
    let crew := l + 1
    let code : List Word := if header then [word] else [field 25 0x7F ||| field 5 15, word]
    let clause : Clause := ⟨0x1000, [word], 0, 0, 15, (isLong word).toNat, 0, none, crew + 1⟩
    let launch : Launch := ⟨0, 0x140000, soloRecord, [], [], 2, 0, some l, [(0, 0)]⟩
    let w := Warp.launched crew 0 launch
    let w1 : Warp := if header then w else
      { w with frags := w.frags.map fun f => { f with clause := some clause }
               slices := w.slices.map fun x => { x with flags := 1 } }
    let put := fun (m : Tab (BitVec 8)) => (soloBytes code).foldl (fun m e => putBytes m e.1 e.2) m
    { s with
      agenda := []
      cur := some (64 * crew, 0)
      nextId := crew + 1
      mem := put s.mem
      dram := put s.dram
      ctxs := Tab.put 0 soloCtx s.ctxs
      launches := Tab.put l launch s.launches
      crews := Tab.put crew { Crew.blank with launch := l, spadMacros := 32, placed := crew } s.crews
      warps := Tab.put (64 * crew) w1 s.warps }

end Sys2Proof.Machine
end

