-- ==== Sys2Proof/Machine/Step.lean ====
section
/-! DEFINITION. One step of the machine. -/

namespace Sys2Proof.Machine

/-- One step: one turn is taken, and time goes on. -/
noncomputable def step (s : State) : Host.Outcome State Fault Refusal :=
  match s.act with
  | .next t => .next t.tick
  | .fault x => .fault x
  | .refused x => .refused x

/-- The state with one instruction, its bits as the opcode table numbers them, where the next step fetches. -/
def State.withFetchWord (s : State) (_nbits w : Nat) : State := s.place (BitVec.ofNat 32 w)

end Sys2Proof.Machine
end

