-- ==== Sys2Proof/Safety.lean ====
section
/-! DEFINITION. What a safe step is, and what holds of the state at every step. -/

namespace Sys2Proof.Machine

/-- A step is safe when the machine goes on. -/
def safeStep (s : State) : Prop := ∃ t, step s = .next t

/-- The memory of the homes is in its canonical form. -/
def State.memOk (s : State) : Bool := Memory.wf s.mem

end Sys2Proof.Machine
end

