-- ==== Sys2Proof/Certificates/Slice0/Obligations.lean ====
section
/-! DEFINITION. The statements about the model, each with the rule of the spec that it formalises.  The statements about
instruction words are made from the predicates of `Sys2Proof.Cert`: which word issues, what it writes, and what it leaves
alone; how its fragment goes on after it is said once, of `State.after`. -/

namespace Sys2Proof.Cert

open Sys2Proof.Machine

/-! ## The issue of a word, and what it leaves alone -/

/-- A fragment issues a word whose operands pass the checks at issue (R75, R84, R85). -/
def Passes (s : State) (v : View) (sh : Shape) : Prop := s.view = some v ∧ v.check sh = none

/-- The word answers a next state: its warp is as `E` says, nothing else of the state has changed, and its fragment goes
on after the word. -/
def GoesOn (i : Instr) (s : State) (v : View) (E : Warp → Prop) : Prop :=
  ∃ w, exec i s = .next (s.after (s.setWarp v.key w) v false none false false) ∧ E w

/-- The active lanes of a register, or of a pair, hold what `P` says lane by lane; every other lane and register is as
before; its tile takes the type's tag, unless no lane is active; of the rest of the warp, only FLAGS, its counters, RDRAW,
STATUS and which registers hold an error (R71) may have changed. -/
structure LaneWrite (v : View) (w : Warp) (wide : Bool) (d : Nat) (P : Nat → Nat → Prop) : Prop where
  value : ∀ n, n < 32 → v.act.getLsbD n = true → P n (w.laneBits wide d n)
  kept : ∀ r n, n < 32 → v.act.getLsbD n = false ∨ (r ≠ d ∧ (wide = true → r ≠ d + 1)) →
    (w.vreg r).get n = (v.w.vreg r).get n
  tags : ∀ i, w.tag i = if v.act ≠ 0 ∧ i = d / 8 then ⟨v.type, 0, 0⟩ else v.w.tag i
  rest : w = { v.w with
    v := w.v, tags := w.tags, flags := w.flags, xc := w.xc, rdraw := w.rdraw, status := w.status, bad := w.bad }

/-- One uniform register holds what `P` says, and no error (R71); of the rest of the warp, only FLAGS and its counters may have
changed. -/
structure UniWrite (v : View) (w : Warp) (d : Nat) (P : DWord → Prop) : Prop where
  value : P (w.sreg d)
  kept : ∀ r, r ≠ d → w.sreg r = v.w.sreg r
  rest : w = { v.w with s := w.s, flags := w.flags, xc := w.xc, bad := v.w.bad.filter (· != .s d) }

/-- The lanes of a mask take what `f` says in one predicate; of the rest of the warp, only FLAGS, its counters, STATUS and which
registers hold an error (R71) may have changed. -/
structure PredWrite (v : View) (w : Warp) (d : Nat) (m : LaneMask) (f : Nat → Bool) : Prop where
  value : ∀ n, n < 32 → m.getLsbD n = true → (w.pred d).getLsbD n = f n
  kept : ∀ r n, m.getLsbD n = false ∨ r ≠ d → (w.pred r).getLsbD n = (v.w.pred r).getLsbD n
  rest : w = { v.w with p := w.p, flags := w.flags, xc := w.xc, status := w.status, bad := w.bad }

/-- RDRAW and STATUS are as before. -/
def Still (v : View) (w : Warp) : Prop := w.rdraw = v.w.rdraw ∧ w.status = v.w.status

/-- Raised flags alone: FLAGS by OR, the counters by the number of raises (R78, R158). -/
def Raises (v : View) (w : Warp) (e : Exc) : Prop :=
  w.flags = (v.w.raiseExc e).flags ∧ w.xc = (v.w.raiseExc e).xc ∧ Still v w

/-- FLAGS and its counters, RDRAW and STATUS are as before. -/
def Quiet (v : View) (w : Warp) : Prop := w.flags = v.w.flags ∧ w.xc = v.w.xc ∧ Still v w

/-- Raised flags, and one draw more of every active lane when the word rounds under STOCH (R149, R161). -/
def RaisesDrawing (v : View) (w : Warp) (e : Exc) : Prop :=
  w.flags = (v.w.raiseExc e).flags ∧ w.xc = (v.w.raiseExc e).xc ∧ w.status = v.w.status ∧
    ∀ n, n < 32 → w.rdraw.get n =
      if modeRnd v.f.mode = 5 ∧ v.act.getLsbD n = true then v.w.rdraw.get n + 1 else v.w.rdraw.get n

/-! ## Integers by MODE.TYPE -/

/-- The bits that a register of 32 bits, or a pair, holds for an integer (R94). -/
def HoldsInt (wide : Bool) (b : Nat) (r : Int) : Prop := (b : Int) = r % 2 ^ (if wide then 64 else 32)

/-- What becomes of an exact result: clamped under SAT, else the one value of the type that equals it modulo 2^W (R96). -/
def Reduced (v : View) (x r : Int) : Prop :=
  let lo := minOf (typeWidth v.type) (typeSigned v.type)
  let hi := maxOf (typeWidth v.type) (typeSigned v.type)
  if modeSat v.f.mode then r = max lo (min x hi) else lo ≤ r ∧ r ≤ hi ∧ (2 ^ typeWidth v.type : Int) ∣ x - r

/-- Does an exact result lie outside the type under SAT, so that it raises SA (R96)? -/
def clamps (v : View) (x : Int) : Bool :=
  modeSat v.f.mode && (decide (x < minOf (typeWidth v.type) (typeSigned v.type)) ||
    decide (maxOf (typeWidth v.type) (typeSigned v.type) < x))

/-- The number of active lanes of which a test holds. -/
def countLanes (v : View) (p : Nat → Bool) : Nat := ((List.range 32).filter fun n => v.act.getLsbD n && p n).length

/-- What an integer operation gives: the relation of two operands and the result, and what it raises on them. -/
structure IntSpec where
  result : View → Int → Int → Int → Prop
  raises : View → Int → Int → Exc

/-- What the lanes raise together. -/
def sumLanes (v : View) (f : Nat → Exc) : Exc :=
  let c := fun (g : Exc → Nat) => ((List.range 32).map fun n => if v.act.getLsbD n then g (f n) else 0).sum
  ⟨c (·.nv), c (·.dz), c (·.ov), c (·.uf), c (·.nx), c (·.sa)⟩

/-- A lane form writes the results of the active lanes. -/
def LaneInts (sp : IntSpec) (v : View) (d : BitVec 7) (a b : Nat → Int) (w : Warp) : Prop :=
  LaneWrite v w (typeWide v.type) d.toNat
      (fun n x => ∃ r, sp.result v (a n) (b n) r ∧ HoldsInt (typeWide v.type) x r) ∧
    Raises v w (sumLanes v fun n => sp.raises v (a n) (b n))

/-- A uniform form writes its one result, extended to 64 bits. -/
def UniInt (sp : IntSpec) (v : View) (d : BitVec 7) (a b : Int) (w : Warp) : Prop :=
  UniWrite v w d.toNat (fun x => ∃ r, sp.result v a b r ∧ HoldsInt true x.toNat r) ∧ Raises v w (sp.raises v a b)

/-- The lane form with two registers. -/
def LaneRR (i : BitVec 7 → BitVec 7 → BitVec 7 → Instr) (sp : IntSpec) : Prop :=
  ∀ d a b s v, Passes s v (shapeR d a b false v) →
    GoesOn (i d a b) s v (LaneInts sp v d (v.lane a.toNat) (v.lane b.toNat))

/-- The lane form with an immediate. -/
def LaneRI (i : BitVec 7 → BitVec 7 → BitVec 7 → Instr) (sp : IntSpec) : Prop :=
  ∀ d a k s v, Passes s v (shapeI d a false v) →
    GoesOn (i d a k) s v (LaneInts sp v d (v.lane a.toNat) fun _ => v.imm k)

/-- The uniform form with two registers. -/
def UniRR (i : BitVec 7 → BitVec 7 → BitVec 7 → Instr) (sp : IntSpec) : Prop :=
  ∀ d a b s v, Passes s v (shapeS d a b false v) → GoesOn (i d a b) s v (UniInt sp v d (v.uni a.toNat) (v.uni b.toNat))

/-- The uniform form with an immediate. -/
def UniRI (i : BitVec 7 → BitVec 7 → BitVec 7 → Instr) (sp : IntSpec) : Prop :=
  ∀ d a k s v, Passes s v (shapeSI d a false v) → GoesOn (i d a k) s v (UniInt sp v d (v.uni a.toNat) (v.imm k))

/-- The four forms of an operation with two operands. -/
def FourForms (r i s si : BitVec 7 → BitVec 7 → BitVec 7 → Instr) (sp : IntSpec) : Prop :=
  LaneRR r sp ∧ LaneRI i sp ∧ UniRR s sp ∧ UniRI si sp

/-- An operation whose exact result is reduced, raising SA where it is clamped (R96, R114). -/
def reducedSpec (f : Int → Int → Int) : IntSpec :=
  ⟨fun v a b r => Reduced v (f a b) r, fun v a b => ⟨0, 0, 0, 0, 0, (clamps v (f a b)).toNat⟩⟩

/-- An operation that raises nothing. -/
def quietSpec (f : View → Int → Int → Int → Prop) : IntSpec := ⟨f, fun _ _ _ => ⟨0, 0, 0, 0, 0, 0⟩⟩

/-- Is an integer a value of the type (R94)? -/
def InType (v : View) (r : Int) : Prop :=
  minOf (typeWidth v.type) (typeSigned v.type) ≤ r ∧ r ≤ maxOf (typeWidth v.type) (typeSigned v.type)

/-- The W-bit pattern of an integer. -/
def pattern (v : View) (x : Int) : BitVec (typeWidth v.type) := BitVec.ofInt (typeWidth v.type) x

/-- An operation on W-bit patterns that raises nothing. -/
def patternSpec (f : (w : Nat) → BitVec w → BitVec w → BitVec w) : IntSpec :=
  quietSpec fun v a b r => InType v r ∧ pattern v r = f _ (pattern v a) (pattern v b)

/-- The lane form with one register. -/
def LaneR (i : BitVec 7 → BitVec 7 → Instr) (sp : IntSpec) : Prop :=
  ∀ d a s v, Passes s v (shapeI d a false v) → GoesOn (i d a) s v (LaneInts sp v d (v.lane a.toNat) fun _ => 0)

/-- The uniform form with one register. -/
def UniR (i : BitVec 7 → BitVec 7 → Instr) (sp : IntSpec) : Prop :=
  ∀ d a s v, Passes s v (shapeSI d a false v) → GoesOn (i d a) s v (UniInt sp v d (v.uni a.toNat) 0)

/-- Both forms of an operation with one operand. -/
def TwoForms (r s : BitVec 7 → BitVec 7 → Instr) (sp : IntSpec) : Prop := LaneR r sp ∧ UniR s sp

/-- A long-latency word answers a next state: its pending write and its request, which leaves the writes `ws` and the raises
`e` to its completion (R84, R85), are all that has changed; and its fragment goes on after it. -/
def GoesOnLong (i : Instr) (s : State) (v : View) (regs : List Reg) (E : List RegWrite → Exc → Prop) : Prop :=
  ∃ ws e, exec i s = .next (s.after
      ((s.addOp v.src (.result ws e) true false).setWarp v.key
        { v.w with pending := v.w.pending ++ [⟨s.nextId, regs, v.c.flag, v.f.mask⟩] }) v true none false false) ∧ E ws e

/-- The same of a word that rounds under MODE.RND: its draws are taken as it issues (R149). -/
def GoesOnDrawing (i : Instr) (s : State) (v : View) (regs : List Reg) (E : List RegWrite → Exc → Prop) : Prop :=
  ∃ ws e x, exec i s = .next (s.after
      ((s.addOp v.src (.result ws e) true false).setWarp v.key
        { v.w with pending := v.w.pending ++ [⟨s.nextId, regs, v.c.flag, v.f.mask⟩], rdraw := x }) v true none false false) ∧
    E ws e ∧ ∀ n, n < 32 → x.get n =
      if modeRnd v.f.mode = 5 ∧ v.act.getLsbD n = true then v.w.rdraw.get n + 1 else v.w.rdraw.get n

/-- The writes of a register, or of a pair, in the active lanes, of values of which `P` holds lane by lane. -/
def LaterLanes (v : View) (ws : List RegWrite) (wide : Bool) (d : Nat) (P : Nat → Nat → Prop) : Prop :=
  ∃ lo hi : Lanes, ws = .v d v.act lo :: (if wide then [.v (d + 1) v.act hi] else []) ∧
    ∀ n, n < 32 → v.act.getLsbD n = true →
      P n ((lo.get n).toNat + if wide then 2 ^ 32 * (hi.get n).toNat else 0)

/-- The results of a long-latency integer lane form. -/
def LaterInts (sp : IntSpec) (v : View) (d : BitVec 7) (a b : Nat → Int) (ws : List RegWrite) (e : Exc) : Prop :=
  LaterLanes v ws (typeWide v.type) d.toNat
      (fun n x => ∃ r, sp.result v (a n) (b n) r ∧ HoldsInt (typeWide v.type) x r) ∧
    e = sumLanes v fun n => sp.raises v (a n) (b n)

/-- The result of a long-latency uniform form. -/
def LaterUni (sp : IntSpec) (v : View) (d : BitVec 7) (a b : Int) (ws : List RegWrite) (e : Exc) : Prop :=
  (∃ x : DWord, ws = [.s d.toNat x] ∧ ∃ r, sp.result v a b r ∧ HoldsInt true x.toNat r) ∧ e = sp.raises v a b

/-- The four long-latency forms of an operation. -/
def FourLongForms (r i s si : BitVec 7 → BitVec 7 → BitVec 7 → Instr) (sp : IntSpec) : Prop :=
  (∀ d a b σ v, Passes σ v (shapeR d a b true v) → GoesOnLong (r d a b) σ v (laneRegs (typeWide v.type) d.toNat)
    (LaterInts sp v d (v.lane a.toNat) (v.lane b.toNat))) ∧
  (∀ d a k σ v, Passes σ v (shapeI d a true v) → GoesOnLong (i d a k) σ v (laneRegs (typeWide v.type) d.toNat)
    (LaterInts sp v d (v.lane a.toNat) fun _ => v.imm k)) ∧
  (∀ d a b σ v, Passes σ v (shapeS d a b true v) → GoesOnLong (s d a b) σ v [.s d.toNat]
    (LaterUni sp v d (v.uni a.toNat) (v.uni b.toNat))) ∧
  (∀ d a k σ v, Passes σ v (shapeSI d a true v) → GoesOnLong (si d a k) σ v [.s d.toNat]
    (LaterUni sp v d (v.uni a.toNat) (v.imm k)))

/-- `idiv`: truncated, reduced; by 0 it is −1, or the greatest value of an unsigned type, and raises DZ (R116). -/
def idivSpec : IntSpec :=
  ⟨fun v a b r => if b = 0 then r = (if typeSigned v.type then -1 else maxOf (typeWidth v.type) false)
    else Reduced v (Int.tdiv a b) r,
   fun v a b => if b = 0 then ⟨0, 1, 0, 0, 0, 0⟩ else ⟨0, 0, 0, 0, 0, (clamps v (Int.tdiv a b)).toNat⟩⟩

/-- `irem`: the remainder with the sign of the dividend; by 0 it is the dividend, and raises DZ (R116). -/
def iremSpec : IntSpec :=
  ⟨fun _ a b r => if b = 0 then r = a else r = Int.tmod a b,
   fun _ _ b => if b = 0 then ⟨0, 1, 0, 0, 0, 0⟩ else ⟨0, 0, 0, 0, 0, 0⟩⟩

/-- An illegal-instruction fault: INFO holds the word (R56). -/
def RaisedIllegal (i : Instr) (s : State) (v : View) : Prop :=
  exec i s = .next (s.takeFault v.key v.no { cause := causeIllegal, lanes := v.act, info := v.c.words.getD v.c.pos 0 } v.c.pos
    v.c.header .replay)

/-- A relation of two integers, in its four compare forms (R120): their majors and X; a lane form writes its active lanes, a uniform form every
lane of the fragment that has not exited; a D that names no predicate is illegal. -/
def CompareForms (r i s si : BitVec 7 → BitVec 7 → BitVec 7 → Instr) (x : BitVec 4) (f : Int → Int → Prop) : Prop :=
  (∀ d a b, encode (r d a b) = 0x0E#7 ++ d ++ a ++ b ++ x ∧ encode (i d a b) = 0x0F#7 ++ d ++ a ++ b ++ x ∧
    encode (s d a b) = 0x20#7 ++ d ++ a ++ b ++ x ∧ encode (si d a b) = 0x21#7 ++ d ++ a ++ b ++ x) ∧
  (∀ d a b σ v, Passes σ v { shapeR 0 a b false v with writes := [.p d.toNat] } → GoesOn (r d a b) σ v fun w =>
    ∃ t, PredWrite v w d.toNat v.act t ∧ Quiet v w ∧ ∀ n, t n = true ↔ f (v.lane a.toNat n) (v.lane b.toNat n)) ∧
  (∀ d a k σ v, Passes σ v { shapeI 0 a false v with writes := [.p d.toNat] } → GoesOn (i d a k) σ v fun w =>
    ∃ t, PredWrite v w d.toNat v.act t ∧ Quiet v w ∧ ∀ n, t n = true ↔ f (v.lane a.toNat n) (v.imm k)) ∧
  (∀ d a b σ v, Passes σ v { reads := [.s a.toNat, .s b.toNat], writes := [.p d.toNat] } → GoesOn (s d a b) σ v fun w =>
    ∃ t, PredWrite v w d.toNat (v.w.unexited v.f.mask) t ∧ Quiet v w ∧ ∀ n, t n = true ↔ f (v.uni a.toNat) (v.uni b.toNat)) ∧
  (∀ d a k σ v, Passes σ v { reads := [.s a.toNat], writes := [.p d.toNat] } → GoesOn (si d a k) σ v fun w =>
    ∃ t, PredWrite v w d.toNat (v.w.unexited v.f.mask) t ∧ Quiet v w ∧ ∀ n, t n = true ↔ f (v.uni a.toNat) (v.imm k)) ∧
  ∀ d a b σ v, σ.view = some v → 7 < d.toNat → RaisedIllegal (r d a b) σ v ∧ RaisedIllegal (i d a b) σ v ∧
    RaisedIllegal (s d a b) σ v ∧ RaisedIllegal (si d a b) σ v

/-- The active lanes of a register, or of a pair, and of p7 take what `P` says; nothing else of the warp has changed but
the tile's tag and which registers hold an error (R71, R115). -/
def CarryWrite (v : View) (w : Warp) (d : Nat) (P : Nat → Nat → Bool → Prop) : Prop :=
  (∀ n, n < 32 → v.act.getLsbD n = true → P n (w.laneBits (typeWide v.type) d n) ((w.pred 7).getLsbD n)) ∧
  (∀ r n, n < 32 → v.act.getLsbD n = false ∨ (r ≠ d ∧ (typeWide v.type = true → r ≠ d + 1)) →
    (w.vreg r).get n = (v.w.vreg r).get n) ∧
  (∀ r n, v.act.getLsbD n = false ∨ r ≠ 7 → (w.pred r).getLsbD n = (v.w.pred r).getLsbD n) ∧
  (∀ i, w.tag i = if v.act ≠ 0 ∧ i = d / 8 then ⟨v.type, 0, 0⟩ else v.w.tag i) ∧
  w = { v.w with v := w.v, tags := w.tags, p := w.p, bad := w.bad }

/-- The unsigned view of an integer at the width of the type. -/
def unsignedView (v : View) (x : Int) : Int := x % 2 ^ typeWidth v.type

/-- `addc`: the unsigned views and the carry in add up to the result and 2^W times the carry out (R115). -/
def addcRel (v : View) (a b : Int) (cin : Bool) (x : Nat) (cout : Bool) : Prop :=
  ∃ r, HoldsInt (typeWide v.type) x r ∧ InType v r ∧
    unsignedView v a + unsignedView v b + (cin.toNat : Int) = unsignedView v r + 2 ^ typeWidth v.type * (cout.toNat : Int)

/-- `subb`: the unsigned views and the borrow in, and 2^W for a borrow out (R115). -/
def subbRel (v : View) (a b : Int) (cin : Bool) (x : Nat) (cout : Bool) : Prop :=
  ∃ r, HoldsInt (typeWide v.type) x r ∧ InType v r ∧
    unsignedView v a - unsignedView v b - (cin.toNat : Int) = unsignedView v r - 2 ^ typeWidth v.type * (cout.toNat : Int)

/-- The field that `bfe` takes of W bits (R122). -/
def bfeRel (v : View) (a : Int) (c : Nat) (r : Int) : Prop :=
  let pos := c % 256
  let len := c / 256 % 256
  let f : Int := unsignedView v a / 2 ^ pos % 2 ^ len
  let m := min len (typeWidth v.type)
  if len = 0 then r = 0
  else if typeSigned v.type then -(2 ^ m) ≤ 2 * r ∧ 2 * r < 2 ^ m ∧ (2 ^ m : Int) ∣ f - r
  else r = f

/-- What `bfi` makes of W bits: bit i comes from the source for the `len` positions from `pos` upward (R122). -/
def bfiRel (v : View) (d a : Int) (c : Nat) (r : Int) : Prop :=
  let pos := c % 256
  let len := c / 256 % 256
  InType v r ∧ ∀ i, i < typeWidth v.type → (pattern v r).getLsbD i =
    if pos ≤ i ∧ i < pos + len then (pattern v a).getLsbD (i - pos) else (pattern v d).getLsbD i

/-! ## Floating words -/

/-- What the lanes raise together when each flag counts once a lane (R158). -/
def sumOnce (v : View) (f : Nat → Exc) : Exc := sumLanes v fun n => (f n).once

/-- A short floating word: each active lane takes its result, zeros above a narrow one. -/
def FloatWrite (v : View) (d : BitVec 7) (f : Nat → Nat × Exc) (w : Warp) : Prop :=
  LaneWrite v w (typeWide v.type) d.toNat (fun n x => x = (f n).1 % 2 ^ (if typeWide v.type then 64 else 32)) ∧
    RaisesDrawing v w (sumOnce v fun n => (f n).2)

/-- A word that chooses and never rounds: no draw (R161, R164). -/
def PickWrite (v : View) (d : BitVec 7) (f : Nat → Nat × Exc) (w : Warp) : Prop :=
  LaneWrite v w (typeWide v.type) d.toNat (fun n x => x = (f n).1 % 2 ^ (if typeWide v.type then 64 else 32)) ∧
    Raises v w (sumOnce v fun n => (f n).2)

/-- The results of a long-latency floating word. -/
def LaterFloats (v : View) (d : BitVec 7) (f : Nat → Nat × Exc) (ws : List RegWrite) (e : Exc) : Prop :=
  LaterLanes v ws (typeWide v.type) d.toNat (fun n x => x = (f n).1 % 2 ^ (if typeWide v.type then 64 else 32)) ∧
    e = sumOnce v fun n => (f n).2

/-- The register and the immediate form of a word that rounds a function of two values at once. -/
def FloatForms (r i : BitVec 7 → BitVec 7 → BitVec 7 → Instr) (f : FloatFn) : Prop :=
  (∀ d a b s v, Passes s v (shapeF fpType d a b false v) → GoesOn (r d a b) s v
    (FloatWrite v d fun n => f v.type (v.rnd n 0) (v.opnd a.toNat n) (v.opnd b.toNat n))) ∧
  (∀ d a k s v, Passes s v (shapeFI fpType d a k false v) → GoesOn (i d a k) s v
    (FloatWrite v d fun n => f v.type (v.rnd n 0) (v.opnd a.toNat n) (v.immVal k)))

/-- The register and the immediate form of a word that chooses between two values. -/
def PickForms (r i : BitVec 7 → BitVec 7 → BitVec 7 → Instr) (f : FloatFn) : Prop :=
  (∀ d a b s v, Passes s v (shapeF isFloat d a b false v) → GoesOn (r d a b) s v
    (PickWrite v d fun n => f v.type Rnd.rne (v.opnd a.toNat n) (v.opnd b.toNat n))) ∧
  (∀ d a k s v, Passes s v (shapeFI isFloat d a k false v) → GoesOn (i d a k) s v
    (PickWrite v d fun n => f v.type Rnd.rne (v.opnd a.toNat n) (v.immVal k)))

/-- The signed numerator of a sign and a magnitude. -/
def sgn (neg : Bool) (n : Nat) : Int := if neg then -(n : Int) else n

/-- A result is the one rounding of the number p ÷ q (R147). -/
def RoundsTo (ty : Nat) (r : Rnd) (p : Int) (q : Nat) (x : Nat × Exc) : Prop :=
  ∃ (neg : Bool) (n d : Nat), 0 < d ∧ sgn neg n * q = p * d ∧ x = roundFloat ty r neg n d

/-- `f`, in words, of two values that are no NaNs: an ordered relation of `fcmp` (R166). -/
def compareBy (f : FVal → FVal → Bool) (i : BitVec 7 → BitVec 7 → BitVec 7 → Instr) : Prop :=
  ∀ d a b s v, Passes s v
      { reads := laneRegs (typeWide v.type) a.toNat ++ laneRegs (typeWide v.type) b.toNat, writes := [.p d.toNat],
        ok := pairOk (typeWide v.type) a.toNat && pairOk (typeWide v.type) b.toNat && isFloat v.type } →
    GoesOn (i d a b) s v fun w =>
      PredWrite v w d.toNat v.act (fun n => f (v.opnd a.toNat n) (v.opnd b.toNat n)) ∧
      Raises v w (sumLanes v fun n => ⟨((v.opnd a.toNat n).isSig || (v.opnd b.toNat n).isSig).toNat, 0, 0, 0, 0, 0⟩)

/-- Is the first below the second, with infinities as the ends of the line? -/
def lessThan : FVal → FVal → Prop
  | .inf s, .inf t => s = true ∧ t = false
  | .inf s, .num .. => s = true
  | .num .., .inf t => t = false
  | .num s a b, .num t c d => sgn s a * d < sgn t c * b
  | _, _ => False

/-- A word that leaves `ws` and the raises `e` to its completion, whatever registers it writes. -/
def LaterBits (v : View) (d k : Nat) (bits : Nat → Nat → Nat) (ws : List RegWrite) : Prop :=
  ws.length = k ∧ ∀ j, j < k → ∃ x, ws[j]? = some (.v (d + j) v.act x) ∧
    ∀ n, n < 32 → v.act.getLsbD n = true → ((x.get n).toNat = bits n j % 2 ^ 32)

/-! ## Rounding, block scales and sums -/

/-- A sign in front of zero magnitude bits (R139). -/
def signBit (ty : Nat) (neg : Bool) : Nat := if neg then 2 ^ ((fmtOf ty).e + (fmtOf ty).m) else 0

/-- The greatest finite value of a type, its infinity or, in fp8e4, NaN, and its default NaN (R140). -/
def edges (ty : Nat) : Nat × Nat × Nat :=
  match ty with
  | 7 => (0x7FEFFFFFFFFFFFFF, 0x7FF0000000000000, 0x7FF8000000000000)
  | 9 => (0x7F7F, 0x7F80, 0x7FC0)
  | 10 => (0x7BFF, 0x7C00, 0x7E00)
  | 11 => (0x7E, 0x7F, 0x7F)
  | 12 => (0x7B, 0x7C, 0x7E)
  | 13 => (0x7, 0x7, 0x0)
  | _ => (0x7F7FFFFF, 0x7F800000, 0x7FC00000)

/-- The quantum 2^`qe` of a number n ÷ d, and whether the number is below the least normal (R147). -/
def QuantumOf (ty n d : Nat) (qe : Int) (tiny : Prop) : Prop :=
  ∃ fl : Int, d * 2 ^ fl.toNat ≤ n * 2 ^ (-fl).toNat ∧ n * 2 ^ (-fl).toNat < 2 * (d * 2 ^ fl.toNat) ∧
    (tiny ↔ fl < 1 - ((fmtOf ty).bias : Int)) ∧ qe = max fl (1 - ((fmtOf ty).bias : Int)) - ((fmtOf ty).m : Int)

/-- A count k of quanta goes up, f ÷ g being what is left (R147). -/
def GoesUp (r : Rnd) (neg : Bool) (k f g : Nat) : Prop :=
  match r.mode with
  | 0 => g < 2 * f ∨ (2 * f = g ∧ k % 2 = 1)
  | 1 => False
  | 2 => 0 < f ∧ neg = false
  | 3 => 0 < f ∧ neg = true
  | 4 => g ≤ 2 * f
  | _ => 0 < f ∧ (g - f) * 2 ^ 32 ≤ r.g * g

/-- `RoundTo` a floating type of a number other than zero (R147, R148). -/
def RoundsFloat (ty : Nat) (r : Rnd) (neg : Bool) (n d : Nat) (x : Nat × Exc) : Prop :=
  ∃ qe tiny, QuantumOf ty n d qe tiny ∧
    let num := n * 2 ^ (-qe).toNat
    let den := d * 2 ^ qe.toNat
    let flush := r.ftz = true ∧ ty ≠ 13 ∧ tiny
    (flush → x = (signBit ty neg, ⟨0, 0, 0, 1, 1, 0⟩)) ∧
    (¬ flush → ∀ y a b, (GoesUp r neg (num / den) (num % den) den → y = num / den + 1) →
      (¬ GoesUp r neg (num / den) (num % den) den → y = num / den) → readFloat ty false (edges ty).1 = .num false a b →
      (a * 2 ^ (-qe).toNat < y * 2 ^ qe.toNat * b →
        x = (signBit ty neg + (if r.sat then (edges ty).1 else (edges ty).2.1), ⟨0, 0, 1, 0, 1, r.sat.toNat⟩)) ∧
      (y * 2 ^ qe.toNat * b ≤ a * 2 ^ (-qe).toNat →
        (∃ p q, readFloat ty false x.1 = .num neg p q ∧ 0 < q ∧ p * 2 ^ (-qe).toNat = y * 2 ^ qe.toNat * q) ∧
        (num % den = 0 → x.2 = ⟨0, 0, 0, 0, 0, 0⟩) ∧ (num % den ≠ 0 → tiny → x.2 = ⟨0, 0, 0, 1, 1, 0⟩) ∧
        (num % den ≠ 0 → ¬ tiny → x.2 = ⟨0, 0, 0, 0, 1, 0⟩)))

/-- What an integer type holds in place of what it cannot (R148). -/
def indefinite (ty : Nat) : Nat := if typeSigned ty then 2 ^ (elemWidth ty - 1) else 2 ^ elemWidth ty - 1

/-- The nearest end of the range of an integer type. -/
def nearEnd (ty : Nat) (neg : Bool) : Int :=
  if neg then minOf (elemWidth ty) (typeSigned ty) else maxOf (elemWidth ty) (typeSigned ty)

/-- `RoundTo` an integer type of a number (R147, R148). -/
def RoundsInt (ty : Nat) (r : Rnd) (neg : Bool) (n d : Nat) (x : Nat × Exc) : Prop :=
  let lo := minOf (elemWidth ty) (typeSigned ty)
  let hi := maxOf (elemWidth ty) (typeSigned ty)
  ∀ y : Nat, (GoesUp r neg (n / d) (n % d) d → y = n / d + 1) → (¬ GoesUp r neg (n / d) (n % d) d → y = n / d) →
    (lo ≤ sgn neg y → sgn neg y ≤ hi → (x.1 : Int) = sgn neg y % 2 ^ elemWidth ty ∧ x.2 = ⟨0, 0, 0, 0, if n % d = 0 then 0 else 1, 0⟩) ∧
    (sgn neg y < lo ∨ hi < sgn neg y →
      (r.sat = true → (x.1 : Int) = nearEnd ty neg % 2 ^ elemWidth ty ∧ x.2 = ⟨0, 0, 0, 0, 1, 1⟩) ∧
      (r.sat = false → x = (indefinite ty, ⟨1, 0, 0, 0, 0, 0⟩)))

/-- What becomes of an infinity in a destination format (R148). -/
def InfRounds (ty : Nat) (sat neg : Bool) (x : Nat × Exc) : Prop :=
  if isFloat ty = false then
    (sat = true → (x.1 : Int) = nearEnd ty neg % 2 ^ elemWidth ty ∧ x.2 = ⟨0, 0, 0, 0, 0, 1⟩) ∧
    (sat = false → x = (indefinite ty, ⟨1, 0, 0, 0, 0, 0⟩))
  else if ty = 12 then x = (signBit ty neg + 0x7C, ⟨0, 0, 0, 0, 0, 0⟩)
  else if sat then x = (signBit ty neg + (edges ty).1, ⟨0, 0, 0, 0, 0, 1⟩)
  else x = (signBit ty neg + (edges ty).2.1, ⟨if ty = 11 ∨ ty = 13 then 1 else 0, 0, 0, 0, 0, 0⟩)

/-- What becomes of a NaN, its payload below the quiet bit aligned to 51 bits, in a destination format (R143, R148). -/
def NanRounds (ty : Nat) (sat neg sig : Bool) (p : Nat) (x : Nat × Exc) : Prop :=
  if isFloat ty = false then x = if sat then (0, ⟨1, 0, 0, 0, 0, 1⟩) else (indefinite ty, ⟨1, 0, 0, 0, 0, 0⟩)
  else if ty = 13 then x = (signBit ty neg, ⟨1, 0, 0, 0, 0, 0⟩)
  else x = (signBit ty neg + (edges ty).2.2 + (if ty = 11 then 0 else p / 2 ^ (52 - (fmtOf ty).m)), ⟨sig.toNat, 0, 0, 0, 0, 0⟩)

/-- Is an encoding flushed as it is read: a subnormal under FTZ, other than of E2M1 (R159)? -/
def isFlushed (ty : Nat) (ftz : Bool) (bits : Nat) : Bool :=
  ftz && ty != 13 && decide (bits / 2 ^ (fmtOf ty).m % 2 ^ (fmtOf ty).e = 0)

/-- An encoding as it is read: a flushed one is a zero of its sign. -/
def flushed (ty : Nat) (ftz : Bool) (bits : Nat) : Nat :=
  if isFlushed ty ftz bits then bits / 2 ^ ((fmtOf ty).e + (fmtOf ty).m) * 2 ^ ((fmtOf ty).e + (fmtOf ty).m) else bits

/-- A NaN with its quiet bit set; fp8e4 has none (R143). -/
def quieted (ty bits : Nat) : Nat := if ty = 11 then bits else bits ||| 2 ^ ((fmtOf ty).m - 1)

/-- The order in which `fmin` and `fmax` choose: −0 ranks below +0 (R164). -/
def RanksBelow (x y : FVal) : Prop := lessThan x y ∨ ∃ b d, x = .num true 0 b ∧ y = .num false 0 d

/-- The value of an E3M5 code, in parts of 128 (R141). -/
def e3m5 (code : Nat) : Nat :=
  if code / 32 % 8 = 0 then code % 32 else (32 + code % 32) * 2 ^ (code / 32 % 8 - 1)

/-- The block scale of a block in a band (R146). -/
def ScaleOf (l : List FVal) (sn : FVal) (x : Nat × Exc) : Prop :=
  let zeros := ∀ y ∈ l, y.isZero = true
  let special := ∃ y ∈ l, y.isNan = true ∨ ∃ s, y = .inf s
  (zeros → x = (0, ⟨0, 0, 0, 0, 0, 0⟩)) ∧ (¬ zeros → special → x = (0xFF, ⟨1, 0, 0, 0, 0, 0⟩)) ∧
  (¬ zeros → ¬ special → match sn with
    | .num _ 0 _ => x = (0xFF, ⟨0, 0, 0, 0, 0, 1⟩)
    | .num _ a b =>
      let reaches := fun (code : Nat) => ∀ s n d, FVal.num s n d ∈ l → n * b * 128 ≤ e3m5 code * (d * 6 * a)
      (reaches 0xFF → x.2 = ⟨0, 0, 0, 0, 0, 0⟩ ∧ x.1 < 256 ∧ reaches x.1 ∧ ∀ c, c < x.1 → ¬ reaches c) ∧
        (¬ reaches 0xFF → x = (0xFF, ⟨0, 0, 0, 0, 0, 1⟩))
    | _ => x = (0xFF, ⟨0, 0, 0, 0, 0, 1⟩))

/-- The code of an element of a block with scale code `sb` in a band with scale `sn` (R146). -/
def CodeOf (r : Rnd) (sb : Nat) (sn x : FVal) (y : Nat × Exc) : Prop :=
  let neg := x.neg != sn.neg
  let low := signBit 13 neg
  let six := (low + 7, if r.sat then (⟨0, 0, 0, 0, 0, 1⟩ : Exc) else ⟨1, 0, 0, 0, 0, 0⟩)
  match x, sn with
  | .num _ 0 _, _ => y = (low, ⟨0, 0, 0, 0, 0, 0⟩)
  | .nan .., _ => y = (low, ⟨1, 0, 0, 0, 0, 0⟩)
  | .num .., .num _ 0 _ => y = six
  | .num _ n d, .num _ a b => y = roundFloat 13 r neg (n * b * 128) (d * a * e3m5 sb)
  | .num .., .inf _ => y = (low, ⟨0, 0, 0, 0, 0, 0⟩)
  | .inf _, .num _ (_ + 1) _ => y = six
  | _, _ => y = (low, ⟨1, 0, 0, 0, 0, 0⟩)

/-- Conversion of an element between two types (R150): within a floating type the value is unchanged; from or into a floating type it is
`RoundTo`; between integers it is reduced to the width. -/
def ConvertsTo (src dst : Nat) (r : Rnd) (bits : Nat) (x : Nat × Exc) : Prop :=
  let y := readElem src r.ftz bits
  let n := valueOf (elemWidth src) (typeSigned src) bits
  let lo := minOf (elemWidth dst) (typeSigned dst)
  let hi := maxOf (elemWidth dst) (typeSigned dst)
  if isFloat src = true ∧ src = dst then
    x = (if y.isNan then quieted src bits else flushed src r.ftz bits, ⟨y.isSig.toNat, 0, 0, 0, 0, 0⟩)
  else if isFloat src = true ∨ isFloat dst = true then x = roundTo dst r y
  else if r.sat then (x.1 : Int) = max lo (min n hi) % 2 ^ elemWidth dst ∧
    x.2 = ⟨0, 0, 0, 0, 0, if n < lo ∨ hi < n then 1 else 0⟩
  else (x.1 : Int) = n % 2 ^ elemWidth dst ∧ x.2 = ⟨0, 0, 0, 0, 0, 0⟩

/-- Eight fp32 patterns of one lane quantised in a band (R146, R170): the codes with their block scale, or the exact quotients rounded;
each flag once. -/
def Quantises (v : View) (n : Nat) (sn : FVal) (xs : List Nat) (x : Nat × Exc) : Prop :=
  let w := elemWidth v.type
  let ftz := modeFtz v.f.mode
  let y := fun (j : Nat) => readFloat 8 ftz (xs.getD j 0)
  ∃ e : Nat → Exc,
    if v.type = 13 then
      let scale := blockScale (xs.map (readFloat 8 ftz)) sn
      x.1 / 2 ^ 32 = scale.1 ∧ x.2 = (Exc.sum (scale.2 :: (List.range 8).map e)).once ∧
        ∀ j, j < 8 → (x.1 / 16 ^ j % 16, e j) = blockCode (v.rnd n j) scale.1 sn (y j)
    else
      x.2 = (Exc.sum ((List.range 8).map e)).once ∧ (packType v.type = true → ∀ j, j < 8 → (x.1 / 2 ^ (w * j) % 2 ^ w, e j) =
        match sn, y j with
        | .num _ 0 _, _ => ((edges v.type).2.2, ⟨1, 0, 0, 0, 0, 0⟩)
        | .num t a b, .num s c d => roundTo v.type (v.rnd n j) (.num (s != t) (c * b) (d * a))
        | .num t _ _, .inf s => roundTo v.type (v.rnd n j) (.inf (s != t))
        | .num .., z => roundTo v.type (v.rnd n j) z
        | _, _ => ((edges v.type).2.2, ⟨1, 0, 0, 0, 0, 0⟩))

/-- One element restored to fp32 in a band (R145, R171). -/
def Dequantises (v : View) (r : Rnd) (code sb : Nat) (sn : FVal) (x : Nat × Exc) : Prop :=
  x = match sn, readFloat v.type (modeFtz v.f.mode) code with
    | .num t a b, .num s n d =>
      if v.type = 13 then roundTo 8 r (.num (s != t) (n * e3m5 sb * a) (d * 128 * b)) else roundTo 8 r (.num (s != t) (n * a) (d * b))
    | .num _ 0 _, .inf _ => (0x7FC00000, ⟨1, 0, 0, 0, 0, 0⟩)
    | .num t _ _, .inf s => roundTo 8 r (.inf (s != t))
    | .num .., z => roundTo 8 r z
    | _, _ => (0x7FC00000, ⟨1, 0, 0, 0, 0, 0⟩)

/-- A node of the butterfly: an operation of fp32 rounded by RNE; a NaN makes it the default NaN (R155). -/
def node32 (f : FloatFn) (x y : Nat) : Nat :=
  if (readFloat 8 false x).isNan || (readFloat 8 false y).isNan then 0x7FC00000
  else (f 8 Rnd.rne (readFloat 8 false x) (readFloat 8 false y)).1

/-- The five stages of the butterfly and its scale (R155). -/
def Butterfly (l out : List Nat) : Prop :=
  ∃ st : Nat → Nat → Nat, (∀ i, i < 32 → st 0 i = l.getD i 0) ∧
    (∀ k i, k < 5 → i < 32 → i.testBit k = false →
      st (k + 1) i = node32 fnFadd (st k i) (st k (i + 2 ^ k)) ∧ st (k + 1) (i + 2 ^ k) = node32 fnFsub (st k i) (st k (i + 2 ^ k))) ∧
    ∀ i, i < 32 → out.getD i 0 = node32 fnFmul (st 5 i) 0x3E3504F3

/-- Two inputs of a node that may be empty: a node with one empty input gives the other (R133). -/
def NodeOf (f : Combine) (n : Nat) (x y z : Option Nat) (e : Exc) : Prop :=
  match x, y with
  | some a, some b => z = some (f n a b).1 ∧ e = (f n a b).2
  | some a, none => z = some a ∧ e = Exc.none
  | none, b => z = b ∧ e = Exc.none

/-- The number of node i of level k of the tree: 0 to 15, 16 to 23, 24 to 27, 28 and 29, and 30 (R133). -/
def nodeNo (k i : Nat) : Nat := [0, 16, 24, 28, 30].getD k 0 + i

/-- The binary tree over 32 leaves, pairs of neighbours at every level; the raises of all nodes (R133, R152). -/
def TreeOf (f : Combine) (l : List (Option Nat)) (z : Option Nat) (e : Exc) : Prop :=
  ∃ (t : Nat → Nat → Option Nat) (x : Nat → Nat → Exc), (∀ i, i < 32 → t 0 i = l.getD i none) ∧
    (∀ k i, k < 5 → i < 2 ^ (4 - k) → NodeOf f (nodeNo k i) (t k (2 * i)) (t k (2 * i + 1)) (t (k + 1) i) (x k i)) ∧
    z = t 5 0 ∧ e = Exc.sum ((List.range 5).flatMap fun k => (List.range (2 ^ (4 - k))).map (x k))

/-- The ascending fold: lane i gets that of leaves 0 to i; the raises of all steps (R133). -/
def FoldOf (f : Combine) (l : List (Option Nat)) (z : List Nat) (e : Exc) : Prop :=
  ∃ (t : Nat → Option Nat) (x : Nat → Exc), t 0 = l.getD 0 none ∧ x 0 = Exc.none ∧
    (∀ i, i + 1 < l.length → NodeOf f (i + 1) (t i) (l.getD (i + 1) none) (t (i + 1)) (x (i + 1))) ∧
    z = (List.range l.length).map (fun i => (t i).getD 0) ∧ e = Exc.sum ((List.range l.length).map x)

/-- How `red` and `scan` combine two values under MODE (R132, R133). -/
def Combines (v : View) (op node x y : Nat) (z : Nat × Exc) : Prop :=
  let a := readFloat v.type (modeFtz v.f.mode) x
  let b := readFloat v.type (modeFtz v.f.mode) y
  let low := (lowestLane v.act).getD 0
  let g := if modeRnd v.f.mode = 5 then (gen v.w.rseed (BitVec.ofNat 32 low) (BitVec.ofNat 32 node) (v.w.rdraw.get low)).toNat else 0
  let w := typeWidth v.type
  let int := fun (k : Nat) => valueOf w (typeSigned v.type) k
  if isFloat v.type then
    if a.isNan || b.isNan then z = ((edges v.type).2.2, ⟨0, 0, 0, 0, 0, 0⟩)
    else if op = 0 then z = fnFadd v.type ⟨modeRnd v.f.mode, modeSat v.f.mode, modeFtz v.f.mode, g⟩ a b
    else z = fnPick (op == 1) v.type Rnd.rne a b
  else z.1 < 2 ^ w ∧ match op with
    | 0 => Reduced v (int x + int y) (int z.1) ∧ z.2 = ⟨0, 0, 0, 0, 0, (clamps v (int x + int y)).toNat⟩
    | 1 => int z.1 = min (int x) (int y) ∧ z.2 = ⟨0, 0, 0, 0, 0, 0⟩
    | 2 => int z.1 = max (int x) (int y) ∧ z.2 = ⟨0, 0, 0, 0, 0, 0⟩
    | 3 => z.1 = (x % 2 ^ w) &&& (y % 2 ^ w) ∧ z.2 = ⟨0, 0, 0, 0, 0, 0⟩
    | 4 => z.1 = (x % 2 ^ w) ||| (y % 2 ^ w) ∧ z.2 = ⟨0, 0, 0, 0, 0, 0⟩
    | _ => z.1 = (x % 2 ^ w) ^^^ (y % 2 ^ w) ∧ z.2 = ⟨0, 0, 0, 0, 0, 0⟩

/-- The leaf of a lane (R132, R133): its value as it is read when it is named and present, a NaN as the default NaN or, under NSKIP, as
the operation's identity; zero when it is named and absent; none when it is not named. -/
def LeafOf (v : View) (op : Nat) (named : LaneMask) (bits n : Nat) (z : Option (Nat × Exc)) : Prop :=
  let f := readFloat v.type (modeFtz v.f.mode) bits
  if named.getLsbD n = false then z = none
  else if v.act.getLsbD n = false then z = some (0, ⟨0, 0, 0, 0, 0, 0⟩)
  else if isFloat v.type = false then z = some (bits, ⟨0, 0, 0, 0, 0, 0⟩)
  else if f.isNan = false then z = some (flushed v.type (modeFtz v.f.mode) bits, ⟨0, 0, 0, 0, 0, 0⟩)
  else if modeNskip v.f.mode then z = some
    (if op = 0 then 0 else if op = 1 then (edges v.type).2.1 else signBit v.type true + (edges v.type).2.1, ⟨0, 0, 0, 0, 0, 0⟩)
  else z = some ((edges v.type).2.2, ⟨f.isSig.toNat, 0, 0, 0, 0, 0⟩)

/-! ## Cross-lane words -/

/-- A cross-lane word: its warp is as `E` says; absence sets STATUS.MEMBER_ABSENT and, under MODE.MAT, raises the
member-absent trap with the absent named lanes (R31). -/
def GoesOnNaming (i : Instr) (s : State) (v : View) (named : LaneMask) (absent : Bool) (E : Warp → Prop) : Prop :=
  ∃ w, exec i s = .next (s.after
      (if absent && modeMat v.f.mode then (s.setWarp v.key w).raiseTrap v causeMember (named &&& ~~~ v.act)
        else s.setWarp v.key w) v false none false false) ∧
    w.status = (if absent then v.w.status ||| 1 else v.w.status) ∧ E w

/-- FLAGS, its counters and RDRAW are as before. -/
def Unraised (v : View) (w : Warp) : Prop := w.flags = v.w.flags ∧ w.xc = v.w.xc ∧ w.rdraw = v.w.rdraw

/-- Is a named lane absent (R31)? -/
def missing (v : View) (m : BitVec 7) : Bool := v.members m &&& ~~~ v.act != 0

/-- A shuffle: lane i takes the value of lane `look i (sel i)`, zero when that lane is not named and present, its own when
there is none (R128). -/
def ShuffleForms (r i : BitVec 7 → BitVec 7 → BitVec 7 → Instr) (look : Nat → Nat → Option Nat) : Prop :=
  let ok := fun (v : View) (d m : BitVec 7) (sel : Nat → Nat) (i : Instr) (s : State) =>
    let present := v.members m &&& v.act
    let missed := (laneList v.act).any fun n => match look n (sel n) with
      | some j => !present.getLsbD j
      | none => false
    GoesOnNaming i s v (v.members m) (missed || missing v m) fun w =>
      LaneWrite v w (typeWide v.type) d.toNat (fun n x => x = match look n (sel n) with
        | none => v.w.laneBits (typeWide v.type) d.toNat n
        | some j => if present.getLsbD j then v.w.laneBits (typeWide v.type) d.toNat j else 0) ∧ Unraised v w
  (∀ d m k s v, Passes s v
      { reads := .s m.toNat :: .v k.toNat :: laneRegs (typeWide v.type) d.toNat,
        writes := laneRegs (typeWide v.type) d.toNat, ok := pairOk (typeWide v.type) d.toNat } →
    ok v d m (fun n => ((v.w.vreg k.toNat).get n).toNat % 32) (r d m k) s) ∧
  (∀ d m k s v, Passes s v
      { reads := .s m.toNat :: laneRegs (typeWide v.type) d.toNat, writes := laneRegs (typeWide v.type) d.toNat,
        ok := pairOk (typeWide v.type) d.toNat && decide (0 ≤ v.immInt k ∧ v.immInt k < 32) } →
    ok v d m (fun _ => (v.immInt k).toNat) (i d m k) s)

/-- A reduction or scan of an operation (R132, R133): the leaves, folded by the fixed tree or in ascending order. -/
def CombineForm (scan : Bool) (op : Nat) (i : BitVec 7 → BitVec 7 → BitVec 7 → Instr) : Prop :=
  ∀ d a m s v, Passes s v
      { reads := .s m.toNat :: laneRegs (typeWide v.type) a.toNat, writes := laneRegs (typeWide v.type) d.toNat,
        ok := pairOk (typeWide v.type) d.toNat && pairOk (typeWide v.type) a.toNat && combineOk v.type op } →
    let leaves := v.leaves op (v.members m) a.toNat
    let vals := leaves.map fun x => x.map (·.1)
    let r := if scan then scanFold (v.combine op) none 0 vals
      else (List.replicate 32 ((tree32 (v.combine op) vals).1.getD 0), (tree32 (v.combine op) vals).2)
    let e := ((leaves.map fun x => (x.map (·.2)).getD Exc.none).foldl Exc.add Exc.none).add r.2
    GoesOnNaming (i d a m) s v (v.members m) (missing v m) fun w =>
      LaneWrite v w (typeWide v.type) d.toNat (fun n x => if isFloat v.type
          then x = r.1.getD n 0 % 2 ^ (if typeWide v.type then 64 else 32)
          else ∃ y, HoldsInt (typeWide v.type) x y ∧ InType v y ∧ (2 ^ typeWidth v.type : Int) ∣ y - r.1.getD n 0) ∧
      w.flags = (v.w.raiseExc e.once).flags ∧ w.xc = (v.w.raiseExc e.once).xc ∧
      ∀ n, n < 32 → w.rdraw.get n = if isFloat v.type ∧ op = 0 ∧ modeRnd v.f.mode = 5 ∧ v.act.getLsbD n = true
        then v.w.rdraw.get n + 1 else v.w.rdraw.get n

/-! ## Control words -/

/-- A control word has an effect on every slice of its fragment, and the fragment goes on where it says: at `goto`, when it
names a place; `branch` marks a taken branch (R22), `examine` the examination of R19. -/
def SlicesGoOn (i : Instr) (s : State) (v : View) (goto : Option Addr) (branch examine : Bool) (g : Nat → Slice → Slice) :
    Prop :=
  exec i s = .next (s.after (s.setWarp v.key (v.w.mapSlices v.f.mask g)) v false goto branch examine)

/-- A word that has no effect but where its fragment goes on. -/
def MovesOn (i : Instr) (s : State) (v : View) (goto : Option Addr) (branch : Bool) : Prop :=
  exec i s = .next (s.after s v false goto branch false)

/-- A word raises a cause of the whole instruction, before it has any effect (R20, R55). -/
def Raised (i : Instr) (s : State) (v : View) (cause : Nat) : Prop :=
  exec i s = .next (s.takeFault v.key v.no (v.cause cause) v.c.pos v.c.header .replay)

/-- The target of a control word (R72): its address and four times the signed offset. -/
def wordTarget (v : View) (o : BitVec 16) : Addr := v.c.header + BitVec.ofNat 64 (4 * (v.c.pos + 1)) + (o.signExtend 64) * 4

/-- The stack of some slice of the fragment is full. -/
def someStackFull (v : View) : Prop := ∃ k, k < 8 ∧ v.f.mask.getLsbD k = true ∧ 16 ≤ (v.w.slice k).stack.length

/-- The top entry of every slice of the fragment is of this kind. -/
def allTopsAre (v : View) (kind : EntryKind) : Prop :=
  ∀ k, k < 8 → v.f.mask.getLsbD k = true → ∃ e es, (v.w.slice k).stack = e :: es ∧ e.kind = kind

/-- A condition in slice k: pN, or its complement (R97). -/
def condition (v : View) (p : BitVec 3) (n : BitVec 1) (k : Nat) : BitVec 4 :=
  let m := v.w.pred p.toNat
  (if n = 1 then ~~~ m else m).extractLsb' (4 * k) 4

/-- The active lanes of slice k. -/
def activeIn (v : View) (k : Nat) : BitVec 4 := v.act.extractLsb' (4 * k) 4

/-- The entries above the innermost LOOP entry, and that entry and the rest. -/
def splitLoop (l : List StackEntry) : List StackEntry × List StackEntry := l.span fun e => e.kind != .loopEntry

/-! ## Special registers, traps, clauses -/

/-- The value of a special register in a lane (R77). -/
def special (s : State) (v : View) (n lane : Nat) : Nat :=
  let slot : Option TrapSlot := (sliceList v.f.mask).findSome? fun k => (v.w.slice k).trap
  match n with
  | 0x00 => lane
  | 0x01 => (v.w.origLane.get lane).toNat
  | 0x02 => v.w.id % 2 ^ 32
  | 0x03 => v.crew.row % 2 ^ 32
  | 0x04 => v.crew.col % 2 ^ 32
  | 0x05 => v.w.recCount.toNat
  | 0x06 => v.w.status.toNat
  | 0x07 => v.w.flags.toNat
  | 0x08 => v.f.mode.toNat
  | 0x09 => v.w.wtimer.toNat
  | 0x0A => s.time.toNat
  | 0x0B => v.w.tmrthr.toNat
  | 0x0C => v.w.tvec.toNat
  | 0x0D => ((slot.map fun (x : TrapSlot) => x.cause).getD 0) % 2 ^ 32
  | 0x0E => ((slot.map fun (x : TrapSlot) => x.value).getD 0).toNat
  | 0x10 => (v.w.wt.getD 0 0).toNat
  | 0x11 => (v.w.wt.getD 1 0).toNat
  | 0x12 => (v.w.wt.getD 2 0).toNat
  | 0x13 => (v.w.wt.getD 3 0).toNat
  | 0x14 => v.w.rseed.toNat
  | 0x15 => (v.w.rdraw.get lane).toNat
  | 0x18 => if v.crew.spadMacros = 0 then 0 else (s.core v.crew.core).gatecnt.toNat
  | 0x19 => if v.crew.spadMacros = 0 then 0 else (s.core v.crew.core).replaycnt.toNat
  | 0x1A => v.w.haarcnt.toNat
  | 0x20 => v.w.xc.nv % 2 ^ 32
  | 0x21 => v.w.xc.dz % 2 ^ 32
  | 0x22 => v.w.xc.ov % 2 ^ 32
  | 0x23 => v.w.xc.uf % 2 ^ 32
  | 0x24 => v.w.xc.nx % 2 ^ 32
  | 0x25 => v.w.xc.sa % 2 ^ 32
  | _ => 0

/-- The special registers that differ from lane to lane: LANEID, ORIGLANE, RDRAW (R77). -/
def perLane (n : Nat) : Bool := n == 0x00 || n == 0x01 || n == 0x15

/-- A word that raises a class-T cause; the first raise of a cause in a clause counts (R52), and whether a trap slot of the
fragment is filled then is kept with it (R53). -/
def RaisesTrap (i : Instr) (s : State) (v : View) (cause : Nat) (value : Word) : Prop :=
  exec i s = .next (s.after (s.mapFrag v.key v.no fun f =>
    if f.raised.any fun y => y.cause == cause then f else { f with raised := f.raised ++
      [⟨cause, value, v.act, (sliceList v.f.mask).any fun k => (v.w.slice k).trap.isSome⟩] }) v false none
    false false)

/-- A fragment of a number in a warp that the state lists. -/
def HasFrag (s : State) (k n : Nat) (w : Warp) (f : Frag) : Prop :=
  Tab.lookup k s.warps = some w ∧ w.frag n = some f

/-- A clause that a header lets start: its flags are clear, its words are fetched and stand where they may (R47, R82 to R84,
R178, R387). -/
structure Opens (s : State) (k n : Nat) (w : Warp) (f : Frag) (h : Header) (words : List Word) : Prop where
  frag : HasFrag s k n w f
  boundary : f.atBoundary = true
  clear : ∀ j, j < 8 → f.mask.getLsbD j = true → (w.slice j).flags &&& h.wait = 0
  flags : (h.setA < 12 ∨ h.setA = 15) ∧ (h.setB < 12 ∨ h.setB = 15)
  fetched : s.fetchClause (s.ctxOfCrew w.crew) (((Tab.lookup w.crew s.crews).map (·.core)).getD 0) (f.pc + 4) h.len = .ok words
  placed : misplaced words h.len 0 0 = none
  quiet : (words.any flagWord && s.raisersLeft k) = false

/-- The clause is in progress (R47, R58, R81, R85): SETA and SETB are set, the writes whose flags it waited for are covered, a
region opens with E = 1, the fragment has the issue slot, and its context pays for the words.  The clause and the region know
the number that the next request will have. -/
def opened (s : State) (k n : Nat) (w : Warp) (f : Frag) (h : Header) (words : List Word) : State :=
  let ctx := s.ctxOfCrew w.crew
  let core := ((Tab.lookup w.crew s.crews).map (·.core)).getD 0
  let bit := fun (x : Nat) => if x < 12 then (BitVec.ofNat 12 (2 ^ x)) else 0#12
  let cover := fun (q : Pending) => if h.wait.getLsbD q.flag then { q with slices := q.slices &&& ~~~ f.mask } else q
  let f1 := { f with
    clause := some ⟨f.pc, words, 0, h.setA, h.setB, (words.filter isLong).length, 0, none, s.nextId⟩
    suspended := false
    age := 0
    passed := h.yield
    state := w.goingState f.mask
    region := if h.entry then some ⟨f.pc, (sliceList f.mask).map fun j =>
      ⟨j, (w.slice j).cm, (w.slice j).stack.length, (w.slice j).loopEnds⟩, s.nextId⟩ else f.region }
  let w1 := { (w.mapSlices f.mask fun _ x => { x with flags := x.flags ||| bit h.setA ||| bit h.setB }) with
    pending := (w.pending.map cover).filter fun (q : Pending) => q.slices != 0
    recCount := if h.entry then w.recCount + 1 else w.recCount }
  let s1 := (s.setWarp k (w1.putFrag n f1)).remember ctx core f.pc.toNat
  { (s1.mapCore core fun q => { q with credit := Tab.set 0 q.credit ctx (Tab.get 0 q.credit ctx - h.len) }) with
    cur := some (k, n) }

/-- The fragment at the next word of its clause. -/
def nextWord (v : View) (w : Warp) (g : Frag) (long : Bool) : Frag :=
  { g with
    clause := some { v.c with pos := v.c.pos + 1, long := none, issued := v.c.issued + (if long then 1 else 0) }
    suspended := false
    state := w.goingState g.mask
    waitOp := none }

/-- Every slice of a mask is finished: each lane of it has exited (R14). -/
def AllFinished (w : Warp) (m : SliceMask) : Prop := ∀ k, k < 8 → m.getLsbD k = true → (w.slice k).xm = 0xF

/-- The lowest slice of a mask that is not finished. -/
def LowestLeft (w : Warp) (m : SliceMask) (k : Nat) : Prop :=
  k < 8 ∧ m.getLsbD k = true ∧ (w.slice k).xm ≠ 0xF ∧ ∀ j, j < k → m.getLsbD j = true → (w.slice j).xm = 0xF

/-- Where an examination sends a fragment that would go on at `pc` (R19): there, while a lane is current or the top entry names no place;
to the place that the top entry of its lowest unfinished slice names; nowhere, when every slice is finished. -/
def Examined (w : Warp) (m : SliceMask) (near pc : Addr) (dest : Option Addr) : Prop :=
  let live := ∃ k, k < 8 ∧ m.getLsbD k = true ∧ (w.slice k).cm &&& ~~~ (w.slice k).xm ≠ 0
  (live → dest = some pc) ∧ (AllFinished w m → dest = none) ∧
    (¬ live → ∀ k, LowestLeft w m k → dest = match (w.slice k).stack with
      | e :: _ => match e.kind with
        | .ifEntry | .loopEntry | .markEntry => some (codeNear near e.target)
        | _ => some pc
      | [] => some pc)

/-- The entries of a slice that were present at a depth, bottom first, without what they return to. -/
def presentAt (x : Slice) (depth : Nat) : List (EntryKind × BitVec 4 × BitVec 8 × Word) :=
  (x.stack.reverse.take depth).map fun e => (e.kind, e.mask, e.aux, e.count)

/-- The fragment when a word has made one warp into another: its region has ended if an entry that was present at its opening was popped,
or its mask, AUX or count changed (R58). -/
def RegionKept (f : Frag) (w0 w1 : Warp) (g : Frag) : Prop :=
  let same := ∀ r, f.region = some r → ∀ q ∈ r.slices, presentAt (w0.slice q.slice) q.depth = presentAt (w1.slice q.slice) q.depth
  (same → g = f) ∧ (¬ same → g = { f with region := none })

/-- The clause of a fragment of a warp has ended, and the fragment goes on at `pc` (R47, R84). -/
def clauseEnded (t : State) (v : View) (w : Warp) (f : Frag) (pc : Addr) : State :=
  { (((t.setWarp v.key w).setWarp v.key ((w.reachBoundary v.no).putFrag v.no { f with
      clause := none
      suspended := false
      pc := pc
      state := w.goingState f.mask
      waitOp := none })).settleFlags v.key) with cur := none }

/-- The fragment has ended (R19). -/
def fragmentEnds (t : State) (v : View) (w : Warp) : State :=
  { ((t.setWarp v.key { w with frags := w.frags.map fun f => if fragNo f.mask == v.no then { f with
      state := .done
      clause := none
      suspended := false
      region := none
      waitOp := none } else f }).settleFlags v.key) with cur := none }

/-- A word is the last of its clause or names a place: its warp is `w1` once it and a loop end have been had; `looks` says that the fragment
is examined. -/
def ClauseEnds (s t : State) (v : View) (f : Frag) (w1 : Warp) (long : Bool) (goto : Option Addr) (branch examine looks : Bool) : Prop :=
  let pc := goto.getD (v.c.header + BitVec.ofNat 64 (4 * (v.c.words.length + 1)))
  ∀ g dest, RegionKept f v.w w1 g → (looks = false → dest = some pc) → (looks = true → Examined w1 f.mask v.c.header pc dest) →
    let w2 := w1.putFrag v.no g
    (dest = none → s.after t v long goto branch examine = fragmentEnds (t.setWarp v.key w2) v w2) ∧
    ∀ a, dest = some a →
      ((goto ≠ none ∨ a ≠ pc) → s.badTarget v a = true →
        s.after t v long goto branch examine = s.takeFault v.key v.no (v.cause causeBadTarget) v.c.pos v.c.header .replay) ∧
      (¬ ((goto ≠ none ∨ a ≠ pc) ∧ s.badTarget v a = true) →
        s.after t v long goto branch examine = clauseEnded t v w2 g a)

/-! ## Words of memory and of the units -/

/-- A word has had its own effect, which is `t`; the registers that it will write are pending from its request on; and its
fragment goes on after it (R83 to R85). -/
def WordDone (i : Instr) (s : State) (v : View) (long : Bool) (regs : List Reg) (t : State) : Prop :=
  exec i s = .next (s.after
    (if regs.isEmpty then t
      else t.mapWarp v.key fun w => { w with pending := w.pending ++ [⟨s.nextId, regs, v.c.flag, v.f.mask⟩] }) v long none false
    false)

/-- A word holds its fragment in a state, its clause suspended (R223); what else it has done is `t`. -/
def WordHolds (i : Instr) (s : State) (v : View) (st : FragState) (t : State) : Prop :=
  exec i s = .next { (t.mapFrag v.key v.no fun f => { f with state := st, suspended := true }) with cur := none }

/-- A word raises a class-W cause, before it has any effect (R54, R55). -/
def WordFaults (i : Instr) (s : State) (v : View) (x : FaultInfo) : Prop :=
  exec i s = .next (s.takeFault v.key v.no x v.c.pos v.c.header .replay)

/-- The number from which a held word counts what came before it. -/
def since (s : State) (v : View) : Nat := v.f.waitOp.getD s.nextId

/-- The state in which that number, which no request takes, is kept in the fragment. -/
def countedFrom (s : State) (v : View) : State :=
  if v.f.waitOp.isSome then s
  else { s with nextId := s.nextId + 1 }.mapFrag v.key v.no fun f => { f with waitOp := some s.nextId }

/-- The loads that a warp issued before a number have completed (R183). -/
def LoadsDone (s : State) (k lim : Nat) : Prop := ∀ o ∈ s.ops, o.src.warp = k → o.id < lim → o.kind.isLoad = false

/-- What a warp wrote or loaded before a number has been performed; with S among the observers, its lines stand in DRAM
(R209, R210). -/
def Released (s : State) (k lim : Nat) (obs : BitVec 6) : Prop :=
  (∀ o ∈ s.ops, o.src.warp = k → o.id < lim → o.kind.relaxed = false) ∧
    (obs.getLsbD 2 = true → ∀ e ∈ s.unflushed, k ∉ e.2)

/-- What a warp wrote or loaded before a number has been performed: a release of it may write the core's dirty bytes home. -/
def AllPerformed (s : State) (k lim : Nat) : Prop := Released s k lim 0

/-- The `disarm` words that a warp issued before a number have had their effect (R218). -/
def DisarmsDone (s : State) (k lim : Nat) : Prop := ∀ o ∈ s.ops, o.src.warp = k → o.id < lim → ∀ c d, o.kind ≠ .disarm c d

/-- A dirty byte of a core's first-level cache, in a sector that a test admits. -/
def DirtyAt (s : State) (core : Nat) (p : Nat → Bool) (a : Nat) (q : Sector) : Prop :=
  (a / 64, q) ∈ (s.core core).l1 ∧ p (64 * (a / 64)) = true ∧ q.dirty.getLsbD (a % 64) = true

/-- Dirty bytes of a core have gone home, and their sectors are clean (R200, R244); no other byte, sector or core has changed. -/
structure WrittenBack (s t : State) (core : Nat) (p : Nat → Bool) : Prop where
  home : ∀ a, (∃ q, DirtyAt s core p a q) → ∃ q, DirtyAt s core p a q ∧ t.byte a = q.bytes.getD (a % 64) 0
  kept : ∀ a, (¬ ∃ q, DirtyAt s core p a q) → t.byte a = s.byte a
  clean : ∀ c, t.core c = if c = core then { s.core c with
      l1 := (s.core c).l1.map fun e => if p (64 * e.1) then (e.1, { e.2 with dirty := 0, writers := [] }) else e } else s.core c
  rest : t = { s with mem := t.mem, directory := t.directory, bad := t.bad, unflushed := t.unflushed, cores := t.cores }

/-- The effect of an acquire on a core (R210): with C only the sectors of token regions that it holds, dirty ones among them,
stay in its first-level cache, with M its operand stage is empty. -/
structure Acquired (s t : State) (core : Nat) (obs : BitVec 6) : Prop where
  l1 : (t.core core).l1 = if obs.getLsbD 5 then (s.core core).l1.filter fun e => e.2.dirty != 0 || s.inHeldRegion core (64 * e.1)
    else (s.core core).l1
  stage : (t.core core).stage = if obs.getLsbD 3 then [] else (s.core core).stage
  rest : t = { s with cores := t.cores }

/-- The warps of a crew that have a slice which is not finished (R33, R234). -/
def unfinishedOf (s : State) (crew : Nat) : List (Nat × Warp) :=
  s.warps.filter fun e => e.2.crew == crew && !e.2.retired && e.2.slices.any fun x => !x.finished

/-- Each of these warps is listed once, and its fragments have numbers of their own (R14, R23). -/
def ListedOnce (s : State) (crew : Nat) : Prop :=
  ((unfinishedOf s crew).map (·.1)).Nodup ∧
    ∀ e ∈ unfinishedOf s crew, Tab.lookup e.1 s.warps = some e.2 ∧ (e.2.frags.map fun f => fragNo f.mask).Nodup

/-- A fragment waits at a `bar` in the middle of its clause, its release had. -/
def WaitsAtBar (f : Frag) : Prop :=
  f.state = .barrier ∧ f.waitOp = none ∧ f.word = 0x7A000000 ∧ ∃ c, f.clause = some c ∧ c.pos + 1 < c.words.length

/-- A fragment has gone on from a long-latency word, whose region it has ended, to the next of its clause (R47, R58, R223). -/
def GoneOn (w : Warp) (f g : Frag) : Prop :=
  ∃ c, f.clause = some c ∧ g = { f with
    clause := some { c with pos := c.pos + 1, long := none, issued := c.issued + 1 }
    suspended := true
    state := w.goingState f.mask
    region := none
    waitOp := none }

/-- Every slice of a warp that is not finished has an empty stack, and no lane that is neither in CM nor exited (R33). -/
def Regular (w : Warp) : Prop := ∀ x ∈ w.slices, x.finished = false → x.stack = [] ∧ x.cm ||| x.xm = 0xF

/-- The lanes of warps that have not exited have been put in the order of their keys, ties by ORIGLANE: each place has the
predicates, ORIGLANE, RDRAW and live registers of the lane that it got (R33). -/
def Regrouped (s t : State) (ws : List (Nat × Warp)) (keys : Nat → Lanes) (live : DWord) : Prop :=
  let places := ws.flatMap fun e => (laneList (e.2.unexited 0xFF)).map fun n => (e.1, n)
  let orig := fun (p : Nat × Nat) => ((Tab.lookup p.1 s.warps).map fun w => (w.origLane.get p.2).toNat).getD 0
  let key := fun (p : Nat × Nat) => ((keys p.1).get p.2).toNat
  ∃ src : List (Nat × Nat), src.Perm places ∧
    src.Pairwise (fun p q => key p < key q ∨ (key p = key q ∧ orig p ≤ orig q)) ∧
    ∀ e ∈ places.zip src, ∃ w u, Tab.lookup e.2.1 s.warps = some w ∧ Tab.lookup e.1.1 t.warps = some u ∧
      u.origLane.get e.1.2 = w.origLane.get e.2.2 ∧ u.rdraw.get e.1.2 = w.rdraw.get e.2.2 ∧
      (∀ p, p < 8 → (u.pred p).getLsbD e.1.2 = (w.pred p).getLsbD e.2.2) ∧
      ∀ r ∈ liveRegs live, (u.vreg r).get e.1.2 = (w.vreg r).get e.2.2

/-- The counter of a class: cp, gr, co, st, fb (R75). -/
def counter (w : Warp) (c : Nat) : Nat := [w.oc.cp, w.oc.gr, w.oc.co, w.oc.st, w.oc.fb].getD c 0

/-- A 16-bit field of a barrier object (R235). -/
def fieldAt (s : State) (pa k : Nat) : Nat := (s.byte (pa + 2 * k)).toNat + 256 * (s.byte (pa + 2 * k + 1)).toNat

/-- The fields of a barrier object: EXPECT, ARRIVED, PHASE, GEN, BASE and TAG (R235). -/
structure HasObject (s : State) (pa expect arrived phase gen base tag : Nat) : Prop where
  expect : fieldAt s pa 1 = expect
  arrived : fieldAt s pa 0 = arrived
  phase : fieldAt s pa 3 = phase
  gen : fieldAt s pa 2 = gen
  base : fieldAt s pa 5 = base
  tag : fieldAt s pa 7 = tag

/-- An object after `Complete(w)` (R236). -/
def Completes (t : State) (pa expect arrived phase gen base : Nat) (w : Bool) : Prop :=
  if expect ≤ arrived ∧ (0 < expect ∨ w = true) then HasObject t pa base 0 ((phase + 1) % 65536) gen base 0xB0B1
  else HasObject t pa expect arrived phase gen base 0xB0B1

/-- Nothing but bytes of memory from `a` on has changed, and what the module keeps of its lines. -/
structure OnlyBytes (s t : State) (a n : Nat) : Prop where
  kept : ∀ x, x < a ∨ a + n ≤ x → t.byte x = s.byte x
  rest : t = { s with mem := t.mem, directory := t.directory, bad := t.bad, unflushed := t.unflushed }

/-- A barrier form that has been performed at its home: the word that it holds goes on (R236, R237). -/
def Performed (i : Instr) (s : State) (o : Op) (P : State → Prop) : Prop :=
  ∃ t, exec i s = .next ((t.dropOp o.id).finishHeld o { long := true } true) ∧ P t

/-- One new request of a word, whose translation the drift's cache may have taken in (R84, R191). -/
def OneRequest (s t : State) (v : View) (k : OpKind) : Prop :=
  t.ops = s.ops ++ [⟨s.nextId, k, v.src, true, false, s.nextId, s.nextId⟩] ∧
    t = { s with ops := t.ops, nextId := s.nextId + 1, tlb := t.tlb }

/-- A barrier form as it issues (R236): its object's place, and a request, with which `abar.wait` holds and the others go on. -/
def BarrierForm (form : AbarForm) (i : BitVec 7 → BitVec 7 → BitVec 4 → Instr) : Prop :=
  ∀ d a b s v, v.f.waitOp = none → Passes s v
      { reads := [.s d.toNat, .s a.toNat, .b b.toNat], long := true,
        ok := !(form == .init || form == .arr) || (v.w.sreg d.toNat).toNat % 65536 != 0 } →
    let r := v.uniformReach s (bufOf (v.w.breg b.toNat)) 16 (form != .init) (form != .wait) .plain
      ((v.w.sreg a.toNat).toNat % 2 ^ 32)
    (∀ x, r = .error x → WordFaults (i d a b) s v x) ∧
    ∀ y x, r = .ok (.mem y x) → ∃ t,
      OneRequest s t v (.abar form ((v.w.sreg d.toNat).setWidth 32) ⟨0, BitVec.ofNat 64 y, .pa x.pa, 16, [], none⟩) ∧
      (form ≠ .wait → WordDone (i d a b) s v true [] (t.endRegion v)) ∧
      (form = .wait → WordHolds (i d a b) s v .barrier (t.mapFrag v.key v.no fun f => { f with waitOp := some s.nextId }))

/-- The index of a token word that names an address of memory (R238). -/
def tokenAddress (v : View) (a : BitVec 7) (b : BitVec 4) (x : Nat) : Prop :=
  let buf := bufOf (v.w.breg b.toNat)
  buf.index false buf.size ((v.w.sreg a.toNat).toNat % 2 ^ 32) = .at x ∧ buf.fab = false ∧ isMap x = false

/-- The access of a lane that reached a place (R187, R189). -/
def accessOf (e : Nat × Reached) (p : Place) (size : Nat) (data : List (BitVec 8)) : Access :=
  ⟨e.1, BitVec.ofNat 64 e.2.addr, p, size, data, none⟩

/-- A memory word's requests (R84, R189): new ones at the end of the list, each for one line, which together hold the access of
every lane that reached a place, and no other; of lanes that store to one place (`once`) the highest is sure; `first` is the element
index that a compacting store starts at, and `faulted` marks requests of a word that ends in a fault; of the rest of the state, only the translation cache, and of its warp the pending registers,
the draws and, when its region ends, the fragment have changed. -/
structure Requested (s t : State) (v : View) (lanes : List (Nat × Reached)) (kind : OpKind → Option (List Access)) (size : Nat)
    (data : Nat × Reached → List (BitVec 8)) (ends : Bool) (once : Bool := false) (first : Option Nat := none) (faulted : Bool := false) : Prop where
  asks : ∃ new, t.ops = s.ops ++ new ∧ (∀ o ∈ new, o.src = { v.src with first := first, faulted := faulted } ∧ o.completed = false ∧ s.nextId ≤ o.id ∧ o.id < t.nextId) ∧
    (∀ e ∈ lanes, ∀ p, e.2.place = some p → (∃ o ∈ new, ∃ l, kind o.kind = some l ∧ accessOf e p size (data e) ∈ l) ∨
      (once = true ∧ ∃ e' ∈ lanes, e.1 < e'.1 ∧ e'.2.place = some p)) ∧
    ∀ o ∈ new, ∀ l, kind o.kind = some l →
      (∀ x ∈ l, ∃ e ∈ lanes, ∃ p, e.2.place = some p ∧ x = accessOf e p size (data e)) ∧
      ∀ x ∈ l, ∀ y ∈ l, x.line = y.line
  warp : ∃ w, (∀ k, Tab.lookup k t.warps = if k = v.key then some w else Tab.lookup k s.warps) ∧
    w = { v.w with pending := w.pending, rdraw := w.rdraw, frags := w.frags } ∧
    w.frags = if ends then v.w.frags.map fun f => if fragNo f.mask == v.no then { f with region := none } else f
      else v.w.frags
  rest : t = { s with ops := t.ops, nextId := t.nextId, tlb := t.tlb, warps := t.warps }

/-- The accesses of a load request of a word whose first request has a number, nothing of it got yet; `also` is what the word
writes besides the values of its lanes, and `ordinary` says that it is a load which coherence orders with its like (R184). -/
def loads (v : View) (first d size : Nat) (also : List RegWrite) (ordinary : Bool) : OpKind → Option (List Access)
  | .load w _ _ l got => if w = ⟨first, d, size, v.draws, also, ordinary⟩ ∧ got = [] then some l else none
  | _ => none

/-- The accesses of a store request. -/
def stores (rel : Option (BitVec 6)) : OpKind → Option (List Access)
  | .store r _ l => if r = rel then some l else none
  | .fp4s _ _ l => if rel = none then some l else none
  | _ => none

/-- A new request that leaves these writes to its completion. -/
def Leaves (s t : State) (v : View) (ws : List RegWrite) : Prop :=
  ∃ o ∈ t.ops, s.nextId ≤ o.id ∧ o.src = v.src ∧ o.kind = .result ws Exc.none

/-- A new load request without accesses, which leaves these writes to its completion: a load none of whose lanes reads (R183). -/
def LeavesLoad (s t : State) (v : View) (d size : Nat) (ws : List RegWrite) : Prop :=
  ∃ o ∈ t.ops, s.nextId ≤ o.id ∧ o.src = v.src ∧ o.kind = .load ⟨s.nextId, d, size, v.draws, ws, true⟩ Page.none false [] []

/-- The lanes of which a test holds. -/
def LanesAre (m : LaneMask) (p : Nat → Prop) : Prop := ∀ n, n < 32 → (m.getLsbD n = true ↔ p n)

/-- Zeros in a register, or in a pair. -/
def zeros (wide : Bool) (d : Nat) (m : LaneMask) : List RegWrite :=
  .v d m Lanes.zero :: if wide then [.v (d + 1) m Lanes.zero] else []

/-- Zeros in the lanes of a mask, if it has any. -/
def zerosIn (wide : Bool) (d : Nat) (m : LaneMask) : List RegWrite := if m = 0 then [] else zeros wide d m

/-- Does a lane of a word reach a HAAR page? -/
def reachesHaar (b : Buf) (l : List (Nat × Reached)) : Prop := ∃ n a x, (n, Reached.mem a x) ∈ l ∧ b.pageType x = .haar

/-- A load of typed elements that fills a pair through a record of 4-byte accesses or less (R197). -/
def fillsPair (v : View) (b : Buf) (l : List (Nat × Reached)) : Bool :=
  b.esz != 3 && l.any fun e => match e.2 with
    | .mem _ x => (b.pageType x).stored.any fun t => storedCount t b.size * elemWidth v.type == 64
    | _ => false

/-- `ld`, and `ldn` when `home`, as they issue (R71, R224).  What a load writes besides the values of its lanes is left to its
completion, with the requests of its lines or, when there are none, alone. -/
def LoadForm (home : Bool) (i : BitVec 7 → BitVec 7 → BitVec 4 → BitVec 3 → BitVec 1 → BitVec 1 → Instr) : Prop :=
  ∀ d a b p u q s v, let pr := if q == 1 then some p else none
    let sh := shapeLoad d a b pr u (q == 1 || p == 0) v
    Passes s v sh →
    let buf := bufOf (v.w.breg b.toNat)
    let r := v.reachAll s buf buf.clamp buf.soft true false true (loadTypeOk v buf d.toNat) u a
    let lost := r.1 ++ s.dataFaults v.crew.core (buf.cached home) buf.size r.2
    let wrong := tileFaults r.2 r.1 (v.indexAt u a) buf.extent (isFloat v.type && v.type != 13)
    ∀ soft zero out, LanesAre soft (fun n => ∃ z, (n, .soft z) ∈ r.2) →
      LanesAre zero (fun n => (∃ z, (n, .soft z) ∈ r.2) ∨ (n, .dropped) ∈ r.2) → LanesAre out (fun n => (n, .dropped) ∈ r.2) →
    let writesP := match pr with
      | some p => [RegWrite.p p.toNat v.act soft]
      | none => []
    (¬ reachesHaar buf r.2 → lost ≠ [] → WordFaults (i d a b p u q) s v (mergeFaults lost true false)) ∧
    (reachesHaar buf r.2 → wrong ≠ [] → WordFaults (i d a b p u q) s v (mergeFaults wrong true false)) ∧
    (lost = [] → ¬ reachesHaar buf r.2 →
      ¬ (v.act ≠ 0 ∧ (∀ e ∈ r.2, e.2 = .dropped) ∧ d.toNat % 8 = 0 ∧ s.haarBase v buf = true) →
      v.extraFault (if fillsPair v buf r.2 then [.v (d.toNat + 1)] else []) = none →
      let also := zerosIn (buf.esz == 3 || fillsPair v buf r.2) d.toNat zero ++ writesP
      ∃ t, WordDone (i d a b p u q) s v true sh.writes t ∧
        Requested s t v r.2 (loads v s.nextId d.toNat buf.size also (!home && !buf.byp)) buf.size (fun _ => []) false ∧
        ((∀ e ∈ r.2, e.2.place = none) → also ≠ [] → LeavesLoad s t v d.toNat buf.size also)) ∧
    ∀ n y x, reachesHaar buf r.2 → wrong = [] →
      (r.2.find? fun e => e.2.place.isSome) = some (n, .mem y x) → v.extraFault ((tileRegs (d.toNat / 8)).drop 1) = none →
      ∃ t, WordDone (i d a b p u q) s v true sh.writes t ∧ ∀ at0 ∈ slotWords v.type, ∃ o ∈ t.ops, s.nextId ≤ o.id ∧
        o.src = v.src ∧ ∃ lanes words, at0 ∈ words ∧ (∀ m, m < 32 → (lanes.getLsbD m = true ↔ ∃ e ∈ r.2, e.1 = m ∧ e.2 ≠ .dropped)) ∧
        o.kind = .tile ⟨s.nextId, d.toNat / 8, 4, v.draws,
            (if out = 0 then [] else (List.range 8).map fun j => .v (d.toNat / 8 * 8 + j) out Lanes.zero) ++ writesP, !home && !buf.byp⟩
          ⟨.haar, x.pa - x.pa % 2 ^ x.log, x.log, x.leaf.w1⟩ (!home && !buf.byp)
          ⟨n, BitVec.ofNat 64 y, .pa x.pa, 4160, [], none⟩ lanes words []

/-- The bytes that a lane of `st` sends to its place: encoded for its page, or with what the fabric's target needs to encode
them (R197, R330). -/
def sent (v : View) (b : Buf) (d : Nat) (e : Nat × Reached) : List (BitVec 8) :=
  match e.2 with
  | .mem _ x => (v.encode (b.pageType x) d b.size e.1).1
  | .fab _ => v.fabBytes b d e.1
  | _ => (v.encode .plain d b.size e.1).1

/-- The place that lanes in ascending order take in a compacting store, from index `i` on (R227). -/
def compactAt (v : View) (s : State) (b : Buf) (i k n : Nat) : Except LaneFault Reached :=
  s.reach v.crew b b.clamp false b.size false true true (plainOnly b) n ((i + k) % 2 ^ 32)

/-- A byte after accesses have written theirs, in order. -/
def afterWrites (l : List Access) (a : Nat) (old : BitVec 8) : BitVec 8 :=
  l.foldl (fun b x => match x.place with
    | .pa p => if p ≤ a ∧ a < p + x.data.length then x.data.getD (a - p) 0 else b
    | _ => b) old

/-- The bytes that serve an access: of the first-level cache on a hit, else of the home under the dirty bytes that the warp itself
wrote; under what the warp itself still has to write (R179, R180, R200, R208). -/
def served (s : State) (o : Op) (hit : Bool) (a n : Nat) : List (BitVec 8) :=
  s.forward o a (if hit then ((s.sector (s.coreOf o) a).map fun q => q.read (a % 64) n).getD []
    else s.ownDirty (s.coreOf o) o.src.warp a (s.bytes a n))

/-- What a lane loads from PLAIN storage (R224): 1 and 2 bytes are extended by the signedness of MODE.TYPE. -/
def plainValue (mode : Word) (size : Nat) (bs : List (BitVec 8)) : Nat :=
  let ty := modeType mode
  if size < 4 ∧ (ty = 0 ∨ ty = 1 ∨ ty = 3 ∨ ty = 5) then natOf 32 (valueOf (8 * size) true (leNat bs)) else leNat bs

/-- An atomic as it issues (R230): its lanes' accesses in one request, with their operands; zeros for lanes that CLAMP drops; the
core's own sectors that it names go home and leave. -/
def AtomicForm (op : AtomOp) (i : BitVec 7 → BitVec 7 → BitVec 7 → BitVec 4 → Instr) : Prop :=
  ∀ d a bv n s v, let buf := bufOf (v.w.breg n.toNat)
    let wide := buf.esz == 3
    Passes s v
      { reads := [.v a.toNat, .b n.toNat] ++ laneRegs wide bv.toNat ++ (if op == .cas then laneRegs wide d.toNat else []),
        writes := laneRegs wide d.toNat, long := true,
        ok := decide (2 ≤ buf.esz) && pairOk wide d.toNat && pairOk wide bv.toNat && atomTypeOk op v.type buf.esz } →
    let r := v.reachAll s buf buf.clamp false true true false (plainOnly buf) 0 a
    let bad := r.1 ++ s.dataFaults v.crew.core (fun _ => false) buf.size r.2
    let data := fun (e : Nat × Reached) => leBytes (v.w.laneBits wide bv.toNat e.1) buf.size ++ buf.rawMark
    (bad ≠ [] → WordFaults (i d a bv n) s v (mergeFaults bad true true)) ∧
    (bad = [] → ∃ t : State, WordDone (i d a bv n) s v true (laneRegs wide d.toNat) (t.endRegion v) ∧
      (∀ zero, LanesAre zero (fun n => (n, .dropped) ∈ r.2) → zero ≠ 0 → Leaves s t v (zeros wide d.toNat zero)) ∧
      ((∃ e ∈ r.2, e.2.place ≠ none) → ∃ o cmp l, t.ops.getLast? = some o ∧ s.nextId ≤ o.id ∧ o.src = v.src ∧
        o.kind = .atomic op d.toNat buf.size cmp l ∧
        l = r.2.filterMap (fun e => e.2.place.map fun p => accessOf e p buf.size (data e)) ∧
        cmp = l.map fun x => BitVec.ofNat 64 (v.w.laneBits wide d.toNat x.lane)) ∧
      ∀ a, (∀ q, ¬ DirtyAt s v.crew.core (fun _ => true) a q) → t.byte a = s.byte a)

/-- The new value of an atomic (R10, R230): `x` is what stands at the place, `y` the operand, `c` what `cas` compares with. -/
def newValue (op : AtomOp) (ty size x y c : Nat) (z : Nat) : Prop :=
  let w := 8 * size
  let int := fun (b : Nat) => valueOf w (typeSigned ty) b
  match op with
  | .add => if isFloat ty then z = (sumNode (if size = 8 then 7 else 8) x y).1 else z = (x + y) % 2 ^ w
  | .min => ty < 7 → z < 2 ^ w ∧ int z = min (int x) (int y)
  | .max => ty < 7 → z < 2 ^ w ∧ int z = max (int x) (int y)
  | .and => z = x &&& y
  | .or => z = x ||| y
  | .xor => z = x ^^^ y
  | .exch => z = y
  | .cas => z = if x = c % 2 ^ w then y else x

/-- A request of the list that a home or storage can perform now (R181, R184, R206, R208). -/
def Ready (s : State) (id : Nat) (o : Op) : Prop :=
  s.op id = some o ∧ s.stalled o = false ∧ s.ordered o = true ∧ o.granted = true

/-- A lane of a register after writes that a word left to its completion (R84). -/
def laneAfter (ws : List RegWrite) (w : Warp) (r n : Nat) : Word :=
  ws.foldl (fun x y => match y with
    | .v k m l => if k = r ∧ m.getLsbD n = true then l.get n else x
    | _ => x) ((w.vreg r).get n)

/-- The requests of one load but one. -/
def otherParts (s : State) (o : Op) (w : LoadWord) : List Op :=
  s.ops.filter fun q => q.kind.wordNo == some w.first && q.id != o.id

/-- A load has completed: what it writes besides its values is written, then the values lane by lane; every other lane of every
register is as before, and the requests of the word have left (R54, R84, R224). -/
def LoadEnds (s t : State) (o : Op) (w : LoadWord) (vals : List LaneValue) : Prop :=
  ∀ q, Tab.lookup o.src.warp s.warps = some q → (vals.map (·.lane)).Nodup → ∃ u, Tab.lookup o.src.warp t.warps = some u ∧
    (∀ e ∈ vals, e.lane < 32 → u.laneBits e.wide w.dest e.lane = e.bits % 2 ^ (if e.wide then 64 else 32)) ∧
    (∀ r n, n < 32 → (∀ e ∈ vals, e.lane = n → r ≠ w.dest ∧ (e.wide = true → r ≠ w.dest + 1)) →
      (u.vreg r).get n = laneAfter w.also q r n) ∧ u.b = q.b ∧
    t.ops = s.ops.filter fun p => p.kind.wordNo != some w.first

/-- Lanes of a line request of a load have got their values (R84, R203): they are kept with the request while another lane of the
word has none; with the last of them the load completes. -/
def GotValues (i : Instr) (s : State) (o : Op) (w : LoadWord) (p : Page) (cached : Bool) (rest : List Access)
    (got : List LaneValue) : Prop :=
  let others := otherParts s o w
  ∃ t, exec i s = .next t ∧ t.mem = s.mem ∧
    (rest ≠ [] ∨ (∃ q ∈ others, q.kind.accs ≠ []) →
      t.op o.id = some { o with kind := .load w p cached rest got } ∧ t.warps = s.warps) ∧
    (rest = [] → (∀ q ∈ others, q.kind.accs = []) → LoadEnds s t o w (got ++ others.flatMap fun q => match q.kind with
      | .load _ _ _ _ g => g
      | _ => []))

/-- A register after writes that a word left to its completion (R84). -/
def WrittenBy (ws : List RegWrite) (w u : Warp) : Prop :=
  (∀ r n, n < 32 → (u.vreg r).get n = laneAfter ws w r n) ∧
  (∀ r n, (u.pred r).getLsbD n = ws.foldl (fun x y => match y with
    | .p k m l => if k = r ∧ m.getLsbD n = true then l.getLsbD n else x
    | _ => x) ((w.pred r).getLsbD n)) ∧
  ∀ r, u.sreg r = ws.foldl (fun x y => match y with
    | .s k z => if k = r then z else x
    | _ => x) (w.sreg r)

/-- A warp whose counter of one class has gone up (R239). -/
def countedUp (w : Warp) (cls : Nat) : Warp := { w with oc := w.oc.map cls (· + 1) }

/-- The address of byte `n` of a copy in one of its ranges (R187, R241): row by row, each `len` bytes from its element on. -/
def copyAddress (c : CopyRange) (n : Nat) : Nat :=
  c.buf.base + swizzle c.buf.swz ((c.first + n / c.len) * c.buf.stride + n % c.len)

/-- A copy as it issues, between two ranges of one shape (R241): it holds while its counter is full; a cause at issue is the lowest
one and names its range; else every byte of it is in some piece of the new request, under its two addresses. -/
def CopyIssues (i : Instr) (s : State) (v : View) (dst src : CopyRange) : Prop :=
  let cls := if dst.buf.fab || src.buf.fab then 4 else 0
  let causes := s.rangeCauses v dst true ++ s.rangeCauses v src false
  (65535 ≤ counter v.w cls → WordHolds i s v .held s) ∧
  (counter v.w cls < 65535 → causes ≠ [] → ∃ x, WordFaults i s v x ∧ x.lanes = v.act ∧ (∃ e ∈ causes, e.1 = x.cause) ∧
    (∀ e ∈ causes, x.cause ≤ e.1) ∧ x.info = if (s.rangeCauses v dst true).any fun e => e.1 == x.cause then 0 else 1) ∧
  (counter v.w cls < 65535 → causes = [] → dst.rows * dst.len = 0 → WordDone i s v true [] s) ∧
  (counter v.w cls < 65535 → causes = [] → 0 < dst.rows * dst.len → ∃ (t : State) (rows : List CopyRow), WordDone i s v true [] t ∧
    t.ops = s.ops ++ [⟨s.nextId, .copy (cls == 4) dst.buf.raw (dst.granules ++ src.granules) rows, v.src, true, true, s.nextId, s.nextId⟩] ∧
    Tab.lookup v.key t.warps = some (countedUp v.w cls) ∧ t.mem = s.mem ∧
    ∀ n, n < dst.rows * dst.len → ∃ r ∈ rows, r.pos ≤ n ∧ n < r.pos + r.len ∧
      r.dst = s.piecePlace v dst.buf true (copyAddress dst n - (n - r.pos)) ∧
      r.src = s.piecePlace v src.buf false (copyAddress src n - (n - r.pos)))

/-- Pieces of a copy that are still to be written: they ascend, and those that share an aligned word of the destination follow
each other (R212, R241). -/
def InPieces (rows : List CopyRow) : Prop :=
  rows.Pairwise (fun x y => x.pos + x.len ≤ y.pos) ∧ ∀ x ∈ rows, ∀ y ∈ rows, x.pos < y.pos →
    x.pos + y.base = y.pos + x.base → (x.base + x.len - 1) / 4 = y.base / 4 →
    y.pos = x.pos + x.len ∨ ∃ z ∈ rows, x.pos < z.pos ∧ z.pos < y.pos ∧ x.pos + z.base = z.pos + x.base

/-- The crew of the issuing warp, with something done to its part of the matrix engine. -/
def CrewIs (t : State) (v : View) (P : Crew → Prop) : Prop := ∃ c, Tab.lookup v.w.crew t.crews = some c ∧ P c

/-- An operation goes to the end of the engine's list, in the warp's open batch and its quadrant; nothing else of the crew has
changed (R278, R284). -/
def Engaged (s t : State) (v : View) (tile : Nat) (kind : MatKind) : Prop :=
  CrewIs t v fun c => ∃ m : MatOp, c = { v.crew with engine := v.crew.engine ++ [m] } ∧ s.nextId ≤ m.id ∧ m.id < t.nextId ∧
    m.src = v.src ∧ m.batch = v.w.batch ∧ m.quad = v.w.id % 4 ∧ m.tile = tile ∧ m.kind = kind ∧ m.done = false ∧ m.fails = 0

/-- What `mma`, `mma.g` and `mma.q` ask of their uniform register and tiles (R278, R279, R290): reserved bits 0, a range of the
warp's quadrant that is armed and not being disarmed, row and K blocks within it, the tile's format that of the range, the
accumulator's tags those that the sum will have, or an empty tile. -/
structure MatrixOperands (form : MmaForm) (s : State) (v : View) (d a b : BitVec 7) (desc : DWord) : Prop where
  window : v.crew.spadMacros ≠ 0
  reserved : bitsOf (v.w.sreg b.toNat).toNat 35 29 = 0 ∧ bitsOf (v.w.sreg b.toNat).toNat 5 3 = 0
  range : v.crew.rangeAt (bitsOf (v.w.sreg b.toNat).toNat 0 5) = some desc ∧ s.disarming v.w.crew desc = false
  quad : bitsOf (v.w.sreg b.toNat).toNat 0 5 / 8 = v.w.id % 4
  gate : let g := bitsOf (v.w.sreg b.toNat).toNat 32 3
    (form = .gated → g = 1 ∨ g = 2) ∧ (form ≠ .gated → g = 0)
  row : bitsOf (v.w.sreg b.toNat).toNat 8 8 < (rangeOf desc).rblk
  kblk : (form ≠ .quad → bitsOf (v.w.sreg b.toNat).toNat 16 16 < (rangeOf desc).kblk) ∧
    (form = .quad → bitsOf (v.w.sreg b.toNat).toNat 16 16 + 4 ≤ (rangeOf desc).kblk ∧
      s.quadsAgree v (bitsOf (v.w.sreg b.toNat).toNat 0 5) (rangeOf desc) = true)
  format : (v.w.tag a.toNat).fmt = (rangeOf desc).ty ∧ ((rangeOf desc).ty = 13 → a.toNat ≠ 15 ∧
    v.extraFault (tileRegs (a.toNat + 1)) true = none)
  acc : let t := v.crew.accTag (v.w.id % 4) d.toNat
    t.bad = false ∧ (t.empty = true ∨ (t.int = (rangeOf desc).int ∧
      t.level = if form = .gated then 0 else (v.w.tag a.toNat).level))

/-- What one of the three asks the engine for. -/
def MatrixForm (form : MmaForm) (i : BitVec 7 → BitVec 7 → BitVec 7 → Instr) : Prop :=
  ∀ d a b s v desc, Passes s v
      { reads := .s b.toNat :: tileRegs a.toNat, long := true, ok := decide (d.toNat < 8 ∧ a.toNat < 16) } →
    let x := (v.w.sreg b.toNat).toNat
    (v.crew.spadMacros = 0 → Raised (i d a b) s v causeNoWindow) ∧
    (v.crew.spadMacros ≠ 0 → v.crew.rangeAt (bitsOf x 0 5) = none → RaisedIllegal (i d a b) s v) ∧
    (MatrixOperands form s v d a b desc → ∃ t copy, WordDone (i d a b) s v true [] t ∧
      Engaged s t v d.toNat (match form with
        | .quad => .mmaq desc (bitsOf x 8 8) (bitsOf x 16 16) copy [] false
        | _ => .mma desc (bitsOf x 8 8) (bitsOf x 16 16) copy (bitsOf x 32 3) (v.w.wt.getD 0 0)) ∧
      (form = .gated ∧ (v.w.tag a.toNat).level ≠ 0 → copy = (v.w.copySequence a.toNat).1) ∧
      (¬ (form = .gated ∧ (v.w.tag a.toNat).level ≠ 0) → copy = v.w.copyTile a.toNat) ∧ t.ops = s.ops ∧ t.warps = s.warps)

/-- The matrix engine of a crew performs this operation next, no end of its governor's window being due (R296). -/
def Next (s : State) (k quad : Nat) (c : Crew) (m : MatOp) : Prop :=
  Tab.lookup k s.crews = some c ∧ c.state ≠ .evicted ∧ s.windowOver c.core quad = false ∧ s.nextPass c quad = some m ∧ m.quad = quad ∧
    ∃ w, Tab.lookup m.src.warp s.warps = some w

/-- The operation has been performed on its tile, which is as `P` says; no other tile of the crew has changed. -/
def TileDone (i : Instr) (s : State) (k : Nat) (c : Crew) (m : MatOp) (P : State → Acc → Prop) : Prop :=
  ∃ t d, exec i s = .next t ∧ Tab.lookup k t.crews = some d ∧ P t (d.tile m.quad m.tile) ∧
    (∀ q j, j < 8 → (q, j) ≠ (m.quad, m.tile) → m.tile < 8 → d.tile q j = c.tile q j) ∧
    (∀ x ∈ d.engine, x.id = m.id → x.done = true) ∧ d.spad = c.spad ∧ d.macros = c.macros

/-- The engine has moved one element of a tile: the tile is as before, and the operation stands in the engine as `kind` (R310). -/
def ElementMoved (i : Instr) (s : State) (k : Nat) (c : Crew) (m : MatOp) (kind : MatKind) (P : State → Prop) : Prop :=
  ∃ t d, exec i s = .next t ∧ Tab.lookup k t.crews = some d ∧ d.acc = c.acc ∧ (∀ x ∈ d.engine, x.id = m.id → x = { m with kind := kind }) ∧ P t

/-- The products of an element of a sum: A(i, k) of the range with B(n, k) of the tiles, in order of k (R278, R287, R288). -/
def products (c : Crew) (r : Range) (rb : Nat) (parts : List (Nat × TileCopy)) (i n : Nat) : List (FVal × Elem) :=
  parts.flatMap fun p => (List.range r.kq).map fun k => (c.stationary r (64 * rb + i) (r.kq * p.1 + k), p.2.elem n k)

/-- The assay engine can perform a request on an object now, of which it reads some cells: the object stands at its place, no earlier
access of its warp to it is open, no lease and no missing token of the part `q` stops it, and what it reads is correctable (R71,
R205, R206, R268). -/
structure Assayed (s : State) (id : Nat) (o q : Op) (a : Access) (p : Page) (x : Sketch) (cells : List Nat) : Prop where
  op : s.op id = some o
  object : s.objectOf a p = some x
  free : o.granted = true ∧ s.writeFree o = true ∧ s.stalled o = false ∧ s.tokensHeld q = true
  sound : s.objectBad x cells = false
  room : x.held ≠ 0

/-- An insert or a deletion of one lane has done one step, and its request stands at the next; memory is as `P` says. -/
def StepDone (i : Instr) (s : State) (o : Op) (delete : Bool) (esz step : Nat) (l : List (Access × Page)) (P : State → Prop) : Prop :=
  ∃ t, exec i s = .next t ∧ t.op o.id = some { o with kind := .insert delete esz (step + 1) l } ∧ P t

/-- A report that an operation makes last when a test holds (R257): it goes on from the state `u` in which the operation has done the
rest. -/
def Reports (u t : State) (o : Op) (x : Sketch) (n : Nat) (test : Prop) (r : Report) : Prop :=
  (test → t.mem = (u.report o.src.warp o.src.ctx x n r).mem ∧ t.ctxs = (u.report o.src.warp o.src.ctx x n r).ctxs ∧
    (x.reports = false → (t.dword (x.pa + 8)).testBit r.bit = true)) ∧
  (¬ test → t.mem = u.mem ∧ t.ctxs = u.ctxs)

/-- The lane at the head of an insert or a deletion is finished: the request has left or stands at the next lane; memory is as `P`
says. -/
def LaneDone (i : Instr) (s : State) (o : Op) (delete : Bool) (esz : Nat) (rest : List (Access × Page)) (P : State → Prop) : Prop :=
  ∃ t, exec i s = .next t ∧ (rest = [] → t.ops = s.ops.filter fun q => q.id != o.id) ∧
    (rest ≠ [] → t.op o.id = some { o with kind := .insert delete esz 0 rest }) ∧ P t

/-- One more in a counter: not beyond its greatest value; no other byte has changed (R260, R264). -/
def CellUp (s t : State) (x : Sketch) (i : Nat) : Prop :=
  t.counter x i = min (s.counter x i + 1) x.max ∧ OnlyBytes s t (x.pa + 64 + i * x.cell) x.cell

/-- One less in a counter: a saturated one and one at zero keep their values; no other byte has changed (R260, R264). -/
def CellDown (s t : State) (x : Sketch) (i : Nat) : Prop :=
  t.counter x i = (if s.counter x i = x.max then x.max else s.counter x i - 1) ∧ OnlyBytes s t (x.pa + 64 + i * x.cell) x.cell

/-- A counter goes up, with the report of SAT when it comes to its greatest value, or down, with the report of ZCLAMP at zero (R260,
R264). -/
def CellMoves (delete : Bool) (s t : State) (o : Op) (x : Sketch) (n i : Nat) : Prop :=
  ∃ u, if delete then CellDown s u x i ∧ Reports u t o x n (s.counter x i = 0 ∧ x.max ≠ 0) .zclamp
    else CellUp s u x i ∧ Reports u t o x n (x.max ≤ s.counter x i + 1) .sat

/-- N of an object is a number; no other byte has changed (R248). -/
def CountIs (s t : State) (x : Sketch) (n : Nat) : Prop := t.dword (x.pa + 16) = n ∧ OnlyBytes { s with ops := t.ops, warps := t.warps } t (x.pa + 16) 8

/-- A query of one lane, the last of its word, has its answer: it is written, the other lanes and registers are as before, and the
request has left (R225). -/
def Answered (i : Instr) (s : State) (o : Op) (d esz lane answer : Nat) : Prop :=
  ∃ (t : State) (w u : Warp), exec i s = .next t ∧ t.mem = s.mem ∧ t.ops = s.ops.filter (fun q => q.id != o.id) ∧
    Tab.lookup o.src.warp s.warps = some w ∧ Tab.lookup o.src.warp t.warps = some u ∧
    u.laneBits (esz == 3) d lane = answer % 2 ^ (if esz == 3 then 64 else 32) ∧
    (∀ r n, n < 32 → n ≠ lane ∨ (r ≠ d ∧ (esz = 3 → r ≠ d + 1)) → (u.vreg r).get n = (w.vreg r).get n) ∧ u.s = w.s ∧ u.p = w.p

/-! ## Collectives and the fabric -/

/-- A collective as it issues (R335, R336): it holds while its counter is full; its barrier object is judged at issue; it takes the
elements of its tile, the next step of its warp in the group, and leaves its tiles hazardous until it retires. -/
def CollectiveForm (op : Nat) (i : BitVec 7 → BitVec 7 → BitVec 4 → Instr) : Prop :=
  ∀ d a b s v, Passes s v (collShape op d a b s v) →
    let x := (v.w.sreg a.toNat).toNat
    let g := bitsOf x 0 12
    let n := bitsOf x 12 16
    let reach := v.uniformReach s (bufOf (v.w.breg b.toNat)) 16 true true .plain (bitsOf x 32 32)
    let step := s.nextStep v.crew v.w.id g
    (65535 ≤ counter v.w 2 → WordHolds (i d a b) s v .held s) ∧
    (counter v.w 2 < 65535 → ∀ e, reach = .error e → WordFaults (i d a b) s v e) ∧
    (counter v.w 2 < 65535 → ∀ r p, reach = .ok r → r.place = some p → ∃ (t : State) (c : Collective) (u : Warp) (k : Crew),
      WordDone (i d a b) s v true [] (t.endRegion v) ∧
      t.ops = s.ops ++ [⟨s.nextId, .coll c, v.src, true, true, s.nextId, s.nextId⟩] ∧ t.mem = s.mem ∧
      c.desc = v.w.sreg a.toNat ∧ c.object = v.w.sreg (a.toNat + 1) ∧ c.operation = op ∧ c.type = v.type ∧ c.step = step ∧
      c.tile = d.toNat ∧ c.bar.place = p ∧ c.skip = modeNskip v.f.mode ∧ c.requested = false ∧
      c.data = (List.range n).map (fun j =>
        BitVec.ofNat 64 (v.w.tileElem v.type d.toNat (j / tileCount v.type) (j % tileCount v.type))) ∧
      Tab.lookup v.key t.warps = some u ∧
      (∃ regs, u = { countedUp v.w 2 with pending := v.w.pending ++ [⟨s.nextId, regs, 16, 0xFF⟩] } ∧
        (∀ r ∈ tileRegs d.toNat, r ∈ regs) ∧ (op = 3 ∨ op = 4 → ∀ r ∈ tileRegs (d.toNat + 1), r ∈ regs)) ∧
      Tab.lookup v.w.crew t.crews = some k ∧ k = { v.crew with steps := k.steps } ∧
      Tab.get 0 k.steps (64 * g + v.w.id) = step + 1 ∧
      ∀ m, m ≠ 64 * g + v.w.id → Tab.get 0 k.steps m = Tab.get 0 v.crew.steps m)

/-- The steps of a group at its root, before the others the one of a number. -/
def stepAt (s : State) (g no : Nat) : Option CollStep := (s.root g).steps.find? fun x => x.no == no

/-- The participants of a step in ascending order: by rank, crew row and crew column (R333). -/
def InParticipants (l m : List CollRequest) : Prop :=
  l.Perm m ∧ (∀ r ∈ l, r.crewRow < 65536 ∧ r.crewCol < 65536) ∧ m.Pairwise fun x y => x.rank < y.rank ∨
    (x.rank = y.rank ∧ (x.crewRow < y.crewRow ∨ (x.crewRow = y.crewRow ∧ x.crewCol < y.crewCol)))

/-- A node of a step over two elements (R337): integers modulo the width or the lower or higher of both; a sum of a floating type rounded
by RNE, or the choice of R164; a NaN makes it the default NaN. -/
def CollNodeOf (op ty x y : Nat) (z : Nat × Exc) : Prop :=
  let a := readFloat ty false x
  let b := readFloat ty false y
  let int := valueOf (elemWidth ty) (typeSigned ty)
  if isFloat ty = false then z.2 = Exc.none ∧ z.1 < 2 ^ elemWidth ty ∧ match op with
    | 1 => int z.1 = min (int x) (int y)
    | 2 => int z.1 = max (int x) (int y)
    | _ => z.1 = (x + y) % 2 ^ elemWidth ty
  else if a.isNan || b.isNan then z = ((edges ty).2.2, ⟨(a.isSig || b.isSig).toNat, 0, 0, 0, 0, 0⟩)
  else if op = 1 ∨ op = 2 then z = fnPick (op == 1) ty Rnd.rne a b
  else z = fnFadd ty Rnd.rne a b

/-- The fixed tree of a step: neighbours at every level, a node with one empty input giving the other; the raises of all nodes (R337). -/
def CollTreeOf (op ty : Nat) (l : List (Option Nat)) (z : Option Nat) (e : Exc) : Prop :=
  ∃ (t : Nat → Nat → Option Nat) (x : Nat → Nat → Exc), (∀ i, t 0 i = l.getD i none) ∧
    (∀ k i, match t k (2 * i), t k (2 * i + 1) with
      | some a, some b => ∃ r, CollNodeOf op ty a b r ∧ t (k + 1) i = some r.1 ∧ x k i = r.2
      | some a, none => t (k + 1) i = some a ∧ x k i = Exc.none
      | none, b => t (k + 1) i = b ∧ x k i = Exc.none) ∧
    ∀ n, l.length ≤ 2 ^ n →
      z = t n 0 ∧ e = Exc.sum ((List.range n).flatMap fun k => (List.range (2 ^ (n - 1 - k))).map (x k))

/-- What a participant gives to element i of warp k (R337, R338): nothing when its warp has exited, or when a NaN is skipped, with the
other elements of its lane in `coll.nsb`; among several participants a NaN counts as the default one. -/
def CollLeafOf (several : Bool) (op ty : Nat) (r : CollRequest) (k i : Nat) (z : Option Nat × Exc) : Prop :=
  let data := r.data.getD k []
  let x := fun (j : Nat) => readFloat ty false (data.getD j 0).toNat
  let nan := fun (j : Nat) => isFloat ty = true ∧ (x j).isNan = true
  let e := tileCount ty
  let out := match op with
    | 3 => nan i
    | 4 => ∃ j, i / e = j / e ∧ j < r.count ∧ nan j
    | _ => r.skip.getD k false = true ∧ nan i
  (data.length ≤ i ∨ out → z = (none, Exc.none)) ∧
  (i < data.length → ¬ out → ¬ nan i → z = (some (data.getD i 0).toNat, Exc.none)) ∧
  (i < data.length → ¬ out → nan i →
    z = (some (if several then (edges ty).2.2 else (data.getD i 0).toNat), ⟨(x i).isSig.toNat, 0, 0, 0, 0, 0⟩))

/-- Element i of warp k over the participants of a step: its value, how many give to it, and what is raised (R337, R338). -/
def CollElemOf (l : List CollRequest) (op ty k i : Nat) (z : Option Nat) (n : Nat) (e : Exc) : Prop :=
  ∃ (v : List (Option Nat × Exc)) (x : Exc), v.length = l.length ∧
    (∀ (j : Nat) (r : CollRequest) (y : Option Nat × Exc), l[j]? = some r → v[j]? = some y → CollLeafOf (decide (1 < l.length)) op ty r k i y) ∧
    CollTreeOf op ty (v.map (·.1)) z x ∧ e = x.add (Exc.sum (v.map (·.2))) ∧ n = (v.filter fun y => y.1.isSome).length

/-- The tile of counts that a NaN-skipping sum writes after its own (R338). -/
def CollCounts (op per cnt d : Nat) (n : Nat → Nat) (u : Warp) : Prop :=
  (op = 3 → u.tag (d + 1) = ⟨4, 0, 0⟩ ∧ ∀ lane e, lane < 32 → e < 16 →
    ((u.vreg (8 * d + 8 + e / 2)).get lane).extractLsb' (16 * (e % 2)) 16 =
      BitVec.ofNat 16 (if e < per ∧ lane * per + e < cnt then n (lane * per + e) else 0)) ∧
  (op = 4 → u.tag (d + 1) = ⟨2, 0, 0⟩ ∧ ∀ lane, lane < 32 →
    (u.vreg (8 * d + 8)).get lane = BitVec.ofNat 32 (if lane * per < cnt then n (lane * per) else 0) ∧
    ∀ j, j < 7 → (u.vreg (8 * d + 9 + j)).get lane = 0)

/-- An engine operation has retired: its request has left, and the counter of its class is one less (R212). -/
def Retired (s t : State) (o : Op) (cls : Nat) : Prop :=
  (∀ x ∈ t.ops, x.id ≠ o.id) ∧ ∀ w, Tab.lookup o.src.warp s.warps = some w →
    ∃ u, Tab.lookup o.src.warp t.warps = some u ∧ u.oc = w.oc.map cls (· - 1)

/-- Memory has changed only where an access writes its bytes. -/
def Wrote (s t : State) (pa : Nat) (bs : List (BitVec 8)) : Prop :=
  ∀ a, t.byte a = if pa ≤ a ∧ a < pa + bs.length then bs.getD (a - pa) 0 else s.byte a

/-- A record of a context's fault queue is posted last: its cause and its INFO. -/
def Recorded (s t : State) (ctx cause : Nat) (info : Word) : Prop :=
  ∀ c q, Tab.lookup ctx s.ctxs = some c → c.faultQ = some q → ∃ d p r, Tab.lookup ctx t.ctxs = some d ∧ d.faultQ = some p ∧
    p.held = q.held ++ [r] ∧ (r.getD 0 0).extractLsb' 24 8 = BitVec.ofNat 8 cause ∧ r.getD 11 0 = info

/-! ## Stope units -/

/-- A stope command as it issues (R353): a channel of another context, then its pages, then a full counter; else one counted
request, under which the warp goes on. -/
def StopeCommand (i : Instr) (s : State) (v : View) (chan : Nat) (pages : List (Nat × Nat × Nat) × List (Nat × Nat)) (write : Bool)
    (kind : OpKind) : Prop :=
  (s.ownsChannel v.crew.ctx chan = false → WordFaults i s v { cause := causePermission, lanes := v.act }) ∧
  (s.ownsChannel v.crew.ctx chan = true →
    (pages.2 ≠ [] → WordFaults i s v (v.pagesFault pages.2 write)) ∧
    (pages.2 = [] → 65535 ≤ counter v.w 3 → WordHolds i s v .held s) ∧
    (pages.2 = [] → counter v.w 3 < 65535 → ∃ t : State, WordDone i s v true [] (t.endRegion v) ∧
      t.ops = s.ops ++ [⟨s.nextId, kind, v.src, true, true, s.nextId, s.nextId⟩] ∧ Tab.lookup v.key t.warps = some (countedUp v.w 3) ∧
      t = { s with ops := t.ops, warps := t.warps, nextId := s.nextId + 1, tlb := t.tlb }))

/-- A gather-reduce as it issues (R358): the lanes' places on PLAIN pages of the first tier, then a full counter; else one counted
request, until whose retirement its destinations are hazardous. -/
def GatherForm (op : Nat) (i : BitVec 7 → BitVec 7 → BitVec 4 → BitVec 3 → BitVec 1 → Instr) : Prop :=
  ∀ d a b p u s v, Passes s v
      { reads := [indexReg u a, .b b.toNat], also := [.v d.toNat, .p p.toNat], long := true,
        ok := [1, 2, 8].contains v.type && (bufOf (v.w.breg b.toNat)).esz == 2 && v.c.flag != 15 } →
    let buf := bufOf (v.w.breg b.toNat)
    let r := v.reachAll s buf buf.clamp false true false false (fun _ x => buf.pageType x == .plain && decide (frameOf x.pa + 4 ≤ firstTier)) u a
    (r.1 ≠ [] → (∀ e ∈ r.2, ∀ z, e.2 ≠ .fab z) → WordFaults (i d a b p u) s v (mergeFaults r.1 true false)) ∧
    (r.1 = [] → (∃ e ∈ r.2, ∃ z, e.2 = .fab z) → ∃ x, WordFaults (i d a b p u) s v x ∧ x.cause = causeType) ∧
    (r.1 = [] → (∀ e ∈ r.2, ∀ z, e.2 ≠ .fab z) → 65535 ≤ counter v.w 1 → WordHolds (i d a b p u) s v .held s) ∧
    (r.1 = [] → (∀ e ∈ r.2, e.2 = .dropped ∨ ∃ va x, e.2 = .mem va x) → counter v.w 1 < 65535 →
      ∃ (t : State) (w : Warp) (l : List Access), WordDone (i d a b p u) s v true [] t ∧
        t.ops = s.ops ++ [⟨s.nextId, .gred op d.toNat p.toNat (v.w.unexited 0xFF) l [], v.src, true, true, s.nextId, s.nextId⟩] ∧
        l = r.2.filterMap (fun e => e.2.place.map fun q => accessOf e q 4 []) ∧ Tab.lookup v.key t.warps = some w ∧
        w = { countedUp v.w 1 with pending := v.w.pending ++ [⟨s.nextId, [.v d.toNat, .p p.toNat], 16, 0xFF⟩] } ∧
        t.mem = s.mem)

/-- A leaf of a gather-reduce (R133, R355): an integer as it is; a number of fp32 as it is read; a NaN as the default one or, under NSKIP, as
the operation's identity. -/
def GredLeafOf (mode : Word) (gop x : Nat) (z : Nat × Exc) : Prop :=
  let f := readFloat 8 (modeFtz mode) x
  if modeType mode ≠ 8 then z = (x, Exc.none)
  else if f.isNan = false then z = (flushed 8 (modeFtz mode) x, Exc.none)
  else if modeNskip mode then z = (if gop = 0 then 0 else if gop = 1 then 0x7F800000 else 0xFF800000, Exc.none)
  else z = (0x7FC00000, ⟨f.isSig.toNat, 0, 0, 0, 0, 0⟩)

/-- A step of a unit's fold (R355): integers wrap; fp32 rounds by RNE, under MODE.SAT and MODE.FTZ. -/
def GredNodeOf (mode : Word) (gop x y : Nat) (z : Nat × Exc) : Prop :=
  let a := readFloat 8 (modeFtz mode) x
  let b := readFloat 8 (modeFtz mode) y
  let int := valueOf 32 (typeSigned (modeType mode))
  if modeType mode ≠ 8 then z.2 = Exc.none ∧ z.1 < 2 ^ 32 ∧ match gop with
    | 0 => z.1 = (x + y) % 2 ^ 32
    | 1 => int z.1 = min (int x) (int y)
    | _ => int z.1 = max (int x) (int y)
  else if a.isNan || b.isNan then z = (0x7FC00000, Exc.none)
  else if gop = 0 then z = fnFadd 8 ⟨0, modeSat mode, modeFtz mode, 0⟩ a b
  else z = fnPick (gop == 1) 8 Rnd.rne a b

/-- The fold of what a unit has read, in the order of lanes: its partial result, and what its leaves and steps raise (R355). -/
def GredFoldOf (mode : Word) (gop : Nat) (l : List Nat) (z : Nat) (e : Exc) : Prop :=
  ∃ leaf node : Nat → Nat × Exc, (∀ i x, l[i]? = some x → GredLeafOf mode gop x (leaf i)) ∧ node 0 = ((leaf 0).1, Exc.none) ∧
    (∀ i, i + 1 < l.length → GredNodeOf mode gop (node i).1 (leaf (i + 1)).1 (node (i + 1))) ∧ z = (node (l.length - 1)).1 ∧
    e = Exc.sum ((List.range l.length).flatMap fun i => [(leaf i).2, (node i).2])

/-- A unit of a run that is still at work, and the run once something has been done to that unit. -/
def UnitTo (s t : State) (o : Op) (r : StopeRun) (us : Tab StopeUnit) (bank : Nat) (u : StopeUnit) : Prop :=
  s.op o.id = some o → t.op o.id = some { o with kind := .stopeRun r true (Tab.put bank u us) }

/-! ## Launches and crews -/

/-- Two bytes of a launch's STATUS, where its context's table puts them (R37, R39). -/
def StatusBytes (s t : State) (l : Launch) (code : Nat) : Prop :=
  ∀ z, s.walkCtx l.ctx (l.record + 2) = some z → t.byte z.pa = BitVec.ofNat 8 code ∧ t.byte (z.pa + 1) = BitVec.ofNat 8 (code / 256)

/-- A launch of a running context has been submitted: its first STATUS is the first refusal in the order of R40, or QUEUED, under
which it waits last in its queue. -/
def Submitted (s t : State) (l : Launch) (code : Nat) : Prop :=
  let q := Tab.get LaunchQueue.free s.queues l.queue
  let g := s.group l.fgroup
  code = (if l.badField = true then 0x8003 else if q.owner ≠ some l.ctx ∨ q.enabled = false then 0x8005
    else if 64 ≤ q.waiting.length then 0x8004 else if 16 < l.crews then 0x8001
    else if 768 < (l.warps + 3) / 4 * l.regs then 0x8002
    else if l.fgroup ≠ 0 ∧ (g.valid = false ∨ g.ctx ≠ l.ctx) then 0x8006 else 1) ∧
  StatusBytes s t l code ∧ (code ≠ 1 → t.queues = s.queues) ∧
  (code = 1 → Tab.lookup s.nextId t.launches = some { l with status := 1 } ∧
    Tab.get LaunchQueue.free t.queues l.queue = { q with waiting := q.waiting ++ [s.nextId] })

/-- The values that a launch names, of `size` bytes each from an address on: each is read where its page (virtual and physical
address, length) puts it, lowest byte first, and there are no others (R37). -/
def LaunchValues {w : Nat} (s : State) (pages : List (Nat × Nat × Nat)) (at' size n : Nat) (l : List (BitVec w)) : Prop :=
  (∀ i p pa m, i < n → (p, pa, m) ∈ pages → p ≤ at' + size * i → at' + size * i + size ≤ p + m →
    l.getD i 0 = BitVec.ofNat w (leNat (s.bytes (pa + (at' + size * i - p)) size))) ∧
  ∀ i, n ≤ i → l.getD i 0 = 0

/-- A launch has been dispatched from the head of a queue: its groups stand last in the placement list of the queue's class (R42). -/
def Dispatched (s t : State) (n : Nat) (k : Nat) (l : Launch) : Prop :=
  let q := Tab.get LaunchQueue.free s.queues n
  Tab.get LaunchQueue.free t.queues n = { q with waiting := q.waiting.drop 1 } ∧ t.mem = s.mem ∧
    Tab.lookup k t.launches = some { l with cls := q.cls
                                            dispatched := some s.nextId } ∧
    t.placement.getD q.cls [] = s.placement.getD q.cls [] ++ (List.range l.groups).map fun g => (k, g)

/-- A crew of a launch has started on a core (R14, R38, R48): its warps hold what the record says, and their fragments start at
ENTRY, the core's operand stage is empty, and a context that is new on the core has no credit there (R49, R65). -/
def CrewStarts (s t : State) (core k : Nat) (l : Launch) (g i : Nat) : Prop :=
  ∃ c, Tab.lookup s.nextId t.crews = some c ∧ c.ctx = l.ctx ∧ c.launch = k ∧ c.group = g ∧ c.idx = i ∧
    c.row = (l.row0 + g) % 65536 ∧ c.col = i ∧ c.core = core ∧ c.cls = l.cls ∧ c.state = .resident ∧ c.spadMacros = l.spad ∧
    (∀ w, w < l.warps → ∃ u, Tab.lookup (64 * s.nextId + w) t.warps = some u ∧ u.crew = s.nextId ∧ u.id = w ∧ u.nregs = l.regs ∧
      (∀ r, u.sreg r = l.ureg.getD r 0) ∧ (∀ r, u.breg r = l.brec.getD r 0) ∧ (∀ r, u.vreg r = Lanes.zero) ∧ (∀ r, u.pred r = 0) ∧
      (∀ n, n < 32 → u.origLane.get n = BitVec.ofNat 32 (32 * w + n)) ∧
      (∀ j b, j < 8 → b < 4 → (u.slice j).xm.getLsbD b = decide (l.lanes ≤ 4 * j + b) ∧
        (u.slice j).cm.getLsbD b = decide (4 * j + b < l.lanes) ∧ (u.slice j).stack = []) ∧
      u.frags.map (·.pc) = [BitVec.ofNat 64 l.entry]) ∧
    (t.core core).stage = [] ∧ (s.onCore l.ctx core = false → Tab.get 0 (t.core core).credit l.ctx = 0) ∧
    (l.status = 1 → StatusBytes s t l 2)

/-- The same crew, out in an image, which names its core as a virtual one (R65, R66, R68). -/
def CrewOut (s t : State) (k i : Nat) : Prop :=
  ∀ c, Tab.lookup k s.crews = some c → Tab.lookup k t.crews = some { c with
    state := if c.state = .exited then .exited else .evicted
    core := s.virtOf c.ctx c.core
    image := some i }

/-- The same crew, back from its image, on a core. -/
def CrewBack (t : State) (k : Nat) (c : Crew) (core : Nat) : Prop :=
  Tab.lookup k t.crews = some { c with
    state := if c.state = .evicted then .resident else c.state
    core := core
    image := none }

/-- No token region of any context. -/
def NoTokens (s : State) : Prop := ∀ e ∈ s.ctxs, e.2.tokens = []

/-! ## Gallery, shots and replays -/

/-- A request to Gallery has its answer (R368): it is kept with the request until it is told. -/
def Served (i : Instr) (s t : State) (o : Op) (n : Nat) (arg : DWord) (d : Nat) (seq : Word) (x : DWord) : Prop :=
  exec i s = .next t ∧ t.op o.id = some { o with kind := .sys n arg d seq (some x) }

/-- The token regions of a context. -/
def tokensOf (s : State) (ctx : Nat) : List TokenRegion := ((Tab.lookup ctx s.ctxs).map (·.tokens)).getD []

/-- An entry of the wait table that is a context's. -/
def EntryOf (s : State) (ctx entry : Nat) : Prop :=
  entry ≠ 0 ∧ ((∃ g r x, Tab.lookup entry s.waits = some (.page ctx g r x)) ∨ ∃ w f, Tab.lookup entry s.waits = some (.token ctx w f))

/-- A replay (R12, R61, R371): the context's fragments under the entry, when it is the context's, and those under the overflow entry
are no longer parked; a page entry is released. -/
def Replayed (s t : State) (ctx entry : Nat) : Prop :=
  (∀ k w f m r, Tab.lookup k s.warps = some w → s.ctxOfCrew w.crew = ctx → f ∈ w.frags → (w.frags.map fun g => fragNo g.mask).Nodup →
    f.state = .parked → f.park = some (m, r) → m = 0 ∨ (m = entry ∧ EntryOf s ctx entry) →
    ∃ u, Tab.lookup k t.warps = some u ∧ ∀ g ∈ u.frags, fragNo g.mask = fragNo f.mask → g.state ≠ .parked) ∧
  (∀ g r x, entry ≠ 0 → Tab.lookup entry s.waits = some (.page ctx g r x) → ∃ y, Tab.lookup entry t.waits = some (.page ctx g true y)) ∧
  t = { s with warps := t.warps, waits := t.waits, nextId := t.nextId }

/-- The entry that stands for a page of a context, or none (R371). -/
def pageTarget (s : State) (ctx va : Nat) : Nat := ((s.pageEntry ctx (va / 65536)).map (·.1)).getD 0

/-- A replay word: permission outside a privileged context, else the replay (R371). -/
def ReplayForm (token : Bool) (i : BitVec 7 → Instr) : Prop :=
  ∀ a s v, let x := (v.w.sreg a.toNat).toNat
    let y := (v.w.sreg (a.toNat + 1)).toNat
    Passes s v
      { reads := [.s a.toNat, .s (a.toNat + 1)],
        ok := a.toNat % 2 == 0 && bitsOf x 57 7 == 0 && bitsOf y 16 48 == 0 && (!token || bitsOf x 12 45 == 0) } →
    (s.privileged v.crew.ctx = false → Raised (i a) s v causePermission) ∧
    (s.privileged v.crew.ctx = true → ∃ t, WordDone (i a) s v false [] t ∧ Replayed s t y (if token then x else pageTarget s y x))

/-- The module's registers are latched for a source, unless a shot is in progress (R377). -/
def Latched (s t : State) (source : ShotSource) (tag : Option Word) : Prop :=
  (s.shot ≠ none → t.shot = s.shot) ∧
  (s.shot = none → ∃ y, t.shot = some y ∧ y.source = source ∧ y.tag = tag ∧ y.time = s.time ∧ y.corrected = s.plant.corrected ∧
    y.uncorrectable = s.bad.length ∧ y.placement = s.placement ∧ y.cage = s.cage ∧
    y.controllers = s.plant.working ∧ y.nackCounts = s.fabric.nackCounts ∧ y.slices.length = 64 ∧
    (∀ p, p < fabricPorts → Tab.lookup p y.packets = some ((s.ops.filter fun o => s.portOf o == p).map fun o => o.kind.packets).sum) ∧
    ∀ n, Tab.lookup n y.cores =
      (Tab.lookup n s.cores).map fun c => (c.gatecnt, c.replaycnt))

/-! ## Steps, faults and starts -/

/-- A step comes to what an instruction comes to, and time goes on when the machine does. -/
def StepRuns (s u : State) (i : Instr) : Prop :=
  (∀ t, exec i u = .next t → step s = .next t.tick) ∧ (∀ x, exec i u = .fault x → step s = .fault x) ∧
    ∀ x, exec i u = .refused x → step s = .refused x

/-- A record of a context's fault queue is posted last (R56): its words are `r`. -/
def Posts (s t : State) (ctx : Nat) (r : List Word) : Prop :=
  ∀ c q, Tab.lookup ctx s.ctxs = some c → c.faultQ = some q → ∃ d p, Tab.lookup ctx t.ctxs = some d ∧ d.faultQ = some p ∧
    p.held = q.held ++ [r] ∧ p.base = q.base ∧ p.slots = q.slots ∧ p.next = q.next

/-- A record of a context's fault queue is posted, and after it no other but those that faults of units of the context's stope runs
have made due (R356). -/
def PostsThenStops (s t : State) (ctx : Nat) (r : List Word) : Prop :=
  ∀ c q, Tab.lookup ctx s.ctxs = some c → c.faultQ = some q → ∃ d p due, Tab.lookup ctx t.ctxs = some d ∧ d.faultQ = some p ∧
    p.held = q.held ++ r :: due ∧ p.base = q.base ∧ p.slots = q.slots ∧ p.next = q.next ∧
    ((∀ o ∈ s.ops, o.src.ctx = ctx → o.kind.stopeAt = none) → due = [])

/-- The record of a double trap (R53, R56): its cause, the lanes active then, and nothing of what was raised under it. -/
def DoubleTrapRecord (r : List Word) (act : LaneMask) : Prop :=
  (r.getD 0 0).extractLsb' 24 8 = 0x0A ∧ r.getD 1 0 = act ∧ r.getD 2 0 = 0 ∧ r.getD 3 0 = 0 ∧ r.getD 4 0 = 0 ∧ r.getD 5 0 = 0 ∧
    r.getD 11 0 = 0

/-- A context has stopped (R51, R53): it stands so, its launches that had not ended have the code ABORTED, and none of its warps
issues. -/
def Stopped (s t : State) (ctx : Nat) : Prop :=
  (∀ c, Tab.lookup ctx s.ctxs = some c → ∃ d, Tab.lookup ctx t.ctxs = some d ∧ d.state = .stopped) ∧
  (∀ l x, Tab.lookup l s.launches = some x → x.ctx = ctx → x.status < 3 → ∃ y, Tab.lookup l t.launches = some y ∧
    y.status = 0x8008) ∧
  ∀ k w, Tab.lookup k s.warps = some w → s.ctxOfCrew w.crew = ctx → ∃ u, Tab.lookup k t.warps = some u ∧ u.retired = true

end Sys2Proof.Cert

open Sys2Proof Sys2Proof.Machine Sys2Proof.Cert

/-- R114 with R94 and R96: `add`, `sub`, `mul`, `mulh`, `min` and `max`, in the lane and uniform forms, with a register and with
an immediate: sums, differences and products saturate or wrap; `mulh` is the exact product divided by 2^W and rounded down, and
it, `min` and `max` raise no flag. R115: `addc` and `subb` on the unsigned views, with p7 as carry or borrow in and out. -/
def Obligations.IntegerArithmetic : Prop :=
  FourForms .add .addI .addS .addSi (reducedSpec (· + ·)) ∧
  FourForms .sub .subI .subS .subSi (reducedSpec (· - ·)) ∧
  FourForms .mul .mulI .mulS .mulSi (reducedSpec (· * ·)) ∧
  FourForms .mulh .mulhI .mulhS .mulhSi (quietSpec fun v a b r =>
    2 ^ typeWidth v.type * r ≤ a * b ∧ a * b < 2 ^ typeWidth v.type * (r + 1)) ∧
  FourForms .min .minI .minS .minSi (quietSpec fun _ a b r => r = min a b) ∧
  FourForms .max .maxI .maxS .maxSi (quietSpec fun _ a b r => r = max a b) ∧
  (∀ d a b s v, Passes s v (shapeCarry (shapeR d a b false v)) → GoesOn (.addc d a b) s v fun w =>
    CarryWrite v w d.toNat fun n => addcRel v (v.lane a.toNat n) (v.lane b.toNat n) ((v.w.pred 7).getLsbD n)) ∧
  (∀ d a k s v, Passes s v (shapeCarry (shapeI d a false v)) → GoesOn (.addcI d a k) s v fun w =>
    CarryWrite v w d.toNat fun n => addcRel v (v.lane a.toNat n) (v.imm k) ((v.w.pred 7).getLsbD n)) ∧
  (∀ d a b s v, Passes s v (shapeCarry (shapeR d a b false v)) → GoesOn (.subb d a b) s v fun w =>
    CarryWrite v w d.toNat fun n => subbRel v (v.lane a.toNat n) (v.lane b.toNat n) ((v.w.pred 7).getLsbD n)) ∧
  (∀ d a k s v, Passes s v (shapeCarry (shapeI d a false v)) → GoesOn (.subbI d a k) s v fun w =>
    CarryWrite v w d.toNat fun n => subbRel v (v.lane a.toNat n) (v.imm k) ((v.w.pred 7).getLsbD n))

/-- R117: the logical operations, shifts and rotation on W-bit patterns, the count taken unsigned. -/
def Obligations.IntegerLogicAndShifts : Prop :=
  FourForms .andBits .andBitsI .andBitsS .andBitsSi (patternSpec fun _ a b => a &&& b) ∧
  FourForms .orBits .orBitsI .orBitsS .orBitsSi (patternSpec fun _ a b => a ||| b) ∧
  FourForms .xorBits .xorBitsI .xorBitsS .xorBitsSi (patternSpec fun _ a b => a ^^^ b) ∧
  FourForms .shl .shlI .shlS .shlSi (patternSpec fun _ a b => a <<< b.toNat) ∧
  FourForms .shr .shrI .shrS .shrSi (patternSpec fun _ a b => a >>> b.toNat) ∧
  FourForms .sar .sarI .sarS .sarSi (patternSpec fun _ a b => a.sshiftRight b.toNat) ∧
  FourForms .rot .rotI .rotS .rotSi (patternSpec fun w a b => a.rotateLeft (b.toNat % w))

/-- R118 and R119: the operations with one operand, and the moves. -/
def Obligations.IntegerUnaryAndMoves : Prop :=
  TwoForms .notBits .notBitsS (patternSpec fun _ a _ => ~~~ a) ∧
  TwoForms .clz .clzS (quietSpec fun v a _ r => ∃ k : Nat, r = k ∧ k ≤ typeWidth v.type ∧
    (pattern v a).toNat < 2 ^ (typeWidth v.type - k) ∧
    (k < typeWidth v.type → 2 ^ (typeWidth v.type - k - 1) ≤ (pattern v a).toNat)) ∧
  TwoForms .popc .popcS (quietSpec fun v a _ r =>
    r = (((List.range (typeWidth v.type)).filter fun i => (pattern v a).getLsbD i).length : Nat)) ∧
  TwoForms .brev .brevS (patternSpec fun _ a _ => a.reverse) ∧
  TwoForms .abs .absS ⟨fun v a _ r => if typeSigned v.type then Reduced v a.natAbs r else r = a,
    fun v a _ => ⟨0, 0, 0, 0, 0, (typeSigned v.type && clamps v a.natAbs).toNat⟩⟩ ∧
  (∀ d a s v, Passes s v (shapeI d a false v) → GoesOn (.mov d a) s v fun w =>
    LaneWrite v w (typeWide v.type) d.toNat (fun n x => x = v.w.laneBits (typeWide v.type) a.toNat n) ∧ Quiet v w) ∧
  (∀ d a s v, Passes s v (shapeSI d a false v) → GoesOn (.movS d a) s v fun w =>
    UniWrite v w d.toNat (fun x => x = v.w.sreg a.toNat) ∧ Quiet v w) ∧
  (∀ d k s v, Passes s v { writes := laneRegs (typeWide v.type) d.toNat, ok := pairOk (typeWide v.type) d.toNat } →
    GoesOn (.movImm d k) s v fun w =>
      LaneWrite v w (typeWide v.type) d.toNat (fun _ x => HoldsInt (typeWide v.type) x (v.immInt k)) ∧ Quiet v w) ∧
  (∀ d k s v, Passes s v { writes := [.s d.toNat] } → GoesOn (.movSImm d k) s v fun w =>
    UniWrite v w d.toNat (fun x => HoldsInt true x.toNat (v.immInt k)) ∧ Quiet v w)

/-- R140, R143, R147 and R148: `RoundTo` of every value into every type: the quantum, the rounding of its count under each mode,
UF and NX, FTZ, overflow, zeros, infinities and NaNs. Some clauses rest on readings and choices of the model
(notes/assumptions/13). -/
def Obligations.RoundingToAType : Prop :=
  ∀ (ty : Nat) (r : Rnd) (neg : Bool), ty < 14 →
    (∀ n d, 0 < n → 0 < d → isFloat ty = true → RoundsFloat ty r neg n d (roundTo ty r (.num neg n d))) ∧
    (∀ n d, 0 < d → isFloat ty = false → RoundsInt ty r neg n d (roundTo ty r (.num neg n d))) ∧
    (∀ d, isFloat ty = true → roundTo ty r (.num neg 0 d) = (signBit ty neg, Exc.none)) ∧
    InfRounds ty r.sat neg (roundTo ty r (.inf neg)) ∧
    ∀ sig p, p < 2 ^ 51 → NanRounds ty r.sat neg sig p (roundTo ty r (.nan neg sig p))

/-- R116 with R84: `idiv` and `irem` leave quotient, remainder and DZ to the completion of their request. That the remainder of
−2^(W−1) by −1 raises no SA is the model's choice (notes/assumptions/42). -/
def Obligations.IntegerDivision : Prop :=
  FourLongForms .idiv .idivI .idivS .idivSi idivSpec ∧ FourLongForms .irem .iremI .iremS .iremSi iremSpec

/-- R120: the integer compares, in lanes and uniforms, with a register and with an immediate, under their majors and X; a D above 7
raises illegal-instruction. -/
def Obligations.IntegerCompares : Prop :=
  CompareForms .cmpEq .cmpEqI .cmpEqS .cmpEqSi 0 (· = ·) ∧ CompareForms .cmpNe .cmpNeI .cmpNeS .cmpNeSi 1 (· ≠ ·) ∧
  CompareForms .cmpLt .cmpLtI .cmpLtS .cmpLtSi 2 (· < ·) ∧ CompareForms .cmpLe .cmpLeI .cmpLeS .cmpLeSi 3 (· ≤ ·) ∧
  CompareForms .cmpGt .cmpGtI .cmpGtS .cmpGtSi 4 (· > ·) ∧ CompareForms .cmpGe .cmpGeI .cmpGeS .cmpGeSi 5 (· ≥ ·)

/-- R121 to R123: `mad`, bit fields and `sel`. Some clauses rest on readings and choices of the model (notes/assumptions/10). -/
def Obligations.MultiplyAddFieldsSelect : Prop :=
  (∀ d a b s v, Passes s v (shapeRD d a b v) → GoesOn (.mad d a b) s v (LaneInts
    (reducedSpec fun x y => x + y) v d (fun n => v.lane a.toNat n * v.lane b.toNat n) (v.lane d.toNat))) ∧
  (∀ d a b s v, Passes s v (shapeSD d a b v) → GoesOn (.madS d a b) s v (UniInt
    (reducedSpec fun x y => x + y) v d (v.uni a.toNat * v.uni b.toNat) (v.uni d.toNat))) ∧
  (∀ d a b s v, Passes s v (shapeR d a b false v) → GoesOn (.bfe d a b) s v (LaneInts
    (quietSpec fun v a c r => bfeRel v a c.toNat r) v d (v.lane a.toNat) fun n => ((v.w.vreg b.toNat).get n).toNat)) ∧
  (∀ d a b s v, Passes s v (shapeS d a b false v) → GoesOn (.bfeS d a b) s v (UniInt
    (quietSpec fun v a c r => bfeRel v a c.toNat r) v d (v.uni a.toNat) (v.w.sreg b.toNat).toNat)) ∧
  (∀ d a b s v, Passes s v (shapeRD d a b v) → GoesOn (.bfi d a b) s v fun w =>
    LaneWrite v w (typeWide v.type) d.toNat (fun n x => ∃ r, HoldsInt (typeWide v.type) x r ∧
      bfiRel v (v.lane d.toNat n) (v.lane a.toNat n) ((v.w.vreg b.toNat).get n).toNat r) ∧ Quiet v w) ∧
  (∀ d a b s v, Passes s v (shapeSD d a b v) → GoesOn (.bfiS d a b) s v fun w =>
    UniWrite v w d.toNat (fun x => ∃ r, HoldsInt true x.toNat r ∧
      bfiRel v (v.uni d.toNat) (v.uni a.toNat) (v.w.sreg b.toNat).toNat r) ∧ Quiet v w) ∧
  (∀ d a b n p s v, Passes s v { shapeR d a b false v with reads := .p p.toNat :: (shapeR d a b false v).reads } →
    GoesOn (.sel d a b n p) s v fun w => LaneWrite v w (typeWide v.type) d.toNat (fun i x =>
      x = v.w.laneBits (typeWide v.type) (if (v.w.pred p.toNat).getLsbD i = (n == 0) then a.toNat else b.toNat) i) ∧
      Quiet v w)

/-- R124 to R126: lane masks, and the moves between lanes, uniforms and predicates. -/
def Obligations.LaneMasksAndMoves : Prop :=
  (∀ p ∈ ([(Instr.laneLt, fun i => 2 ^ i - 1), (.laneLe, fun i => 2 ^ (i + 1) - 1), (.laneGt, fun i => 2 ^ 32 - 2 ^ (i + 1)),
      (.laneGe, fun i => 2 ^ 32 - 2 ^ i), (.laneEq, fun i => 2 ^ i)] : List ((BitVec 7 → Instr) × (Nat → Nat))),
    ∀ d s v, Passes s v { reads := [.sr 0], writes := [.v d.toNat] } → GoesOn (p.1 d) s v fun w =>
      LaneWrite v w false d.toNat (fun n x => x = p.2 n) ∧ Quiet v w) ∧
  (∀ d a s v, Passes s v
      { reads := [.s a.toNat], writes := laneRegs (typeWide v.type) d.toNat, ok := pairOk (typeWide v.type) d.toNat } → GoesOn (.s2v d a) s v fun w =>
    LaneWrite v w (typeWide v.type) d.toNat
      (fun _ x => x = (v.w.sreg a.toNat).toNat % 2 ^ (if typeWide v.type then 64 else 32)) ∧ Quiet v w) ∧
  (∀ d a s v, Passes s v
      { reads := laneRegs (typeWide v.type) a.toNat, writes := [.s d.toNat], ok := pairOk (typeWide v.type) a.toNat } → GoesOn (.v2s d a) s v fun w =>
    UniWrite v w d.toNat (fun x =>
      (v.act = 0 → x = 0) ∧
      ∀ n, n < 32 → v.act.getLsbD n = true → (∀ k, k < n → v.act.getLsbD k = false) →
        HoldsInt true x.toNat (v.lane a.toNat n)) ∧ Quiet v w) ∧
  (∀ p ∈ ([(Instr.pand, fun x y => x && y), (.por, fun x y => x || y), (.pxor, fun x y => x != y)] :
      List ((BitVec 7 → BitVec 7 → BitVec 7 → Instr) × (Bool → Bool → Bool))),
    ∀ d a b s v, Passes s v { reads := [.p a.toNat, .p b.toNat], writes := [.p d.toNat] } →
      GoesOn (p.1 d a b) s v fun w => PredWrite v w d.toNat v.act (fun n =>
        p.2 ((v.w.pred a.toNat).getLsbD n) ((v.w.pred b.toNat).getLsbD n)) ∧ Quiet v w) ∧
  (∀ p ∈ ([(Instr.pnot, fun x => !x), (.pmov, fun x => x)] : List ((BitVec 7 → BitVec 7 → Instr) × (Bool → Bool))),
    ∀ d a s v, Passes s v { reads := [.p a.toNat], writes := [.p d.toNat] } →
      GoesOn (p.1 d a) s v fun w =>
        PredWrite v w d.toNat v.act (fun n => p.2 ((v.w.pred a.toNat).getLsbD n)) ∧ Quiet v w)

/-- R158 to R161, R163 and R165: sums, products and `ffma` round the exact value once; the lanes and flags of each word. Some
clauses rest on readings and choices of the model (notes/assumptions/13). -/
def Obligations.FloatArithmetic : Prop :=
  FloatForms .fadd .faddI fnFadd ∧ FloatForms .fsub .fsubI fnFsub ∧ FloatForms .fmul .fmulI fnFmul ∧
  (∀ d a b s v, Passes s v { shapeRD d a b v with ok := (shapeF fpType d a b false v).ok } → GoesOn (.ffma d a b) s v
    (FloatWrite v d fun n => fnFfma v.type (v.rnd n 0) (v.opnd a.toNat n) (v.opnd b.toNat n) (v.opnd d.toNat n))) ∧
  ∀ (ty : Nat) (r : Rnd) (s : Bool) (a b : Nat) (t : Bool) (c d : Nat), fpType ty = true → 0 < b → 0 < d →
    RoundsTo ty r (sgn s a * d + sgn t c * b) (b * d) (fnFadd ty r (.num s a b) (.num t c d)) ∧
    RoundsTo ty r (sgn s a * d - sgn t c * b) (b * d) (fnFsub ty r (.num s a b) (.num t c d)) ∧
    RoundsTo ty r (sgn s a * sgn t c) (b * d) (fnFmul ty r (.num s a b) (.num t c d)) ∧
    ∀ (u : Bool) (x y : Nat), 0 < y → RoundsTo ty r (sgn s a * sgn t c * y + sgn u x * (b * d)) (b * d * y)
      (fnFfma ty r (.num s a b) (.num t c d) (.num u x y))

/-- R163 and R168 with R84: `fdiv` and the special functions leave results and flags to the completion of their requests; the
special cases of R168's table. Some clauses rest on readings and choices of the model (notes/assumptions/13). -/
def Obligations.FloatLongWords : Prop :=
  (∀ d a b s v, Passes s v (shapeF fpType d a b true v) → GoesOnDrawing (.fdiv d a b) s v (laneRegs (typeWide v.type) d.toNat)
    (LaterFloats v d fun n => fnFdiv v.type (v.rnd n 0) (v.opnd a.toNat n) (v.opnd b.toNat n))) ∧
  (∀ d a k s v, Passes s v (shapeFI fpType d a k true v) → GoesOnDrawing (.fdivI d a k) s v (laneRegs (typeWide v.type) d.toNat)
    (LaterFloats v d fun n => fnFdiv v.type (v.rnd n 0) (v.opnd a.toNat n) (v.immVal k))) ∧
  (∀ p ∈ ([(Instr.frcp, fnFrcp), (.frsq, fnFrsq), (.fsqrt, fnFsqrt), (.fexp2, fnFexp2), (.flog2, fnFlog2), (.fsin, fnFsin),
      (.fcos, fnFcos), (.ftanh, fnFtanh)] : List ((BitVec 7 → BitVec 7 → Instr) × SpecialFn)),
    ∀ d a s v, Passes s v (shapeF1 fpType d a true v) → GoesOnDrawing (p.1 d a) s v (laneRegs (typeWide v.type) d.toNat)
      (LaterFloats v d fun n => p.2 v.type (v.rnd n 0) (v.opnd a.toNat n))) ∧
  ∀ (ty : Nat) (r : Rnd) (s : Bool) (d : Nat), fpType ty = true → 0 < d →
    (∀ (t : Bool) (a c b : Nat), 0 < b → 0 < c → RoundsTo ty r (sgn s a * d * sgn t 1) (b * c) (fnFdiv ty r (.num s a b) (.num t c d))) ∧
    fnFrcp ty r (.num s 0 d) = (infBits ty s, Exc.DZ) ∧ fnFrcp ty r (.inf s) = (zeroBits ty s, Exc.none) ∧
    fnFrsq ty r (.num s 0 d) = (infBits ty s, Exc.DZ) ∧ fnFrsq ty r (.inf false) = (zeroBits ty false, Exc.none) ∧
    fnFsqrt ty r (.num s 0 d) = (zeroBits ty s, Exc.none) ∧ fnFsqrt ty r (.inf false) = (infBits ty false, Exc.none) ∧
    fnFexp2 ty r (.inf true) = (zeroBits ty false, Exc.none) ∧ fnFexp2 ty r (.inf false) = (infBits ty false, Exc.none) ∧
    fnFlog2 ty r (.num s 0 d) = (infBits ty true, Exc.DZ) ∧ fnFlog2 ty r (.inf false) = (infBits ty false, Exc.none) ∧
    fnFsin ty r (.inf s) = (defaultNan ty, Exc.NV) ∧ fnFcos ty r (.inf s) = (defaultNan ty, Exc.NV) ∧
    fnFsin ty r (.num s 0 d) = (zeroBits ty s, Exc.none) ∧ fnFtanh ty r (.num s 0 d) = (zeroBits ty s, Exc.none) ∧
    ∀ n : Nat, 0 < n → fnFrsq ty r (.num true n d) = (defaultNan ty, Exc.NV) ∧ fnFsqrt ty r (.num true n d) = (defaultNan ty, Exc.NV) ∧
      fnFlog2 ty r (.num true n d) = (defaultNan ty, Exc.NV)

/-- R164, R166 and R167: choices, compares and classes; `fmin` and `fmax` give one operand as it is read, the other one of a NaN,
the first of two NaNs, quieted; a quiet NaN compares unordered and raises nothing, a signalling one raises NV. -/
def Obligations.FloatChoiceAndCompare : Prop :=
  PickForms .fmin .fminI (fnPick true) ∧ PickForms .fmax .fmaxI (fnPick false) ∧
  (∀ (lower : Bool) (ty : Nat) (ftz : Bool) (r : Rnd) (a b : Nat), isFloat ty = true → a < 2 ^ elemWidth ty → b < 2 ^ elemWidth ty →
    let x := readFloat ty ftz a
    let y := readFloat ty ftz b
    let z := fnPick lower ty r x y
    z.2 = ⟨(x.isSig || y.isSig).toNat, 0, 0, 0, 0, 0⟩ ∧
    (x.isNan = true → y.isNan = true → z.1 = quieted ty a) ∧
    (x.isNan = true → y.isNan = false → z.1 = flushed ty ftz b) ∧
    (x.isNan = false → y.isNan = true → z.1 = flushed ty ftz a) ∧
    (x.isNan = false → y.isNan = false →
      (RanksBelow x y → z.1 = if lower then flushed ty ftz a else flushed ty ftz b) ∧
      (RanksBelow y x → z.1 = if lower then flushed ty ftz b else flushed ty ftz a) ∧
      (¬ RanksBelow x y → ¬ RanksBelow y x → z.1 = flushed ty ftz a ∧ z.1 = flushed ty ftz b))) ∧
  (∃ eq ne lt le gt ge un ord : FVal → FVal → Bool,
    compareBy eq .fcmpEq ∧ compareBy ne .fcmpNe ∧ compareBy lt .fcmpLt ∧ compareBy le .fcmpLe ∧ compareBy gt .fcmpGt ∧
    compareBy ge .fcmpGe ∧ compareBy un .fcmpUn ∧ compareBy ord .fcmpOrd ∧
    ∀ x y, if x.isNan = true ∨ y.isNan = true
      then eq x y = false ∧ ne x y = true ∧ lt x y = false ∧ le x y = false ∧ gt x y = false ∧ ge x y = false ∧
        un x y = true ∧ ord x y = false
      else un x y = false ∧ ord x y = true ∧ (lt x y = true ↔ lessThan x y) ∧ (gt x y = true ↔ lessThan y x) ∧
        (le x y = true ↔ ¬ lessThan y x) ∧ (ge x y = true ↔ ¬ lessThan x y) ∧
        (eq x y = true ↔ ¬ lessThan x y ∧ ¬ lessThan y x) ∧ (ne x y = true ↔ lessThan x y ∨ lessThan y x)) ∧
  (∀ d a s v, Passes s v
      { reads := laneRegs (typeWide v.type) a.toNat, writes := [.v d.toNat],
        ok := pairOk (typeWide v.type) a.toNat && isFloat v.type } →
    GoesOn (.fclass d a) s v fun w => LaneWrite v w false d.toNat (fun n x => ∃ k, k < 10 ∧ x = 2 ^ k ∧
      match readFloat v.type false (v.elem v.type a.toNat n) with
      | .nan _ sig _ => k = if sig then 0 else 1
      | .inf neg => k = if neg then 2 else 9
      | .num neg m _ => if m = 0 then k = (if neg then 5 else 6)
        else if bitsOf (v.elem v.type a.toNat n) (fmtOf v.type).m (fmtOf v.type).e = 0 then k = (if neg then 4 else 7)
        else k = if neg then 3 else 8) ∧ Quiet v w)

/-- R145, R146, R150, R155, R169 to R172, R174, R175: conversion, block quantisation and the butterfly: their lanes, flags and
draws, and the values that they write. Some clauses rest on readings and choices of the model (notes/assumptions/13, 38). -/
def Obligations.FloatConversions : Prop :=
  (∀ d a src s v, Passes s v
      { reads := laneRegs (typeWide src.toNat) a.toNat, writes := laneRegs (typeWide v.type) d.toNat,
        ok := pairOk (typeWide src.toNat) a.toNat && pairOk (typeWide v.type) d.toNat && decide (src.toNat < 14) } →
    GoesOn (.fcvt d a src) s v
      (FloatWrite v d fun n => convert src.toNat v.type (v.rnd n 0) (v.elem src.toNat a.toNat n))) ∧
  (∀ d a b s v, Passes s v
      { reads := .s b.toNat :: tileRegs a.toNat, writes := packedList v.type d.toNat, long := true,
        ok := packType v.type && d.toNat % packedRegs v.type == 0 && decide (a.toNat < 16) &&
          (v.w.tag a.toNat).fmt == 8 } →
    let haar := (v.w.tag a.toNat).level ≠ 0
    let f := fun n => quantise v n (v.bandScale (modeFtz v.f.mode) b) ((List.range 8).map fun j =>
      if haar then (v.w.reconstruct a.toNat).1 n j else ((v.w.vreg (8 * a.toNat + j)).get n).toNat)
    GoesOnDrawing (.qcvt d a b) s v (packedList v.type d.toNat) fun ws e =>
      (∃ l, ws = (if haar then l ++ [.haarcnt] else l) ∧
        LaterBits v d.toNat (packedRegs v.type) (fun n j => (f n).1 / 2 ^ (32 * j)) l) ∧
      e = if haar then (sumOnce v fun n => (f n).2).add (v.w.reconstruct a.toNat).2 else sumOnce v fun n => (f n).2) ∧
  (∀ d a b s v, Passes s v
      { reads := .s b.toNat :: packedList v.type a.toNat, writes := tileRegs d.toNat, long := true,
        ok := packType v.type && a.toNat % packedRegs v.type == 0 && decide (d.toNat < 16) } →
    let f := fun n j => dequantise v n j ((v.packed a.toNat n).1.getD j 0) (v.packed a.toNat n).2
      (v.bandScale (modeFtz v.f.mode) b)
    GoesOnDrawing (.dqcvt d a b) s v (tileRegs d.toNat) fun ws e =>
      (∃ l, ws = l ++ [.tag d.toNat ⟨8, 0, 0⟩] ∧ LaterBits v (8 * d.toNat) 8 (fun n j => (f n j).1) l) ∧
        e = sumOnce v fun n => ((List.range 8).map fun j => (f n j).2).foldl Exc.add Exc.none) ∧
  (∀ d a b s v, Passes s v { reads := [.v a.toNat, .s b.toNat], writes := [.v d.toNat] } →
    let f := fun n => blockScale [readFloat 8 false ((v.w.vreg a.toNat).get n).toNat] (v.bandScale false b)
    GoesOn (.bscale d a b) s v fun w => LaneWrite v w false d.toNat (fun n x => x = (f n).1 % 2 ^ 32) ∧
      Raises v w (sumOnce v fun n => (f n).2)) ∧
  (∀ d a s v, Passes s v { reads := [.v a.toNat], writes := [.v d.toNat] } →
    let r := hadamard v.act ((List.range 32).map fun n => if v.act.getLsbD n then ((v.w.vreg a.toNat).get n).toNat else 0)
    GoesOn (.had32 d a) s v fun w => LaneWrite v w false d.toNat (fun n x => x = r.1.getD n 0 % 2 ^ 32) ∧ Raises v w r.2) ∧
  (∀ src dst r bits, src < 14 → dst < 14 → bits < 2 ^ elemWidth src → ConvertsTo src dst r bits (convert src dst r bits)) ∧
  (∀ v n sn (xs : List Nat), xs.length = 8 → Quantises v n sn xs (quantise v n sn xs)) ∧
  (∀ v n j code sb sn, Dequantises v (v.rnd n j) code sb sn (dequantise v n j code sb sn)) ∧
  (∀ (l : List FVal) (sn : FVal), (∀ s n d, FVal.num s n d ∈ l → 0 < d) → (∀ s n d, sn = .num s n d → 0 < d) →
    ScaleOf l sn (blockScale l sn)) ∧
  (∀ r sb sn x, CodeOf r sb sn x (blockCode r sb sn x)) ∧ ∀ (m : LaneMask) (l : List Nat), Butterfly l (hadamard m l).1

/-- R176 to R178: the generator, packing, and reading and clearing of flags. Some clauses rest on readings and choices of the
model (notes/assumptions/15). -/
def Obligations.GeneratorPackingFlags : Prop :=
  (∀ a s v, Passes s v { reads := [.s a.toNat] } → GoesOn (.rngseed a) s v fun w =>
    w.rseed = (v.w.sreg a.toNat).extractLsb' 0 32 ∧ w = { v.w with rseed := w.rseed, rdraw := w.rdraw } ∧
    ∀ n, n < 32 → w.rdraw.get n = if (v.w.unexited 0xFF).getLsbD n then 0 else v.w.rdraw.get n) ∧
  (∀ d s v, Passes s v { writes := [.v d.toNat] } → GoesOn (.rng d) s v fun w =>
    LaneWrite v w false d.toNat
      (fun n x => x = (gen v.w.rseed (BitVec.ofNat 32 n) 0 (v.w.rdraw.get n)).toNat) ∧
    w.flags = v.w.flags ∧ w.xc = v.w.xc ∧ w.status = v.w.status ∧
    ∀ n, n < 32 → w.rdraw.get n = if v.act.getLsbD n then v.w.rdraw.get n + 1 else v.w.rdraw.get n) ∧
  (∀ d a k s v, Passes s v
      { reads := [.v a.toNat, .v d.toNat], writes := [.v d.toNat],
        ok := moveType v.type && decide (k.toNat * elemWidth v.type < 32) } →
    let w' := elemWidth v.type
    GoesOn (.pack d a k) s v fun w => LaneWrite v w false d.toNat (fun n x => ∀ i, x.testBit i =
      if w' * k.toNat ≤ i ∧ i < w' * k.toNat + w' then ((v.w.vreg a.toNat).get n).toNat.testBit (i - w' * k.toNat)
      else ((v.w.vreg d.toNat).get n).toNat.testBit i) ∧ Quiet v w) ∧
  (∀ d a k s v, Passes s v
      { reads := [.v a.toNat], writes := [.v d.toNat],
        ok := moveType v.type && decide (k.toNat * elemWidth v.type < 32) } →
    GoesOn (.unpack d a k) s v fun w => LaneWrite v w false d.toNat (fun n x =>
      let e := bitsOf ((v.w.vreg a.toNat).get n).toNat (elemWidth v.type * k.toNat) (elemWidth v.type)
      if v.type = 3 ∨ v.type = 5 then HoldsInt false x (valueOf (elemWidth v.type) true e) else x = e) ∧ Quiet v w) ∧
  (∀ d n s v, s.raisersLeft v.key = false → Passes s v { writes := [.s d.toNat], ok := decide (n.toNat < 7) } →
    GoesOn (.rdflg d n) s v fun w => UniWrite v w d.toNat (fun x => x.toNat =
      ([v.w.xc.nv, v.w.xc.dz, v.w.xc.ov, v.w.xc.uf, v.w.xc.nx, v.w.xc.sa, v.w.flags.toNat].getD n.toNat 0) % 2 ^ 64) ∧
      Quiet v w) ∧
  (∀ m s v, s.raisersLeft v.key = false → Passes s v { ok := decide (m.toNat < 64) } → GoesOn (.clrflg m) s v fun w =>
    (∀ n, w.flags.getLsbD n = (v.w.flags.getLsbD n && !m.getLsbD n)) ∧
    w.xc = ⟨if m.getLsbD 0 then 0 else v.w.xc.nv, if m.getLsbD 1 then 0 else v.w.xc.dz, if m.getLsbD 2 then 0 else v.w.xc.ov,
      if m.getLsbD 3 then 0 else v.w.xc.uf, if m.getLsbD 4 then 0 else v.w.xc.nx, if m.getLsbD 5 then 0 else v.w.xc.sa⟩ ∧
    w = { v.w with flags := w.flags, xc := w.xc })

/-- R127 to R131 with R31: shuffles, votes, ballots and matches over the named lanes that are present. -/
def Obligations.CrossLaneWords : Prop :=
  ShuffleForms .shflIdx .shflIdxI (fun _ k => some k) ∧
  ShuffleForms .shflUp .shflUpI (fun i k => if k ≤ i then some (i - k) else none) ∧
  ShuffleForms .shflDown .shflDownI (fun i k => if i + k < 32 then some (i + k) else none) ∧
  ShuffleForms .shflXor .shflXorI (fun i k => some (i ^^^ k)) ∧
  (∀ p ∈ ([(Instr.voteAny, fun _ yes => yes != 0), (.voteAll, fun named yes => yes == named),
      (.voteUni, fun named yes => yes == named || yes == 0)] :
      List ((BitVec 7 → BitVec 7 → BitVec 7 → Instr) × (LaneMask → LaneMask → Bool))),
    ∀ d a m s v, Passes s v { reads := [.s m.toNat, .p a.toNat], writes := [.p d.toNat] } →
      GoesOnNaming (p.1 d a m) s v (v.members m) (missing v m) fun w =>
        PredWrite v w d.toNat v.act (fun _ => p.2 (v.members m) (v.members m &&& v.act &&& v.w.pred a.toNat)) ∧
        Unraised v w) ∧
  (∀ d a m s v, Passes s v { reads := [.s m.toNat, .p a.toNat], writes := [.v d.toNat] } →
    GoesOnNaming (.ballot d a m) s v (v.members m) (missing v m) fun w =>
      LaneWrite v w false d.toNat (fun _ x => x = (v.members m &&& v.act &&& v.w.pred a.toNat).toNat) ∧ Unraised v w) ∧
  (∀ d a m s v, Passes s v
      { reads := .s m.toNat :: laneRegs (typeWide v.type) a.toNat, writes := [.v d.toNat],
        ok := pairOk (typeWide v.type) a.toNat } →
    GoesOnNaming (.matchLanes d a m) s v (v.members m) (missing v m) fun w =>
      LaneWrite v w false d.toNat (fun n x => ∀ j, j < 32 → x.testBit j = ((v.members m &&& v.act).getLsbD j &&
        (v.w.laneBits (typeWide v.type) a.toNat j == v.w.laneBits (typeWide v.type) a.toNat n))) ∧ Unraised v w)

/-- R132 and R133: reductions by the fixed tree and scans in ascending order of lanes, their leaves and the combination of two of
them. Some clauses rest on readings and choices
of the model (notes/assumptions/14). -/
def Obligations.ReductionsAndScans : Prop :=
  CombineForm false 0 .redAdd ∧ CombineForm false 1 .redMin ∧ CombineForm false 2 .redMax ∧ CombineForm false 3 .redAnd ∧
  CombineForm false 4 .redOr ∧ CombineForm false 5 .redXor ∧ CombineForm true 0 .scanAdd ∧ CombineForm true 1 .scanMin ∧
  CombineForm true 2 .scanMax ∧ CombineForm true 3 .scanAnd ∧ CombineForm true 4 .scanOr ∧ CombineForm true 5 .scanXor ∧
  (∀ (v : View) (op : Nat) (m : LaneMask) (a n : Nat), combineOk v.type op = true → n < 32 →
    ∃ z, (v.leaves op m a)[n]? = some z ∧ LeafOf v op m (v.elem v.type a n) n z) ∧
  (∀ (v : View) (op node x y : Nat), combineOk v.type op = true → op < 6 → Combines v op node x y (v.combine op node x y)) ∧
  (∀ (f : Combine) (l : List (Option Nat)), l.length = 32 → TreeOf f l (tree32 f l).1 (tree32 f l).2) ∧
  ∀ (f : Combine) (l : List (Option Nat)), FoldOf f l (scanFold f none 0 l).1 (scanFold f none 0 l).2

/-- R18 to R20, R98 and R99: the structured words on every slice of the fragment; a full stack and a wrong top entry are faults
before any effect. Some clauses rest on readings and choices of the model (notes/assumptions/21). -/
def Obligations.StructuredWords : Prop :=
  (∀ p n o s v, Passes s v { reads := [.p p.toNat] } → (someStackFull v → Raised (.ifThen p n o) s v causeStackOverflow) ∧
    (¬ someStackFull v → SlicesGoOn (.ifThen p n o) s v none false true fun k x =>
      { x with
        stack := ⟨.ifEntry, x.cm, (x.cm &&& ~~~ x.xm &&& condition v p n k).setWidth 8, (wordTarget v o).setWidth 32, 0⟩ :: x.stack
        cm := x.cm &&& condition v p n k })) ∧
  (∀ o s v, Passes s v {} → (allTopsAre v .ifEntry → SlicesGoOn (.elseThen o) s v none false true fun _ x =>
      match x.stack with
      | e :: es => { x with
          cm := e.mask &&& ~~~ (e.aux.setWidth 4) &&& ~~~ x.xm, stack := { e with target := (wordTarget v o).setWidth 32 } :: es }
      | [] => x) ∧
    (¬ allTopsAre v .ifEntry → Raised (.elseThen o) s v causeStackMismatch)) ∧
  (∀ s v, Passes s v {} → (allTopsAre v .ifEntry → SlicesGoOn .endif s v none false true fun _ x =>
      match x.stack with
      | e :: _ => { x.pop with cm := e.mask &&& ~~~ x.xm }
      | [] => x) ∧
    (¬ allTopsAre v .ifEntry → Raised .endif s v causeStackMismatch)) ∧
  (∀ o s v, Passes s v {} → (someStackFull v → Raised (.loop o) s v causeStackOverflow) ∧
    (¬ someStackFull v → SlicesGoOn (.loop o) s v none false false fun _ x =>
      { x with stack := ⟨.loopEntry, x.cm, 0, (wordTarget v o).setWidth 32, 0⟩ :: x.stack })) ∧
  (∀ o s v, Passes s v {} →
    let live := fun (x : Slice) => match x.stack with
      | e :: _ => e.mask &&& ~~~ (e.aux.setWidth 4) &&& ~~~ x.xm
      | [] => 0
    (¬ allTopsAre v .loopEntry → Raised (.endloop o) s v causeStackMismatch) ∧
    (allTopsAre v .loopEntry → (∃ k, k < 8 ∧ v.f.mask.getLsbD k = true ∧ live (v.w.slice k) ≠ 0) →
      SlicesGoOn (.endloop o) s v (some (wordTarget v o)) false false fun _ x => { x with cm := live x }) ∧
    (allTopsAre v .loopEntry → ¬ (∃ k, k < 8 ∧ v.f.mask.getLsbD k = true ∧ live (v.w.slice k) ≠ 0) →
      SlicesGoOn (.endloop o) s v none false true fun _ x =>
        match x.stack with
        | e :: _ => { x.pop with cm := e.mask &&& ~~~ x.xm }
        | [] => x)) ∧
  (∀ p ∈ [(Instr.brk, true), (.cont, false)], ∀ s v, Passes s v {} →
    let inLoop := ∀ k, k < 8 → v.f.mask.getLsbD k = true → ∃ e ∈ (v.w.slice k).stack, e.kind = EntryKind.loopEntry
    (¬ inLoop → Raised p.1 s v causeStackMismatch) ∧
    (inLoop → SlicesGoOn p.1 s v none false true fun k x =>
      let b := activeIn v k
      { x with
        stack := ((splitLoop x.stack).1.map fun e => { e with mask := e.mask &&& ~~~ b, aux := e.aux &&& ~~~ (b.setWidth 8) }) ++
          match (splitLoop x.stack).2 with
          | e :: es => (if p.2 then { e with aux := e.aux ||| b.setWidth 8 } else e) :: es
          | [] => []
        cm := x.cm &&& ~~~ b }))

/-- R18, R58 and R108: `exit` ends the active lanes in every entry and ends the region; with no active lane it does nothing.
R20, R21, R26, R101 and R107: counted loops and marks. That `exit` ends the region whenever a lane is active, and the upper half of
an address that an entry names, are readings and choices of the model (notes/assumptions/12, 41). -/
def Obligations.ExitRepeatMark : Prop :=
  (∀ s v, Passes s v {} → if v.act = 0 then exec .exit s = .next (s.after s v false none false true)
    else exec .exit s = .next (s.after ((s.setWarp v.key (v.w.mapSlices v.f.mask fun k x =>
        let b := activeIn v k
        { x with
          xm := x.xm ||| b, cm := x.cm &&& ~~~ b, stack := x.stack.map fun e => { e with mask := e.mask &&& ~~~ b } })).mapFrag
        v.key v.no fun f => { f with region := none }) v false none false true)) ∧
  (∀ o s v, Passes s v {} → (someStackFull v → Raised (.mark o) s v causeStackOverflow) ∧
    (¬ someStackFull v → SlicesGoOn (.mark o) s v none false false fun _ x =>
      { x with stack := ⟨.markEntry, x.cm, v.f.mask, (wordTarget v o).setWidth 32, 0⟩ :: x.stack })) ∧
  (∀ (i : Instr) (s : State) (v : View) (l : BitVec 7) (count : Nat), (∃ c, i = .rptImm c l ∧ count = c.toNat ∧ Passes s v { ok := l != 0 }) ∨
      (∃ k, i = .rptReg k l ∧ count = (v.w.sreg k.toNat).toNat % 2 ^ 32 ∧
        Passes s v { reads := [.s k.toNat], ok := l != 0 }) →
    let last := v.addr + BitVec.ofNat 64 (4 * l.toNat)
    let headerAt := fun (a : Addr) => (s.fetch v.crew.ctx v.crew.core a).map fun w => majorOf w == 0x7F
    (headerAt last = some true ∨ headerAt (last + 4) = some false → Raised i s v causeBadTarget) ∧
    (headerAt last ≠ some true → headerAt (last + 4) ≠ some false →
      (count = 0 → MovesOn i s v (some (last + 4)) false) ∧
      (count ≠ 0 → someStackFull v → Raised i s v causeStackOverflow) ∧
      (count ≠ 0 → ¬ someStackFull v →
        (∃ k, k < 8 ∧ v.f.mask.getLsbD k = true ∧ 4 ≤ (v.w.slice k).loopEnds.length) → Raised i s v causeLoopOverflow) ∧
      (count ≠ 0 → ¬ someStackFull v →
        ¬ (∃ k, k < 8 ∧ v.f.mask.getLsbD k = true ∧ 4 ≤ (v.w.slice k).loopEnds.length) →
        SlicesGoOn i s v none false false fun _ x =>
          { x with
            stack := ⟨.rptEntry, x.cm, 0, v.c.after.setWidth 32, BitVec.ofNat 32 count⟩ :: x.stack, loopEnds := last :: x.loopEnds })))

/-- R24, R103, R104 and R106: branches by a condition that the lanes share, calls and returns. Some clauses rest on readings of the
model (notes/assumptions/12), and that the header gives the upper half of a TARGET is its choice (notes/assumptions/41). -/
def Obligations.BranchesAndCalls : Prop :=
  let lanesWhere := fun (v : View) (p : BitVec 3) (n : BitVec 1) =>
    if n = 1 then ~~~ v.w.pred p.toNat else v.w.pred p.toNat
  (∀ o s v, Passes s v {} → MovesOn (.bra 0 0 0 o) s v (some (wordTarget v o)) true) ∧
  (∀ p n o s v, Passes s v { reads := [.p p.toNat] } →
    (v.act &&& lanesWhere v p n = 0 → MovesOn (.bra p n 1 o) s v none false) ∧
    (v.act ≠ 0 → v.act &&& lanesWhere v p n = v.act → MovesOn (.bra p n 1 o) s v (some (wordTarget v o)) true) ∧
    (v.act &&& lanesWhere v p n ≠ 0 → v.act &&& lanesWhere v p n ≠ v.act → Raised (.bra p n 1 o) s v causeDivergence)) ∧
  (∀ p n o s v, Passes s v { reads := [.p p.toNat] } →
    let some' := fun k => activeIn v k &&& condition v p n k
    ((∀ k, k < 8 → v.f.mask.getLsbD k = true → some' k = 0) → MovesOn (.brs p n o) s v none false) ∧
    (v.f.mask ≠ 0 → (∀ k, k < 8 → v.f.mask.getLsbD k = true → some' k ≠ 0 ∧ some' k = activeIn v k) →
      MovesOn (.brs p n o) s v (some (wordTarget v o)) true) ∧
    ((∃ k, k < 8 ∧ v.f.mask.getLsbD k = true ∧ some' k ≠ 0 ∧ some' k ≠ activeIn v k) →
      Raised (.brs p n o) s v causeDivergence) ∧
    ∀ take : SliceMask, take ≠ 0 → take ≠ v.f.mask → take &&& v.f.mask = take →
      (∀ k, k < 8 → v.f.mask.getLsbD k = true → (some' k = if take.getLsbD k then activeIn v k else 0) ∧
        (take.getLsbD k = true → some' k ≠ 0)) →
      (∀ k, (v.w.slice k).endsLoop v.addr = false) → s.badTarget v (wordTarget v o) = false →
      ∃ t w, exec (.brs p n o) s = .next t ∧ t.cur = none ∧ Tab.lookup v.key t.warps = some w ∧
        (∃ f ∈ w.frags, f.mask = take ∧ f.pc = wordTarget v o ∧ f.mode = v.f.mode ∧ f.clause = none ∧ f.region = none) ∧
        (∃ f ∈ w.frags, f.mask = v.f.mask &&& ~~~ take ∧ f.pc = v.c.after ∧ f.mode = v.f.mode ∧ f.clause = none ∧
          f.region = none)) ∧
  (∀ o s v, Passes s v {} → (someStackFull v → Raised (.call o) s v causeStackOverflow) ∧
    (¬ someStackFull v → SlicesGoOn (.call o) s v (some (wordTarget v o)) false false fun _ x =>
      { x with stack := ⟨.callEntry, x.cm, 0, v.c.after.setWidth 32, 0⟩ :: x.stack })) ∧
  (∀ (p : BitVec 3) (n c : BitVec 1) (s : State) (v : View), Passes s v { reads := if c == 1 then [.p p.toNat] else [], ok := c == 1 || (p == 0 && n == 0) } →
    let here := v.w.current v.f.mask
    (¬ allTopsAre v .callEntry → Raised (.ret p n c) s v causeStackMismatch) ∧
    (allTopsAre v .callEntry → c = 0 ∨ (here ≠ 0 ∧ here &&& lanesWhere v p n = here) →
      SlicesGoOn (.ret p n c) s v (some v.topTarget) false true fun _ x => x.pop) ∧
    (allTopsAre v .callEntry → c = 1 → here &&& lanesWhere v p n = 0 → MovesOn (.ret p n c) s v none false) ∧
    (allTopsAre v .callEntry → c = 1 → here &&& lanesWhere v p n ≠ 0 → here &&& lanesWhere v p n ≠ here →
      Raised (.ret p n c) s v causeDivergence))

/-- R109, and the course of every word (R19, R22, R47, R58, R82, R83): after a word that leaves its fragment in its clause comes the
next word; after the last one, and after a taken branch, the clause ends: the region ends with an entry that was present at its
opening, a branch that ends a counted body pops its entry, an examination redirects the fragment or ends it, and a target that is
no header raises bad-target before the word has any effect. That a redirect to the very next address is judged at the next clause's
start, and that the header gives the upper half of a TARGET, are choices of the model (notes/assumptions/41, 42). -/
def Obligations.WordsAndClauseEnds : Prop :=
  (∀ (s : State) (v : View), Passes s v {} → MovesOn .nop s v none false ∧
    exec .yield s = .next (s.after (s.mapFrag v.key v.no fun f => { f with passed := true }) v false none false false)) ∧
  ∀ (s : State) (v : View) (t : State) (w : Warp) (f : Frag) (long branch examine : Bool) (goto : Option Addr),
    HasFrag t v.key v.no w f → t.cur = some (v.key, v.no) →
    (v.c.pos + 1 < v.c.words.length → goto = none →
      (¬ (examine = true ∧ AllFinished w f.mask) → s.after t v long goto branch examine = t.setWarp v.key { w with
        frags := w.frags.map fun g => if fragNo g.mask == v.no then nextWord v w g long else g }) ∧
      (examine = true → AllFinished w f.mask → s.after t v long goto branch examine = fragmentEnds t v w)) ∧
    (v.c.words.length ≤ v.c.pos + 1 ∨ goto ≠ none →
      ((∀ k, (w.slice k).endsLoop v.addr = false) → ClauseEnds s t v f w long goto branch examine examine) ∧
      (branch = true → (∃ k, LowestLeft w f.mask k ∧ (w.slice k).endsLoop v.addr = true) →
        ClauseEnds s t v f (w.mapSlices f.mask fun _ y => y.pop) long goto branch examine true))

/-- R22 and R102: after the last word of a counted loop's body, the count goes down in every slice and the fragment goes back to
the body's first clause; with the last count the entry is popped and the fragment goes on. Some clauses rest on readings of the
model (notes/assumptions/12), and that the header gives the upper half of the TARGET is its choice (notes/assumptions/41). -/
def Obligations.CountedLoopGoesRound : Prop :=
  ∀ (s : State) (v : View) (k : Nat) (e : StackEntry) (es : List StackEntry), Passes s v {} →
    v.c.words.length ≤ v.c.pos + 1 → v.f.region = none →
    (sliceList v.f.mask).find? (fun k => !(v.w.slice k).finished) = some k → (v.w.slice k).stack = e :: es →
    (v.w.slice k).endsLoop v.addr = true →
    let goes := fun (w : Warp) (pc : Addr) => exec .nop s = .next (clauseEnded s v (w.putFrag v.no v.f) v.f pc)
    (1 < e.count.toNat → s.badTarget v (codeNear v.c.header e.target) = false →
      goes (v.w.mapSlices v.f.mask fun _ y => y.countDown) (codeNear v.c.header e.target)) ∧
    (let w := v.w.mapSlices v.f.mask (fun _ y => y.pop);
      e.count.toNat ≤ 1 → (w.slice k).endsLoop v.addr = false →
      (∃ j, j < 8 ∧ v.f.mask.getLsbD j = true ∧ (w.slice j).cm &&& ~~~ (w.slice j).xm ≠ 0) → goes w v.c.after)

/-- R73, R74, R80, R110 and R111: MODE and long immediates; a value with an unassigned field is illegal. -/
def Obligations.ModeAndLongImmediates : Prop :=
  (∀ m s v, Passes s v { ok := modeOk m } → exec (.setm m) s = .next (s.after
    (s.mapFrag v.key v.no fun f => { f with mode := m.setWidth 32 }) v false none false false)) ∧
  (∀ a s v, Passes s v { reads := [.s a.toNat] } →
    let x := v.w.sreg a.toNat
    (x.toNat < 2 ^ 16 → modeOk (x.setWidth 16) = true → exec (.setmReg a) s = .next (s.after
      (s.mapFrag v.key v.no fun f => { f with mode := x.setWidth 32 }) v false none false false)) ∧
    (¬ (x.toNat < 2 ^ 16 ∧ modeOk (x.setWidth 16) = true) → RaisedIllegal (.setmReg a) s v)) ∧
  (∀ l s v, Passes s v {} →
    let next := v.c.words.getD (v.c.pos + 1) 0
    let carries := fun (i : Instr) (x : Word) => exec i s = .next (s.mapFrag v.key v.no fun f =>
      { f with clause := some { v.c with pos := v.c.pos + 1, long := some x } })
    (isLimh next = true → takesLong (v.c.words.getD (v.c.pos + 2) 0) = true →
      carries (.lim l) (next.extractLsb' 0 7 ++ l)) ∧
    (isLimh next = false → takesLong next = true → carries (.lim l) (l.signExtend 32)) ∧
    (isLimh next = true → takesLong (v.c.words.getD (v.c.pos + 2) 0) = false → RaisedIllegal (.lim l) s v) ∧
    (isLimh next = false → takesLong next = false → RaisedIllegal (.lim l) s v) ∧
    (∀ h x, v.c.long = some x → v.c.pos ≠ 0 → majorOf (v.c.words.getD (v.c.pos - 1) 0) = 5 → carries (.limh h) x) ∧
    (∀ h, v.c.long = none → RaisedIllegal (.limh h) s v))

/-- R77, R78, R112 and R113: reading and writing special registers; a reserved bit or a read-only register is illegal. -/
def Obligations.SpecialRegisters : Prop :=
  (∀ d a s v, readable a = true → Passes s v
      { reads := [.sr a.toNat], writes := laneRegs (srWide a.toNat) d.toNat, ok := pairOk (srWide a.toNat) d.toNat } →
    GoesOn (.rdsr d a) s v fun w => LaneWrite v w (srWide a.toNat) d.toNat (fun n x => x = special s v a.toNat n) ∧ Quiet v w) ∧
  (∀ d a s v, readable a = true → Passes s v { reads := [.sr a.toNat], writes := [.s d.toNat] } →
    GoesOn (.rdsrS d a) s v fun w => UniWrite v w d.toNat (fun x =>
      (perLane a.toNat = true → v.act = 0 → x = 0) ∧
      (perLane a.toNat = true → ∀ n, n < 32 → v.act.getLsbD n = true → (∀ k, k < n → v.act.getLsbD k = false) →
        x.toNat = special s v a.toNat n) ∧
      (perLane a.toNat = false → x.toNat = special s v a.toNat 0)) ∧ Quiet v w) ∧
  (∀ a b s v, Passes s v { reads := [.s b.toNat] } →
    let x := v.w.sreg b.toNat
    let y := x.extractLsb' 0 32
    let puts := fun (w : Warp) => GoesOn (.wrsr a b) s v fun u => u = w
    let illegal := RaisedIllegal (.wrsr a b) s v
    (a.toNat = 0x06 → (y.toNat < 2 → puts { v.w with status := y }) ∧ (¬ y.toNat < 2 → illegal)) ∧
    (a.toNat = 0x07 → (y.toNat < 64 → puts { v.w with flags := y }) ∧ (¬ y.toNat < 64 → illegal)) ∧
    (a.toNat = 0x0C → (x.toNat < 2 ^ 57 ∧ x.toNat % 4 = 0 → puts { v.w with tvec := x }) ∧
      (¬ (x.toNat < 2 ^ 57 ∧ x.toNat % 4 = 0) → illegal)) ∧
    (∀ j, j < 4 → a.toNat = 0x10 + j → puts { v.w with wt := v.w.wt.set j y }) ∧
    (writable a = false → illegal)) ∧
  (∀ a s v, Passes s v { reads := [.s a.toNat] } →
    GoesOn (.settmr a) s v (fun w => w = { v.w with tmrthr := v.w.sreg a.toNat }) ∧
    GoesOn (.settmrRel a) s v (fun w => w = { v.w with tmrthr := w.tmrthr } ∧
      w.tmrthr.toNat = min (v.w.wtimer.toNat + (v.w.sreg a.toNat).toNat) (2 ^ 64 - 1)))

/-- R52, R364, R365 and R369: a trap is raised by `trap`, `bkpt` and the timer, taken at a clause boundary into the trap slots
of the fragment's slices, and left by `rtt`. Some clauses rest on readings and choices of the model (notes/assumptions/11); that a
TVEC whose word is no header raises bad-target before the slots fill, and the fields of a double-trap record, are its choices
(notes/assumptions/43). -/
def Obligations.TrapsAreTakenAndLeft : Prop :=
  (∀ n s v, Passes s v {} → RaisesTrap (.trap n) s v 0x22 (n.setWidth 32)) ∧
  (∀ s v c, Passes s v {} → Tab.lookup v.crew.ctx s.ctxs = some c →
    (c.debug = true → RaisesTrap .bkpt s v 0x23 0) ∧ (c.debug = false → MovesOn .bkpt s v none false)) ∧
  (∀ s k n w f, HasFrag s k n w f → f.atBoundary = true → w.tmrthr ≠ 0 → w.tmrthr.toNat ≤ w.wtimer.toNat →
    let stands := fun (m : Nat) => ∃ g ∈ w.frags, g.atBoundary = true ∧ fragNo g.mask = m
    let falls := w.timerFor = some n ∨ ((∀ m, w.timerFor = some m → ¬ stands m) ∧ ∀ m, stands m → n ≤ m)
    (falls → exec (.timerTrap k n) s = .next (s.setWarp k { (w.putFrag n
      (if f.raised.any fun y => y.cause == 0x21 then f
        else { f with raised := f.raised ++ [⟨0x21, w.wtimer.extractLsb' 0 32, w.active f, w.inTrap f.mask⟩] })) with
        tmrthr := 0, timerFor := none })) ∧
    (¬ falls → exec (.timerTrap k n) s = .next s)) ∧
  (∀ (w : Warp) (n : Nat), (w.tmrthr = 0 ∨ w.wtimer.toNat < w.tmrthr.toNat → w.reachBoundary n = w) ∧
    (w.tmrthr ≠ 0 → w.tmrthr.toNat ≤ w.wtimer.toNat → (∀ g ∈ w.frags, g.atBoundary = false) →
      w.reachBoundary n = { w with timerFor := some n })) ∧
  (∀ s k n w0 f0, HasFrag s k n w0 f0 → f0.atBoundary = true →
    let w := (w0.raiseTimer f0).1
    let f := (w0.raiseTimer f0).2
    let bad := s.badHeader (s.ctxOfCrew w.crew) (((Tab.lookup w.crew s.crews).map (·.core)).getD 0) w.tvec
    ((w.inTrap f.mask = true ∧ f.raised ≠ []) ∨ (∃ y ∈ f.raised, y.inTrap = true) →
      exec (.trapEntry k n) s = .next (s.doubleTrap w f 0 f.pc f.region.isNone)) ∧
    ∀ x rest, w.inTrap f.mask = false → (∀ y ∈ f.raised, y.inTrap = false) →
      f.raised.foldl (fun l x => insertWaiting x l) f.waiting = x :: rest →
      let value := if x.cause = 0x21 then w.wtimer.extractLsb' 0 32 else x.value
      (w.tvec ≠ 0 → bad = false → exec (.trapEntry k n) s = .next (s.setWarp k ((w.mapSlices f.mask fun _ y =>
          { y with trap := some ⟨f.pc, y.cm, x.cause, value⟩ }).putFrag n
        { f with raised := [], waiting := rest, pc := w.tvec, state := .trapped }))) ∧
      (w.tvec ≠ 0 → bad = true → exec (.trapEntry k n) s = .next ((s.setWarp k (w.putFrag n f)).takeFault k n
        { cause := causeBadTarget, lanes := w.active f } 0 f.pc .boundary)) ∧
      (w.tvec = 0 → exec (.trapEntry k n) s = .next ((s.setWarp k (w.putFrag n { f with raised := [], waiting := rest })).takeFault
        k n { cause := x.cause, lanes := x.lanes, info := value } 0 f.pc .boundary))) ∧
  (∀ s v, Passes s v {} →
    ((∀ k, k < 8 → v.f.mask.getLsbD k = true → (v.w.slice k).trap ≠ none) →
      exec .rtt s = .next (((s.setWarp v.key (v.w.mapSlices v.f.mask fun _ y => match y.trap with
          | some t => { y with cm := t.cm, trap := none }
          | none => y)).endClause v.key v.no (((v.w.slice (fragNo v.f.mask)).trap.map (·.pc)).getD v.f.pc)).release v.key
        v.no)) ∧
    ((∃ k, k < 8 ∧ v.f.mask.getLsbD k = true ∧ (v.w.slice k).trap = none) → Raised .rtt s v causeStackMismatch))

/-- R47 and R81 to R85: a header starts its clause; while a flag that it waits for is set, its fragment waits; in the middle of
a clause a header is illegal. Some clauses rest on readings and choices of the model (notes/assumptions/7, 15); that a header waits for its
flags before its SETA and SETB are judged is its choice (notes/assumptions/42). -/
def Obligations.ClauseHeadersStartClauses : Prop :=
  (∀ w a b l e y s k n wp f words, s.cur = some (k, n) → f.clause = none →
    Opens s k n wp f ⟨w, a.toNat, b.toNat, l.toNat + 1, e == 1, y == 1⟩ words →
    exec (.clauseHeader w a b l e y) s = .next (opened s k n wp f ⟨w, a.toNat, b.toNat, l.toNat + 1, e == 1, y == 1⟩ words)) ∧
  (∀ w a b l e y s k n wp f j, s.cur = some (k, n) → HasFrag s k n wp f → f.clause = none → f.atBoundary = true → j < 8 →
    f.mask.getLsbD j = true → (wp.slice j).flags &&& w ≠ 0 →
    exec (.clauseHeader w a b l e y) s = .next { (s.mapFrag k n fun f =>
      { f with state := if wp.inTrap f.mask then .trapped else .flagWait, age := 0 }) with cur := none }) ∧
  (∀ w a b l e y s k n wp f c, s.cur = some (k, n) → HasFrag s k n wp f → f.clause = some c →
    exec (.clauseHeader w a b l e y) s = .next (s.takeFault k n
      { cause := causeIllegal, lanes := wp.active f, info := 0x7F#7 ++ w ++ a ++ b ++ l ++ e ++ y } c.pos c.header .replay)) ∧
  (∀ s s1 k n w f c r hw words, HasFrag s k n w f → Tab.lookup w.crew s.crews = some c →
    s.quadBusy c.core (w.id % 4) k n = false → s.choose c.core (w.id % 4) = some (s1, r) → r.key = k → r.no = n →
    s.fetchWord c.ctx c.core f.pc = .ok hw → majorOf hw = 0x7F → Opens s1 k n w f (headerOf hw) words →
    exec (.clauseStart k n) s = .next (opened s1 k n w f (headerOf hw) words))

/-- R48, R57, R105, R108 and R109: what time, a record, a merge and an end do to fragments and warps. Some clauses rest on
readings and choices of the model (notes/assumptions/6, 37). -/
def Obligations.FragmentAndWarpEvents : Prop :=
  (∀ s k n w f c, HasFrag s k n w f → Tab.lookup w.crew s.crews = some c → c.state = .resident → w.evicted = false →
    w.retired = false → f.atBoundary = true → f.state ≠ .flagWait → f.state ≠ .held →
    s.startWait c.ctx c.core k w f = none → ∃ t u, exec (.ageThreshold k n) s = .next t ∧ Tab.lookup k t.warps = some u ∧
      u.frag n = some { f with age := max f.age 2048 } ∧ u.wtimer = w.wtimer + BitVec.ofNat 64 (2048 - f.age) ∧
      t = { s with warps := t.warps }) ∧
  (∀ s k n w f, HasFrag s k n w f → f.atBoundary = false ∨ f.state = .flagWait ∨ f.state = .held →
    exec (.ageThreshold k n) s = .next s) ∧
  (∀ s k n w f, HasFrag s k n w f → ∃ t u, exec (.yieldHintExpiry k n) s = .next t ∧ Tab.lookup k t.warps = some u ∧
    u.frag n = some { f with passed := false }) ∧
  (∀ s k w, Tab.lookup k s.warps = some w → w.retired = false → (∀ f ∈ w.frags, f.state = .done) → w.oc = ⟨0, 0, 0, 0, 0⟩ →
    (∀ x ∈ w.slices, x.flags = 0) → (∀ o ∈ s.ops, o.src.warp = k → o.completed = true) →
    ∃ t, exec (.warpRetire k) s = .next t ∧ Tab.lookup k t.warps = some { w with retired := true, window := false } ∧
      ((∀ e ∈ t.warps, e.2.crew = w.crew → e.2.retired = true) → ∀ c, Tab.lookup w.crew s.crews = some c →
        Tab.lookup w.crew t.crews = some { c.discardPending with state := .exited }) ∧ t.mem = s.mem ∧ t.ops = s.ops) ∧
  (∀ s ctx c q r rs x, Tab.lookup ctx s.ctxs = some c → c.faultQ = some q → q.held = r :: rs →
    s.walkCtx ctx (q.base + 4 * r.length * (q.next % q.slots)) = some x → (s.word x.pa).getLsbD 23 = false → 2 ≤ r.length →
    ∃ t, exec (.faultRecordWrite ctx) s = .next t ∧
      (∃ c', Tab.lookup ctx t.ctxs = some c' ∧ c'.faultQ = some { q with next := (q.next + 1) % q.slots, held := rs }) ∧
      ∀ a, t.byte a = if x.pa ≤ a ∧ a < x.pa + 4 * r.length then (wordsBytes r).getD (a - x.pa) 0 else s.byte a) ∧
  (∀ s v m, Passes s v {} → v.f.mask &&& ~~~ m = 0 → ∃ t u, exec (.regang m) s = .next t ∧ t.cur = none ∧
    Tab.lookup v.key t.warps = some u ∧ u.frag v.no = some { v.f with gang := some (v.addr, m), state := .regang, suspended := true }) ∧
  (∀ s v m, Passes s v {} → v.f.mask &&& ~~~ m ≠ 0 → Raised (.regang m) s v causeRegang) ∧
  (∀ s v, Passes s v {} → allTopsAre v .markEntry →
    let m : SliceMask := match (v.w.slice v.lead).stack with
      | e :: _ => e.aux
      | [] => 0
    v.f.mask &&& ~~~ m = 0 → ∃ t u, exec .join s = .next t ∧ t.cur = none ∧ Tab.lookup v.key t.warps = some u ∧
      u.slices = v.w.slices ∧ u.frag v.no = some { v.f with gang := some (v.addr, m), state := .regang, suspended := true }) ∧
  (∀ s v, Passes s v {} → ¬ allTopsAre v .markEntry → Raised .join s v causeStackMismatch) ∧
  (∀ s k n w f a m, HasFrag s k n w f → f.state = .regang → f.gang = some (a, m) →
    (∃ g ∈ w.ganging m, g.state ≠ .regang) → exec (.regangMerge k n) s = .next s) ∧
  (∀ s k n w f a m c crew, HasFrag s k n w f → f.state = .regang → f.gang = some (a, m) → f.clause = some c →
    Tab.lookup w.crew s.crews = some crew → (∀ g ∈ w.ganging m, g.state = .regang ∧ g.gang = some (a, m) ∧ g.mode = f.mode) →
    w.sameDepth m = true → ∃ w1 merged, merged.mask = (sliceMaskOf fun k => m.getLsbD k && !(w.slice k).finished) ∧
      merged.pc = f.pc ∧ merged.mode = f.mode ∧ merged.region = none ∧ merged ∈ w1.frags ∧
      (∀ g ∈ w1.frags, g = merged ∨ (g ∈ w.frags ∧ g ∉ w.ganging m)) ∧
      w1.slices = (if majorOf (c.words.getD c.pos 0) = 0x03 ∧ subOf (c.words.getD c.pos 0) = 5 then
        w.mapSlices merged.mask (fun _ x => x.pop) else w).slices ∧
      let v : View := ⟨k, fragNo merged.mask, w1, merged, c, crew, w1.active merged⟩
      exec (.regangMerge k n) s = .next ((s.setWarp k w1).after (s.setWarp k w1) v false none false
        (majorOf (c.words.getD c.pos 0) == 0x03 && subOf (c.words.getD c.pos 0) == 5)))

/-- R183, R209, R210, R232, R239, R240, R243 and R244: fences, counter waits, register windows and cache words, each with what
it waits for and what it does. Some clauses rest on readings and choices of the model (notes/assumptions/7). -/
def Obligations.FencesCountersAndCaches : Prop :=
  (∀ o s v, Passes s v { ok := o != 0 } →
    (LoadsDone s v.key (since s v) → ∃ t, WordDone (.fenceAcq o) s v false [] t ∧ Acquired s t v.crew.core o) ∧
    (¬ LoadsDone s v.key (since s v) → WordHolds (.fenceAcq o) s v .held (countedFrom s v)) ∧
    (∀ t, t = s.releaseCore v.crew.core → AllPerformed s v.key (since s v) → (WrittenBack s t v.crew.core fun _ => true) ∧
      (Released t v.key (since s v) o → WordDone (.fenceRel o) s v false [] t ∧
        ∃ u, WordDone (.fenceAr o) s v false [] u ∧ Acquired t u v.crew.core o) ∧
      (¬ Released t v.key (since s v) o → WordHolds (.fenceRel o) s v .held (countedFrom t v) ∧
        WordHolds (.fenceAr o) s v .held (countedFrom t v))) ∧
    (¬ AllPerformed s v.key (since s v) → WordHolds (.fenceRel o) s v .held (countedFrom s v) ∧
      WordHolds (.fenceAr o) s v .held (countedFrom s v))) ∧
  (∀ n c s v, Passes s v { ok := decide (c.toNat < 5) } →
    (counter v.w c.toNat ≤ n.toNat → WordDone (.waitc n c) s v false [] s) ∧
    (n.toNat < counter v.w c.toNat → WordHolds (.waitc n c) s v .held s) ∧
    ∀ o, (counter v.w c.toNat ≤ n.toNat → MovesOn (.yieldc o n c) s v (some (v.addr + (o.signExtend 64) * 4)) true) ∧
      (n.toNat < counter v.w c.toNat → WordHolds (.yieldc o n c) s v .yielded s)) ∧
  (∀ s v, Passes s v { long := true } →
    (WordDone .openw s v true [] (s.setWarp v.key { v.w with window := true, closing := false })) ∧
    (v.w.window = false ∨ s.windowBusy v.key s.nextId = false →
      WordDone .closew s v true [] (s.setWarp v.key { v.w with window := false, closing := false })) ∧
    (v.w.window = true → s.windowBusy v.key s.nextId = true → ∃ t, WordDone .closew s v true [] t ∧
      OneRequest (s.setWarp v.key { v.w with closing := true }) t v .closeWindow) ∧
    (∃ t, WordDone .l1inv s v true [] t ∧ Acquired s t v.crew.core 0x20) ∧
    ∃ t, WordDone .l1wb s v true [] t ∧ WrittenBack s t v.crew.core fun _ => true)

/-- R33, R134, R214, R218 and R234: the words that wait for the crew, and what lets them go on: `bar` is a release and a wait, which
ends for every fragment of the crew when the last has come to it; `resort` puts the lanes of the crew in the order of their keys,
ties by ORIGLANE, when its last warp has come to it.  A word that is the last of its crew to arrive is complete with the event that
follows. -/
def Obligations.CrewBarrierAndRegrouping : Prop :=
  (∀ s v, Passes s v { long := true, ok := modeGuard v.f.mode == 0 } →
    (∀ t, t = s.releaseCore v.crew.core → AllPerformed s v.key (since s v) → DisarmsDone s v.key (since s v) →
      (WrittenBack s t v.crew.core fun _ => true) ∧
      WordHolds .bar s v .barrier (t.mapFrag v.key v.no fun f => { f with waitOp := none })) ∧
    (¬ AllPerformed s v.key (since s v) ∨ ¬ DisarmsDone s v.key (since s v) → WordHolds .bar s v .barrier (countedFrom s v)) ∧
    (AllPerformed s v.key (since s v) → DisarmsDone s v.key (since s v) → v.word = 0x7A000000 → v.c.pos + 1 < v.c.words.length → (v.w.slices.any fun x => !x.finished) = true →
      v.w.retired = false → ListedOnce s v.w.crew → (∀ e ∈ unfinishedOf s v.w.crew, ∀ f ∈ e.2.frags,
        f.state = .done ∨ (e.1 = v.key ∧ fragNo f.mask = v.no) ∨ WaitsAtBar f) →
      ∃ t u w g, exec .bar s = .next t ∧ exec (.barCompletion v.w.crew) t = .next u ∧ Tab.lookup v.key u.warps = some w ∧
        w.frag v.no = some g ∧ GoneOn v.w v.f g)) ∧
  (∀ s crew, (unfinishedOf s crew ≠ [] ∧ ∃ c, Tab.lookup crew s.crews = some c) → ListedOnce s crew →
    (∀ e ∈ unfinishedOf s crew, ∀ f ∈ e.2.frags, f.state = .done ∨ (WaitsAtBar f ∧ s.cur ≠ some (e.1, fragNo f.mask))) →
    ∃ t, exec (.barCompletion crew) s = .next t ∧ t = { s with warps := t.warps } ∧
      (∀ k, k ∉ (unfinishedOf s crew).map (·.1) → Tab.lookup k t.warps = Tab.lookup k s.warps) ∧
      ∀ e ∈ unfinishedOf s crew, ∃ u, Tab.lookup e.1 t.warps = some u ∧ u = { e.2 with frags := u.frags } ∧
        ∀ f ∈ e.2.frags, ∃ g, u.frag (fragNo f.mask) = some g ∧ (f.state = .done → g = f) ∧ (f.state ≠ .done → GoneOn e.2 f g)) ∧
  (∀ s crew k w f v, unfinishedOf s crew = [(k, w)] →
    Tab.lookup k s.warps = some w → w.frags = [f] → f.state = .barrier → f.waitOp = none → s.viewOf k (fragNo f.mask) = some v →
    v.word = 0x7A000000 →
    exec (.barCompletion crew) s = .next (s.after (s.mapFrag v.key v.no fun f => { f with region := none }) v true none false
      false)) ∧
  (∀ s crew e, e ∈ unfinishedOf s crew → (∃ f ∈ e.2.frags, f.state ≠ .done ∧ f.atBar = false) →
    exec (.barCompletion crew) s = .next s) ∧
  (∀ a b s v, Passes s v
      { reads := [.v a.toNat, .s b.toNat] ++ (liveRegs (v.w.sreg b.toNat)).map .v ++ (List.range 8).map .p, long := true,
        writes := ((liveRegs (v.w.sreg b.toNat)).map .v) ++ ((List.range 8).map .p) ++ [.sr 0, .sr 1],
        ok := (liveRegs (v.w.sreg b.toNat)).all fun r => decide (r - r % 2 < v.w.nregs) } →
    (∃ t, OneRequest s t v (.resort (v.w.vreg a.toNat) (v.w.sreg b.toNat)) ∧
      WordHolds (.resort a b) s v .barrier (t.mapFrag v.key v.no fun f => { f with waitOp := some s.nextId })) ∧
    ((s.ops.all fun o => o.id != s.nextId) = true → unfinishedOf s v.w.crew = [(v.key, v.w)] → ListedOnce s v.w.crew →
      (v.w.frags.filter fun f => f.state != .done) = [v.f] → Regular v.w →
      ∃ t u, exec (.resort a b) s = .next t ∧ exec (.resortCompletion v.w.crew) t = .next u ∧
        Regrouped s u [(v.key, v.w)] (fun _ => v.w.vreg a.toNat) (v.w.sreg b.toNat))) ∧
  (∀ (s : State) (crew : Nat) (keys : Nat → Lanes) (live : DWord), unfinishedOf s crew ≠ [] → ListedOnce s crew →
    (∀ e ∈ unfinishedOf s crew, Regular e.2 ∧ ∃ f n o, (e.2.frags.filter fun f => f.state != .done) = [f] ∧ f.state = .barrier ∧
      f.waitOp = some n ∧ (s.ops.find? fun o => o.id == n) = some o ∧ o.kind = .resort (keys e.1) live) →
    ∃ t, exec (.resortCompletion crew) s = .next t ∧ Regrouped s t (unfinishedOf s crew) keys live ∧
      ((∀ e ∈ unfinishedOf s crew, ∀ f ∈ e.2.frags, e.2.inTrap f.mask = false) → t.mem = s.mem) ∧
      ∀ e ∈ unfinishedOf s crew, ∀ f c, (e.2.frags.filter fun f => f.state != .done) = [f] → f.clause = some c →
        c.pos + 1 < c.words.length → (∃ x, Tab.lookup crew s.crews = some x) → s.cur ≠ some (e.1, fragNo f.mask) →
        ∃ u g, Tab.lookup e.1 t.warps = some u ∧ u.frag (fragNo f.mask) = some g ∧ GoneOn e.2 f g)

/-- R235 to R237: the barrier objects: what each form asks for as it issues, and what it does to the object's fields at its
home, with every other byte of memory as before. Some clauses rest on readings and choices of the model (notes/assumptions/18).
-/
def Obligations.BarrierObjects : Prop :=
  BarrierForm .init .abarInit ∧ BarrierForm .arr .abarArr ∧ BarrierForm .wait .abarWait ∧ BarrierForm .wd .abarWd ∧
  ∀ s0 s id o form value acc pa, s0.op id = some o → o.kind = .abar form value acc → acc.place = .pa pa → o.granted = true →
    (form ≠ .arr → s = s0) → (form = .arr → AllPerformed s0 o.src.warp o.id ∧ s = s0.releaseCore (s0.coreOf o)) →
    s.ordered o = true → (form ≠ .init → fieldAt s pa 7 = 0xB0B1 ∧ s.uncorrectable pa 16 = false) →
    (form = .arr → WrittenBack s0 s (s0.coreOf o) fun _ => true) ∧
    let e := fieldAt s pa 1
    let n := fieldAt s pa 0
    let ph := fieldAt s pa 3
    let g := fieldAt s pa 2
    let bs := fieldAt s pa 5
    let low := value.toNat % 65536
    (form = .init → Performed (.abarPerform id) s0 o fun t =>
      OnlyBytes s t pa 16 ∧ HasObject t pa low 0 (value.toNat / 65536) 0 low 0xB0B1) ∧
    (form = .arr → Performed (.abarPerform id) s0 o fun t =>
      OnlyBytes s t pa 16 ∧ Completes t pa e (min (n + low) 65535) ph g bs false) ∧
    (form = .wd → Performed (.abarPerform id) s0 o fun t => OnlyBytes s t pa 16 ∧
      (value.getLsbD 16 = true ∧ low = ph → HasObject t pa e n ph ((g + 1) % 65536) (bs - 1) 0xB0B1) ∧
      (¬ (value.getLsbD 16 = true ∧ low = ph) → Completes t pa (e - 1) n ph ((g + 1) % 65536) (bs - 1) true)) ∧
    (form = .wait → (ph + 65536 - low) % 65536 < 32768 → Performed (.abarPerform id) s0 o fun t => t = s) ∧
    (form = .wait → 32768 ≤ (ph + 65536 - low) % 65536 →
      exec (.abarPerform id) s0 = .next (s.putOp { o with granted := false })) ∧
    let q : Op := { o with granted := false }
    (form = .wait → (ph + 65536 - low) % 65536 < 32768 →
      Performed (.abarWaitSatisfied id) (s.putOp q) q fun t => t = s.putOp q)

/-- R205, R219, R220, R233 and R238: write tokens: asking, granting, passing on and releasing. Some clauses rest on readings and
choices of the model (notes/assumptions/17); when a turn that began with `tkacq` ends, in the clauses about keepers, is its choice
(notes/assumptions/44). -/
def Obligations.WriteTokens : Prop :=
  (∀ a b s v x, v.f.waitOp = none → Passes s v { reads := [.s a.toNat, .b b.toNat], long := true } → tokenAddress v a b x →
    (s.tokenNo v.crew.ctx x = none → WordDone (.tkacq a b) s v true [] (s.endRegion v) ∧
      WordDone (.tkrel a b) s v true [] (s.endRegion v)) ∧
    ∀ r t, s.tokenNo v.crew.ctx x = some r → s.tokenRegion v.crew.ctx r = some t →
      let kept := t.keepers.filter (· != v.key) ++ [v.key]
      (t.holder = some v.crew.core → t.leaving = none → WordDone (.tkacq a b) s v true []
          ((s.mapToken v.crew.ctx r fun t => { t with keepers := kept }).endRegion v)) ∧
      (t.holder = some v.crew.core →
        ∃ u, WordDone (.tkrel a b) s v true [] u ∧ OneRequest (s.endRegion v) u v (.tokenRelease v.crew.ctx r)) ∧
      (t.holder ≠ some v.crew.core → WordDone (.tkrel a b) s v true [] (s.endRegion v)) ∧
      (t.holder ≠ some v.crew.core ∨ t.leaving ≠ none →
        ∃ u x, WordHolds (.tkacq a b) s v .held u ∧ u.tokenRegion v.crew.ctx r = some x ∧ x.holder = t.holder ∧
          u.ops = s.ops ++ [⟨s.nextId, .tokenAcquire v.crew.ctx t.base, v.src, true, false, s.nextId, s.nextId⟩] ∧
          x.keepers = kept ∧ x.asking = if v.crew.core ∈ t.asking ∨ 64 ≤ t.asking.length then t.asking else t.asking ++ [v.crew.core])) ∧
  (∀ a b s v n, v.f.waitOp = some n → Passes s v { long := true } → WordHolds (.tkacq a b) s v v.f.state s) ∧
  (∀ s id o ctx c r t base, s.op id = some o → o.kind = .tokenAcquire ctx base → Tab.lookup ctx s.ctxs = some c →
    c.tokens.findIdx? (fun t => t.base == base) = some r → c.tokens[r]? = some t →
    (t.holder = some (s.coreOf o) → t.leaving = none →
      exec (.operationCompletion id) s = .next ((s.dropOp o.id).finishHeld o { long := true } true)) ∧
    (t.holder ≠ some (s.coreOf o) ∨ t.leaving ≠ none →
      exec (.operationCompletion id) s = .next (s.askToken ctx r (s.coreOf o)))) ∧
  (∀ s ctx r t core rest, s.tokenRegion ctx r = some t → t.holder = none → t.asking = core :: rest →
    ∃ u, exec (.tokenGrant ctx r) s = .next u ∧
      u.tokenRegion ctx r = some { t with holder := some core, asking := rest, leaving := none } ∧
      (u.core core).l1 = (s.core core).l1.filter (fun e => !s.paInRegion ctx t (64 * e.1)) ∧ u.mem = s.mem) ∧
  (∀ s ctx r t core, s.tokenRegion ctx r = some t → t.holder = some core → core < outsider → t.asking ≠ [] →
    (∀ k ∈ t.keepers, s.keeps core k = false) →
    let limit := min s.nextId (t.leaving.getD s.nextId)
    (s.regionBusy ctx core t limit true = false → ∃ u w, exec (.tokenPass ctx r) s = .next u ∧
      u.tokenRegion ctx r = some { t with holder := none, leaving := none } ∧
      WrittenBack s w core (fun pa => s.paInRegion ctx t pa) ∧ u.mem = w.mem ∧
      (u.core core).l1 = (w.core core).l1.filter (fun e => !s.paInRegion ctx t (64 * e.1))) ∧
    (s.regionBusy ctx core t limit true = true → exec (.tokenPass ctx r) s = .next
      (s.mapToken ctx r fun t => { t with leaving := some limit }))) ∧
  (∀ s ctx r t core, s.tokenRegion ctx r = some t → t.holder = some core → core < outsider →
    t.asking = [] ∨ (∃ k ∈ t.keepers, s.keeps core k = true) → exec (.tokenPass ctx r) s = .next s) ∧
  (∀ s ctx r t n, s.tokenRegion ctx r = some t → t.holder = some n → outsider ≤ n → t.asking ≠ [] →
    (s.agentWaits n = true → exec (.tokenPass ctx r) s = .next s) ∧
    (s.agentWaits n = false → exec (.tokenPass ctx r) s = .next (s.mapToken ctx r fun t => { t with holder := none }))) ∧
  (∀ (s : State) (ctx core : Nat) (t : TokenRegion) (limit : Nat) (o : Op) rel e l (a : Access) pa, o ∈ s.ops → o.src.ctx = ctx → s.coreOf o = core → o.id < limit → o.kind = .store rel e l → a ∈ l →
    a.place = .pa pa → a.addr.toNat / 2 ^ t.log = t.base / 2 ^ t.log → s.regionBusy ctx core t limit false = true) ∧
  (∀ s id o ctx r, s.op id = some o → o.kind = .tokenRelease ctx r →
    ((s.tokenRegion ctx r).map (·.holder) ≠ some (some (s.coreOf o))) →
    exec (.operationCompletion id) s = .next ((s.dropOp id).settleFlags o.src.warp)) ∧
  ∀ s id o ctx r t, s.op id = some o → o.kind = .tokenRelease ctx r → s.tokenRegion ctx r = some t →
    t.holder = some (s.coreOf o) →
    let limit := min o.id (t.leaving.getD o.id)
    (s.regionBusy ctx (s.coreOf o) t limit false = false →
      ∃ u : State, exec (.operationCompletion id) s = .next ((u.dropOp id).settleFlags o.src.warp) ∧
        u.tokenRegion ctx r = some { t with
          holder := none, keepers := t.keepers.filter fun k => !s.keeps (s.coreOf o) k, leaving := none }) ∧
    (s.regionBusy ctx (s.coreOf o) t limit false = true → exec (.operationCompletion id) s = .next
      (s.mapToken ctx r fun t => { t with leaving := some limit }))

/-- R186 to R189, R197, R224, R225 and R231: what the load words ask for as they issue. Some clauses rest on readings and
choices of the model (notes/assumptions/16, 39). -/
def Obligations.LoadsIssue : Prop :=
  LoadForm false .ld ∧ LoadForm true .ldn ∧
  (∀ d a b u s v, let buf := bufOf (v.w.breg b.toNat)
    let sh := shapeLoad d a b none u (decide (2 ≤ buf.esz)) v
    Passes s v { sh with reads := sh.reads ++ laneRegs (buf.esz == 3) d.toNat } →
    let r := v.reachAll s buf buf.clamp buf.soft true false false (fun _ x => buf.pageType x == .sketch) u a
    (r.1 ≠ [] → WordFaults (.ldk d a b u) s v (mergeFaults r.1 true false)) ∧
    (r.1 = [] → ∃ t : State, WordDone (.ldk d a b u) s v true sh.writes t ∧ t.mem = s.mem ∧
      (∀ zero, LanesAre zero (fun n => (∃ z, (n, .soft z) ∈ r.2) ∨ (n, .dropped) ∈ r.2) → zero ≠ 0 → (∀ e ∈ r.2, e.2.place = none) →
        LeavesLoad s t v d.toNat buf.size (zeros (buf.esz == 3) d.toNat zero)) ∧
      ((∃ e ∈ r.2, e.2.place ≠ none) → ∃ l o, t.ops.getLast? = some o ∧ s.nextId ≤ o.id ∧ o.src = v.src ∧ o.completed = false ∧
        o.kind = .query d.toNat buf.esz 0 0 l ((r.2.filter fun e => e.2.place.isNone).map fun e => (e.1, 0)) [] ∧ ∀ e ∈ r.2, ∀ p, e.2.place = some p → ∃ x ∈ l,
          x.1 = accessOf e p buf.size (leBytes (v.w.laneBits (buf.esz == 3) d.toNat e.1) 8 ++ buf.rawMark)))) ∧
  (∀ d a o u b s v, v.f.waitOp = none → Passes s v (shapeLoad d a b none u (o != 0) v) →
    let buf := bufOf (v.w.breg b.toNat)
    let r := v.reachAll s buf buf.clamp false true false true (plainOnly buf) u a
    let bad := r.1 ++ s.dataFaults v.crew.core (fun _ => false) buf.size r.2
    (bad ≠ [] → WordFaults (.ldAcq d a o u b) s v (mergeFaults bad true false)) ∧
    ∀ out, LanesAre out (fun n => (n, .dropped) ∈ r.2) → bad = [] →
      let also := zerosIn (buf.esz == 3) d.toNat out
      ∃ (t : State) (w : Warp), Requested s t v r.2 (loads v s.nextId d.toNat buf.size also false) buf.size (fun _ => []) false ∧
        ((∀ e ∈ r.2, e.2.place = none) → also ≠ [] → LeavesLoad s t v d.toNat buf.size also) ∧
        Tab.lookup v.key t.warps = some w ∧
        w.pending = v.w.pending ++ [⟨s.nextId, laneRegs (buf.esz == 3) d.toNat, v.c.flag, v.f.mask⟩] ∧
        WordHolds (.ldAcq d a o u b) s v .held (countedFrom t v)) ∧
  ∀ d a o u b s v n, v.f.waitOp = some n → Passes s v { long := true } →
    (LoadsDone s v.key n → ∃ t, WordDone (.ldAcq d a o u b) s v true [] t ∧ Acquired s t v.crew.core o) ∧
    (¬ LoadsDone s v.key n → WordHolds (.ldAcq d a o u b) s v .held s)

/-- R189, R197, R226, R227, R231 and R276: what the store words ask for as they issue, with the bytes of every lane. Some
clauses rest on readings and choices of the model (notes/assumptions/16, 39). -/
def Obligations.StoresIssue : Prop :=
  (∀ d a b u s v, Passes s v (shapeStore d a b u true v) →
    let buf := bufOf (v.w.breg b.toNat)
    let r := v.reachAll s buf buf.clamp false false true true (storeTypeOk v buf d.toNat) u a
    let on := fun (ty : PageType) => ∃ n y x, (n, Reached.mem y x) ∈ r.2 ∧ buf.pageType x = ty
    let tile := tileFaults r.2 r.1 (v.indexAt u a) buf.extent ((v.w.tag (d.toNat / 8)).level == 0 &&
      isFloat (v.w.tag (d.toNat / 8)).fmt && (v.w.tag (d.toNat / 8)).fmt != 13)
    (∀ bad, (on .haar → bad = tile) → (¬ on .haar → bad = r.1) →
      let sk := sketchFaults buf (r.2.filter fun e => !bad.any fun x => x.lane == e.1)
      ((bad ≠ [] ∧ sk = []) ∨ (sk ≠ [] ∧ 2 ≤ buf.esz) → WordFaults (.st d a b u) s v (mergeFaults (bad ++ sk) false true)) ∧
      (¬ on .haar → buf.esz < 2 → sk ≠ [] →
        let good := r.2.filter fun e => !(bad ++ sk).any fun x => x.lane == e.1
        v.extraFault (if fillsPair v buf good then [.v (d.toNat + 1)] else []) true = none →
        ∃ t, exec (.st d a b u) s = .next (t.takeFault v.key v.no (mergeFaults (bad ++ sk) false true) v.c.pos v.c.header .replay) ∧
          Requested s t v good (stores none) buf.size (sent v buf d.toNat) false true none true)) ∧
    (r.1 = [] → ¬ on .haar → ¬ on .sketch → v.extraFault (if fillsPair v buf r.2 then [.v (d.toNat + 1)] else []) true = none →
      ∃ t, WordDone (.st d a b u) s v true [] t ∧ Requested s t v r.2 (stores none) buf.size (sent v buf d.toNat) false true) ∧
    (r.1 = [] → v.act ≠ 0 → 2 ≤ buf.esz → (∀ e ∈ r.2, ∃ y x, e.2 = .mem y x ∧ buf.pageType x = .sketch ∧ 64 ≤ objectOffset x) →
      ∃ t o l, WordDone (.st d a b u) s v true [] (State.endRegion t v) ∧ t.ops = s.ops ++ [o] ∧ o.src = v.src ∧
        o.kind = .insert false buf.esz 0 l ∧ l.map (·.1) = r.2.filterMap (fun e => e.2.place.map fun p => accessOf e p buf.size
          (leBytes (v.w.laneBits (buf.size == 8) d.toNat e.1) buf.size)) ∧ t.mem = s.mem) ∧
    ∀ n y x, on .haar → tile = [] → sketchFaults buf r.2 = [] → (r.2.find? fun e => e.2.place.isSome) = some (n, .mem y x) →
      v.extraFault (tileRegs (d.toNat / 8)) true = none →
      ∃ t, WordDone (.st d a b u) s v true [] t ∧ t.mem = s.mem ∧
        ∀ k word, (v.w.tileWords (d.toNat / 8) x.leaf.w1).1[k]? = some word → ∃ o ∈ t.ops, ∃ l, s.nextId ≤ o.id ∧
          stores none o.kind = some l ∧
          ⟨n, BitVec.ofNat 64 (y + 4 * k), .pa (x.pa + 4 * k), 4, leBytes word.toNat 4, none⟩ ∈ l) ∧
  (∀ d a b u s v, Passes s v (shapeStore d a b u true v) →
    let buf := bufOf (v.w.breg b.toNat)
    let lanes := laneList v.act
    let first := v.indexAt u a (lanes.headD 0)
    let data := fun (e : Nat × Reached) => v.plainBytes buf d.toNat e.1
    (∀ r, (lanes.mapIdx fun k n => (n, compactAt v s buf first k n)) = r.map (fun e => (e.1, .ok e.2)) →
      ∃ t, WordDone (.cstore d a b u) s v true [] t ∧ Requested s t v r (stores none) buf.size data false true (some first)) ∧
    ∀ k n x, lanes[k]? = some n → compactAt v s buf first k n = .error x →
      (∀ j m, j < k → lanes[j]? = some m → ∃ y, compactAt v s buf first j m = .ok y) →
      ∃ (t : State) (y : FaultInfo), exec (.cstore d a b u) s = .next (t.takeFault v.key v.no y v.c.pos v.c.header .replay) ∧ y.cause = x.cause ∧
        y.addr = x.addr ∧ y.info = BitVec.ofNat 32 ((first + k) % 2 ^ 32) ∧
        LanesAre y.lanes (fun m => v.act.getLsbD m = true ∧ x.lane ≤ m) ∧ t.mem = s.mem) ∧
  (∀ d a o u b s v, Passes s v (shapeStore d a b u (o != 0) v) →
    let buf := bufOf (v.w.breg b.toNat)
    let r := v.reachAll s buf buf.clamp false false true true (plainOnly buf) u a
    (v.act ≠ 0 → r.1 ≠ [] → WordFaults (.stRel d a o u b) s v (mergeFaults r.1 false true)) ∧
    (v.act ≠ 0 → r.1 = [] → ∃ t, WordDone (.stRel d a o u b) s v true [] t ∧ Requested s t v r.2 (stores (some o)) buf.size
      (fun e => v.plainBytes buf d.toNat e.1) false true) ∧
    (v.act = 0 → ∀ t, t = s.releaseCore v.crew.core → AllPerformed s v.key (since s v) →
      (WrittenBack s t v.crew.core fun _ => true) ∧ (Released t v.key (since s v) o → WordDone (.stRel d a o u b) s v true [] t) ∧
      (¬ Released t v.key (since s v) o → WordHolds (.stRel d a o u b) s v .held (countedFrom t v))) ∧
    (v.act = 0 → ¬ AllPerformed s v.key (since s v) → WordHolds (.stRel d a o u b) s v .held (countedFrom s v)))

/-- R228, R229 and R233: prefetches, page requests and buffer records. Some clauses rest on readings and choices of the model
(notes/assumptions/16, 17). -/
def Obligations.PrefetchesPageRequestsRecords : Prop :=
  (∀ a b u s v, Passes s v { reads := [indexReg u a, .b b.toNat], long := true } →
    let buf := bufOf (v.w.breg b.toNat)
    let r := v.reachAll s buf buf.clamp false true false false (fun _ _ => true) u a
    (∀ x ∈ r.1, 0x12 ≤ x.cause ∧ x.cause ≤ 0x15 ∧ (buf.raw = false ∨ s.privileged v.crew.ctx = true) ∧ isMap x.addr.toNat = false) →
    ∃ t, WordDone (.pref a b u) s v true [] t ∧ t.mem = s.mem ∧ t.warps = s.warps ∧
      ∀ n y x, (n, .mem y x) ∈ r.2 → x.leaf.leafOk x.log = true → x.leaf.typeCode ≠ 6 →
        ∃ o ∈ t.ops, ∃ l, s.nextId ≤ o.id ∧ o.kind = .prefetch l ∧ x.pa / 64 ∈ l) ∧
  (∀ a b u s v, Passes s v { reads := [indexReg u a, .b b.toNat], long := true } →
    let buf := bufOf (v.w.breg b.toNat)
    let at' := fun (n : Nat) => buf.index buf.clamp buf.size (v.indexAt u a n)
    (∀ n, n < 32 → v.act.getLsbD n = true → ∀ c x, at' n ≠ .bad c x) →
    (∀ n x, n < 32 → v.act.getLsbD n = true → at' n = .at x →
      (buf.raw = false ∨ s.privileged v.crew.ctx = true) ∧ (buf.fab = true ∨ isMap x = false)) →
    ∃ t new, WordDone (.pgreq a b u) s v true [] t ∧ t.mem = s.mem ∧ t.warps = s.warps ∧ (new = [] → t.ops = s.ops) ∧
      (new ≠ [] → t.ops = s.ops ++ [⟨s.nextId, .pageRequest new, v.src, true, false, s.nextId, s.nextId⟩]) ∧
      (∀ c q, Tab.lookup v.crew.ctx s.ctxs = some c → c.faultQ = some q → ∃ c' q', Tab.lookup v.crew.ctx t.ctxs = some c' ∧
        c'.faultQ = some q' ∧ q'.held = q.held ++ new) ∧
      (v.c.pos < 8 → ∀ n x, n < 32 → v.act.getLsbD n = true → at' n = .at x → ∃ w ∈ new, ∃ lo,
        (w.getD 0 0).extractLsb' 24 8 = 0x30 ∧ (w.getD 1 0).getLsbD n = true ∧ lo / 65536 = x / 65536 ∧ lo ≤ x ∧
        w.getD 5 0 ++ w.getD 4 0 = BitVec.ofNat 64 lo)) ∧
  (∀ d a s v, let both := v.w.sreg (a.toNat + 1) ++ v.w.sreg a.toNat
    Passes s v
      { reads := [.s a.toNat, .s (a.toNat + 1)], writes := [.b d.toNat], ok := pair a && recordOk both } →
    ∃ w, exec (.bset d a) s = .next (s.after (s.setWarp v.key w) v false none false false) ∧ 
      w = { v.w with b := w.b, bad := v.w.bad.filter (· != .b d.toNat) } ∧
      ∀ k, w.breg k = if k = d.toNat then both else v.w.breg k) ∧
  (∀ d a s v, Passes s v
      { reads := [.b a.toNat], writes := [.s d.toNat, .s (d.toNat + 1)], ok := pair d } →
    ∃ w, exec (.bget d a) s = .next (s.after (s.setWarp v.key w) v false none false false) ∧
      w = { v.w with s := w.s, bad := (v.w.bad.filter (· != .s d.toNat)).filter (· != .s (d.toNat + 1)) } ∧
      ∀ k, w.sreg k = if k = d.toNat then (v.w.breg a.toNat).extractLsb' 0 64
        else if k = d.toNat + 1 then (v.w.breg a.toNat).extractLsb' 64 64 else v.w.sreg k)

/-- R10, R204 and R230: the atomics as they issue, and one lane of them at its home: the old value goes to the lane, the new one
to memory, and every other byte is as before. Some clauses rest on readings and choices of the model (notes/assumptions/16, 18).
-/
def Obligations.AtomicsAndCompareSwap : Prop :=
  AtomicForm .add .atomAdd ∧ AtomicForm .min .atomMin ∧ AtomicForm .max .atomMax ∧ AtomicForm .and .atomAnd ∧
  AtomicForm .or .atomOr ∧ AtomicForm .xor .atomXor ∧ AtomicForm .exch .atomExch ∧ AtomicForm .cas .cas ∧
  ∀ s id o op d size cmp x rest a w, Ready s id o → o.kind = .atomic op d size cmp (x :: rest) → offMemory (x :: rest) = false →
    x.place = .pa a → s.writeFree o = true → s.tokensHeld o = true →
    (∀ y ∈ x :: rest, ∀ b, y.place = .pa b → s.uncorrectable b y.size = false) →
    Tab.lookup o.src.warp s.warps = some w → x.lane < 32 → (size = 4 ∨ size = 8) → x.data.length = size →
    ∃ (s1 t : State) (u : Warp) (z : Nat), exec (.atomicPerform id) s = .next t ∧
      WrittenBack s s1 (s.coreOf o) (fun pa => pa / 64 == a / 64) ∧
      let old := leNat (s1.bytes a size)
      newValue op (modeType o.src.mode) size old (leNat x.data) (cmp.headD 0).toNat z ∧
      (∀ k, k < size → t.byte (a + k) = BitVec.ofNat 8 (z / 2 ^ (8 * k))) ∧
      (∀ b, b < a ∨ a + size ≤ b → (∀ q, ¬ DirtyAt s (s.coreOf o) (fun pa => pa / 64 == a / 64) b q) → t.byte b = s.byte b) ∧
      Tab.lookup o.src.warp t.warps = some u ∧ u.laneBits (size == 8) d x.lane = old ∧
      (∀ r n, n < 32 → n ≠ x.lane ∨ (r ≠ d ∧ (size = 8 → r ≠ d + 1)) → (u.vreg r).get n = (w.vreg r).get n) ∧
      (rest = [] → s.ops.filter (fun p => p.id != o.id) = t.ops) ∧
      (rest ≠ [] → t.op id = some { o with kind := .atomic op d size (cmp.drop 1) rest })

/-- R84, R179, R180, R200, R203, R208, R224, R276 and R306: a load of PLAIN storage is served, event by event, from the home, from
the first-level cache, or through the map, and completes with its last lane; a tile load is served word by word. Some clauses rest
on readings and choices of the model (notes/assumptions/17, 18, 44). -/
def Obligations.LoadsAreServed : Prop :=
  (∀ s id o w p cached l got, s.op id = some o → o.kind = .load w p cached l got → offMemory l = false → p.type = .plain →
    s.loadFree o = true →
    let ev := s.eventOf l
    let hit := fun (a : Nat) => cached && (s.sector (s.coreOf o) a).isSome
    (∀ a ∈ pas ev, hit a = false → o.granted = true ∧ s.leased a = false ∧ s.ordered o = true) →
    s.badLanes (s.coreOf o) cached p ev = [] →
    GotValues (.loadFillReturn id) s o w p cached (leftAfter l ev) (got ++ ev.map fun x => ⟨x.lane, match x.place with
      | .pa a => plainValue o.src.mode x.size (served s o (hit a) a x.size)
      | _ => 0, x.size == 8, Exc.none, false⟩)) ∧
  (∀ s id o w p cached slot lanes words got a i, s.op id = some o → o.kind = .tile w p cached slot lanes words got →
    slot.place = .pa a → pickOf s.freeCtr words = some i → s.loadFree o = true →
    let hit := cached && (s.sector (s.coreOf o) (a + i)).isSome
    (hit = false → o.granted = true ∧ s.leased (a + i) = false ∧ s.ordered o = true) →
    s.readBad (s.coreOf o) hit (a + i) 4 = false →
    let left := words.filter (· != i)
    let now := got ++ [(i, BitVec.ofNat 32 (leNat (served s o hit (a + i) 4)))]
    let others := otherParts s o w
    let all := now ++ others.flatMap fun q => match q.kind with
      | .tile _ _ _ _ _ _ g => g
      | _ => []
    let ty := modeType o.src.mode
    ∃ t, exec (.loadFillReturn id) s = .next t ∧ t.mem = s.mem ∧
      (left ≠ [] ∨ (∃ q ∈ others, q.kind.accs ≠ []) →
        t.op id = some { o with kind := .tile w p cached slot lanes left now } ∧ t.warps = s.warps) ∧
      ∀ (read : Nat → Word) (q : Warp), left = [] → (∀ q ∈ others, q.kind.accs = []) → (∀ e ∈ all, e.2 = read e.1) →
        0 ∈ all.map (·.1) → (∀ j f, j < 32 → lanes.getLsbD j = true → (read 0).getLsbD j = true → f < tileCount ty →
          coefAt (read 0) j f ∈ all.map (·.1)) →
        Tab.lookup o.src.warp s.warps = some q → ∃ u, Tab.lookup o.src.warp t.warps = some u ∧
          u.tag w.dest = ⟨ty, p.geom % 8, read 0⟩ ∧ t.ops = s.ops.filter (fun x => x.kind.wordNo != some w.first) ∧
          (∀ k n, k < 8 → n < 32 → lanes.getLsbD n = true → (u.vreg (8 * w.dest + k)).get n =
            (packTile ty ((List.range (tileCount ty)).map fun f => if (read 0).getLsbD n then
              (roundTo ty (rndAt o.src.mode w.draws n f) (readFloat 8 false (read (coefAt (read 0) n f)).toNat)).1 else 0)).getD k 0) ∧
          ∀ r n, n < 32 → lanes.getLsbD n = false ∨ r / 8 ≠ w.dest → (u.vreg r).get n = laneAfter w.also q r n) ∧
  (∀ s id o w p cached l got, s.op id = some o → o.kind = .load w p cached l got → p.type = .plain →
    (∀ x ∈ l, ∃ a, x.place = .map a) → s.loadFree o = true → (∀ x ∈ s.earlier o, x.kind.isStore = false) → s.ordered o = true →
    ∀ (chips : Access → Chip) (me : Crew), s.crewOf o = some me → (∀ x ∈ s.eventOf l, ∀ a, x.place = .map a →
      s.mapTarget me false a.toNat = .chip (chips x) ∧ s.chipBad x.size (chips x) = false) →
    GotValues (.mapAccessPerform id) s o w p cached (leftAfter l (s.eventOf l)) (got ++ (s.eventOf l).map fun x =>
      ⟨x.lane, plainValue o.src.mode x.size (s.chipRead x.sub x.size (chips x)), x.size == 8, Exc.none, false⟩)) ∧
  (∀ s id o, s.op id = some o → o.granted = false → o.completed = false →
    let core := s.coreOf o
    (∀ x ∈ s.ops, x.id < id → s.coreOf x = core → x.kind.buffered = o.kind.buffered → x.granted = true ∨ x.completed = true) →
    let held := s.missEntries core
    let want := held.length + ((s.missingOf core o).filter fun n => !held.contains n).length
    let slots := s.slotsUsed core + o.kind.slots
    (o.kind.buffered = some false → (want ≤ 64 → exec (.missEntryGrant id) s = .next (s.putOp { o with granted := true })) ∧
      (64 < want → exec (.missEntryGrant id) s = .next s)) ∧
    (o.kind.buffered = some true → (slots ≤ 32 → exec (.missEntryGrant id) s = .next (s.putOp { o with granted := true })) ∧
      (32 < slots → exec (.missEntryGrant id) s = .next s))) ∧
  (∀ s core sector, ∃ t u, exec (.l1Eviction core sector) s = .next u ∧
    WrittenBack s t core (fun pa => pa / 64 == sector) ∧ u.mem = t.mem ∧ ∀ e, e ∈ (u.core core).l1 ↔ e ∈ (t.core core).l1 ∧ e.1 ≠ sector) ∧
  ∀ s core pa, s.leased pa = false → s.uncorrectable (64 * (pa / 64)) 64 = false → s.prefetchable pa = true →
    ∃ t q, exec (.hwPrefetch core pa) s = .next t ∧ t.sector core pa = some q ∧ t.mem = s.mem ∧
      ∀ i, i < 64 → q.bytes.getD i 0 = match s.sector core pa with
        | some p => if p.dirty.getLsbD i then p.bytes.getD i (s.byte (64 * (pa / 64) + i)) else s.byte (64 * (pa / 64) + i)
        | none => s.byte (64 * (pa / 64) + i)

/-- R84, R181, R182, R200, R202, R203, R205, R207, R209, R228, R229 and R243: stores at their homes, in a core that holds the token,
and through the map; and what other requests do as they complete. Some clauses rest on readings and choices of the model
(notes/assumptions/18, 19, 43). -/
def Obligations.StoresArePerformed : Prop :=
  (∀ s id o rel exc l, s.op id = some o → o.kind = .store rel exc l → offMemory l = false → o.completed = true →
    s.writeFree o = true → (∀ a ∈ pas (s.eventOf l), s.leased a = false) → s.tokensHeld o = true →
    let core := s.coreOf o
    let ev := s.eventOf l
    let rest := leftAfter l ev
    (rel ≠ none → ¬ AllPerformed s o.src.warp o.id → exec (.storePerformHome id) s = .next s) ∧
    ∀ s0, (rel = none → s0 = s) → (rel ≠ none → s0 = s.releaseCore core ∧ AllPerformed s o.src.warp o.id) →
      (rel ≠ none → WrittenBack s s0 core fun _ => true) ∧
      (∀ m, rel = some m → ¬ Released s0 o.src.warp o.id m → exec (.storePerformHome id) s = .next s0) ∧
      ((∀ m, rel = some m → Released s0 o.src.warp o.id m) → ∃ t, exec (.storePerformHome id) s = .next t ∧
        (rest = [] → t.ops = s.ops.filter fun p => p.id != o.id) ∧
        (rest ≠ [] → t.op id = some { o with kind := .store rel exc rest } ∧ t.warps = s.warps) ∧
        (∀ w, Tab.lookup o.src.warp s.warps = some w → ∃ u, Tab.lookup o.src.warp t.warps = some u ∧
          u = { w with slices := u.slices }) ∧
        ((∀ x ∈ ev, s.tokenNo o.src.ctx x.addr.toNat = none) → ∀ a, t.byte a = afterWrites ev a (s0.byte a)) ∧
        ∀ x a q, ev = [x] → x.place = .pa a → a % 64 + x.data.length ≤ 64 → (s.tokenNo o.src.ctx x.addr.toNat).isSome = true →
          s0.sector core a = some q → t.mem = s0.mem ∧ ∃ q', t.sector core a = some q' ∧
            ∀ i, i < 64 → let here := decide (a % 64 ≤ i ∧ i < a % 64 + x.data.length)
              q'.bytes[i]? = (if here then q.bytes[i]?.map fun _ => x.data.getD (i - a % 64) 0 else q.bytes[i]?) ∧
              q'.dirty.getLsbD i = (q.dirty.getLsbD i || here) ∧
              (Tab.get 0 q'.writers o.src.warp).getLsbD i = ((Tab.get 0 q.writers o.src.warp).getLsbD i || here))) ∧
  (∀ s id o p dr l, s.op id = some o → o.kind = .fp4s p dr l → o.completed = true → s.writeFree o = true →
    (∀ a ∈ pas (s.fp4sEvent l), s.leased a = false) → s.tokensHeld o = true →
    let ev := s.fp4sEvent l
    let rest := leftAfter l ev
    let es := (fp4sElems p (modeType o.src.mode) ev).map (·.1)
    let scales := p.base + (fp4sGeom p.geom).1 * (fp4sGeom p.geom).2 / 2
    ∃ t s0, exec (.fp4sStorePerform id) s = .next t ∧
      WrittenBack s s0 (s.coreOf o) (fun pa => (pas ev ++ (ev.flatMap (scaleBytes p)).map (·.1)).any fun a => a / 64 == pa / 64) ∧
      (rest = [] → t.ops = s.ops.filter fun p => p.id != o.id) ∧
      (rest ≠ [] → t.op id = some { o with kind := .fp4s p dr rest }) ∧
      (∀ a ∈ pas ev, t.sector (s.coreOf o) a = none) ∧
      (∀ b, (∀ e, e < 8 → 8 * b + e ∈ es) → t.sector (s.coreOf o) (scales + b) = none) ∧
      ∀ a, (∀ e ∈ es, a ≠ p.base + e / 2) →
        (∀ b, a = scales + b → ∃ e, e < 8 ∧ 8 * b + e ∉ es) → t.byte a = s0.byte a) ∧
  (∀ s id o rel exc l, s.op id = some o → o.kind = .store rel exc l → onMap l = true → o.completed = false →
    (s.ops.map (·.id)).Nodup →
    let word := s.opsOfStore o onMap
    (∀ x ∈ word, ∀ y ∈ x.kind.accs, ∃ me a c, s.crewOf o = some me ∧ y.place = .map a ∧ s.mapTarget me false a.toNat = .chip c ∧
      s.chipArmed y.size c = false) →
    ∃ t, exec (.mapAccessPerform id) s = .next t ∧ t.mem = s.mem ∧ t.crews = s.crews ∧
      t.ops = s.ops.map fun x => if x ∈ word then { x with completed := true, doneAt := s.nextId } else x) ∧
  (∀ s id o exc x a c ch, s.op id = some o → o.kind = .store none exc [x] → x.place = .map a → o.completed = true →
    s.writeFree o = true → s.crewOf o = some c → s.mapTarget c true a.toNat = .chip ch →
    exec (.mapAccessPerform id) s = .next (((s.chipWrite (modeType o.src.mode) x.sub x.data ch).dropOp o.id).settleFlags
      o.src.warp) ∧
    ∀ k off y, ch = .spad k off → Tab.lookup k s.crews = some y → ∃ t z, exec (.mapAccessPerform id) s = .next t ∧
      Tab.lookup k t.crews = some z ∧ t.mem = s.mem ∧
      ∀ i, Tab.get 0 z.spad i = if off ≤ i ∧ i < off + x.data.length then x.data.getD (i - off) 0 else Tab.get 0 y.spad i) ∧
  (∀ s id o ws exc w, s.op id = some o → o.kind = .result ws exc → Tab.lookup o.src.warp s.warps = some w →
    ∃ t u, exec (.operationCompletion id) s = .next t ∧ Tab.lookup o.src.warp t.warps = some u ∧ WrittenBy ws w u ∧
      u.flags = (w.raiseExc exc).flags ∧ u.xc = (w.raiseExc exc).xc ∧
      s.ops.filter (fun p => p.id != id) = t.ops ∧ t.mem = s.mem) ∧
  (∀ s id o rel exc l w, s.op id = some o → o.kind = .store rel exc l → o.completed = false → o.granted = true →
    offMemory l = false → s.tokensHeld o = true → Tab.lookup o.src.warp s.warps = some w →
    exec (.operationCompletion id) s = .next (((s.setWarp o.src.warp (w.raiseExc exc)).putOp
      { o with completed := true, doneAt := s.nextId }).settleFlags o.src.warp)) ∧
  (∀ s id o w, s.op id = some o → o.kind = .closeWindow → s.windowBusy o.src.warp o.id = false → w.closing = true →
    Tab.lookup o.src.warp s.warps = some w →
    exec (.operationCompletion id) s = .next (((s.setWarp o.src.warp { w with window := false, closing := false }).dropOp
      id).settleFlags o.src.warp)) ∧
  (∀ s id o rs, s.op id = some o → o.kind = .pageRequest rs →
    (s.accepted o.src.ctx rs = true → exec (.operationCompletion id) s = .next ((s.dropOp id).settleFlags o.src.warp)) ∧
    (s.accepted o.src.ctx rs = false → exec (.operationCompletion id) s = .next s)) ∧
  ∀ s id o l, s.op id = some o → o.kind = .prefetch l → s.fenced o = false → o.granted = true → ∃ t : State,
    exec (.operationCompletion id) s = .next ((t.dropOp id).settleFlags o.src.warp) ∧ t.mem = s.mem ∧
      ∀ n ∈ l, s.leased (64 * n) = false → s.uncorrectable (64 * n) 64 = false → (t.sector (s.coreOf o) (64 * n)).isSome = true

/-- R71, R212, R241 and R242: copies: as they issue, word by word, at their retirement and at an early end. Some clauses rest on
readings and choices of the model (notes/assumptions/25). -/
def Obligations.CopiesAndTheirEnds : Prop :=
  (∀ d s' k s v, Passes s v
      { reads := [.b d.toNat, .b s'.toNat, .s k.toNat, .s (k.toNat + 1)], long := true, ok := k.toNat % 2 == 0 && true } →
    let n := (v.w.sreg (k.toNat + 1)).toNat % 2 ^ 32
    let at' := (v.w.sreg k.toNat).toNat
    CopyIssues (.cpy d s' k) s v ⟨bufOf (v.w.breg d.toNat), at' % 2 ^ 32, 1, n⟩ ⟨bufOf (v.w.breg s'.toNat), at' / 2 ^ 32, 1, n⟩) ∧
  (∀ d s' k s v, Passes s v
      { reads := [.b d.toNat, .b s'.toNat, .s k.toNat, .s (k.toNat + 1)], long := true,
        ok := k.toNat % 2 == 0 && bitsOf (v.w.sreg (k.toNat + 1)).toNat 48 16 == 0 } →
    let x := (v.w.sreg (k.toNat + 1)).toNat
    let at' := (v.w.sreg k.toNat).toNat
    CopyIssues (.cpy2d d s' k) s v ⟨bufOf (v.w.breg d.toNat), at' % 2 ^ 32, bitsOf x 32 16, x % 2 ^ 32⟩
      ⟨bufOf (v.w.breg s'.toNat), at' / 2 ^ 32, bitsOf x 32 16, x % 2 ^ 32⟩) ∧
  (∀ s id o fb raw gs rows, s.op id = some o → o.kind = .copy fb raw gs rows → rows ≠ [] → s.fenced o = false →
    s.copyEnd o raw rows = none → InPieces rows →
    (∀ r ∈ rows, 0 < r.len ∧ (∃ a, r.dst = .pa a ∧ ∀ k, k < r.len → s.outsideFree (a + k) (agentOf o.id) = true) ∧
      ∃ b, r.src = .pa b ∧ ∀ k, k < r.len → s.leased (b + k) = false) →
    ∃ (t : State) (r : CopyRow) (w : Nat) (left : List CopyRow), exec (.engineRetire id) s = .next t ∧ r ∈ rows ∧
      let mine := fun (q : CopyRow) (a k : Nat) => q ∈ rows ∧ q.pos + r.base = r.pos + q.base ∧ q.dst = .pa a ∧ k < q.len ∧
        (a + k) / 4 = w
      (∃ q a k, mine q a k) ∧ (∀ q a k b, mine q a k → q.src = .pa b → t.byte (a + k) = s.byte (b + k)) ∧
      (∀ x, (∀ q a k, mine q a k → x ≠ a + k) → t.byte x = s.byte x) ∧
      t.op id = some { o with kind := .copy fb raw gs left } ∧ (left.map (·.len)).sum < (rows.map (·.len)).sum) ∧
  (∀ s id o fb raw gs w, s.op id = some o → o.kind = .copy fb raw gs [] →
    (∀ x ∈ s.ops, x.src.warp = o.src.warp → x.id < o.id → x.kind.cls ≠ o.kind.cls) →
    Tab.lookup o.src.warp s.warps = some w → ∃ t u, exec (.engineRetire id) s = .next t ∧
      Tab.lookup o.src.warp t.warps = some u ∧ u.oc = w.oc.map (if fb then 4 else 0) (· - 1) ∧
      s.ops.filter (fun p => p.id != o.id) = t.ops ∧ t.mem = s.mem) ∧
  ∀ s id o fb raw gs rows e c q, s.op id = some o → o.kind = .copy fb raw gs rows → s.fenced o = false →
    s.behindNacked o = false → s.copyEnd o raw rows = some e →
    (∀ r ∈ rows, e.pos ≤ r.pos) → e.cause ≠ causeData → e.cause < 256 → e.origin < 16 → Tab.lookup o.src.ctx s.ctxs = some c → c.faultQ = some q →
    ∃ t c' q' w, exec (.copyEarlyEnd id) s = .next t ∧ t.op id = some { o with kind := .copy fb raw gs [] } ∧ t.mem = s.mem ∧
      Tab.lookup o.src.ctx t.ctxs = some c' ∧ c'.faultQ = some q' ∧ q'.held = q.held ++ [w] ∧
      (w.getD 0 0).extractLsb' 24 8 = BitVec.ofNat 8 e.cause ∧ (w.getD 1 0) = 0

/-- R277 to R281, R286, R289, R290, R309 and R310: the matrix words as they issue: what each asks the engine for, and what stops
it. Some clauses rest on readings and choices of the model (notes/assumptions/23). -/
def Obligations.MatrixWordsIssue : Prop :=
  MatrixForm .plain .mma ∧ MatrixForm .gated .mmaG ∧ MatrixForm .quad .mmaQ ∧
  (∀ a s v, Passes s v { reads := [.s a.toNat], long := true } →
    let d := v.w.sreg a.toNat
    let ms := (rangeOf d).macros
    let clash := ∃ m ∈ ms, ∃ e, Tab.lookup m v.crew.macros = some e ∧ e ≠ d
    (v.crew.spadMacros = 0 → Raised (.arm a) s v causeNoWindow ∧ Raised (.disarm a) s v causeNoWindow) ∧
    (v.crew.spadMacros ≠ 0 → rangeOk d v.crew.spadMacros = false ∨ clash → RaisedIllegal (.arm a) s v) ∧
    (rangeOk d v.crew.spadMacros = true → v.crew.spadMacros ≠ 0 → ¬ clash →
      let waits := s.disarming v.w.crew d = true ∨ s.fencedAt v.key (since s v) false 0x08 = true
      (waits → WordHolds (.arm a) s v .held (countedFrom s v)) ∧
      (¬ waits → v.crew.rangeAt (rangeOf d).mac ≠ none → WordDone (.arm a) s v true [] s) ∧
      (¬ waits → v.crew.rangeAt (rangeOf d).mac = none → ∃ t, WordDone (.arm a) s v true [] t ∧
        t.ops = s.ops ++ [⟨s.nextId, .arm v.w.crew d, v.src, true, false, s.nextId, s.nextId⟩] ∧ (t.core v.crew.core).stage = [] ∧
        CrewIs t v fun c => c = { v.crew with macros := c.macros, arming := v.crew.arming ++ ms } ∧
          ∀ m, Tab.lookup m c.macros = if m ∈ ms then some d else Tab.lookup m v.crew.macros)) ∧
    (v.crew.spadMacros ≠ 0 → Tab.lookup (rangeOf d).mac v.crew.macros = some d → s.disarming v.w.crew d = false →
      (∀ m ∈ v.crew.engine, m.kind.range ≠ some d) → ∃ t, WordDone (.disarm a) s v true [] t ∧
        t.ops = s.ops ++ [⟨s.nextId, .disarm v.w.crew d, v.src, true, false, s.nextId, s.nextId⟩] ∧ t.crews = s.crews) ∧
    (v.crew.spadMacros ≠ 0 → Tab.lookup (rangeOf d).mac v.crew.macros ≠ some d ∨ s.disarming v.w.crew d = true ∨
      (∃ m ∈ v.crew.engine, m.kind.range = some d) → RaisedIllegal (.disarm a) s v)) ∧
  (∀ d s v, Passes s v { long := true, ok := decide (d.toNat < 8) } → v.crew.spadMacros ≠ 0 →
    ∃ t, WordDone (.czero d) s v true [] t ∧ Engaged s t v d.toNat .czero ∧ t.ops = s.ops) ∧
  (∀ d a b s v, Passes s v
      { reads := (List.range 4).map fun i => .s (b.toNat + i), writes := tileRegs d.toNat, long := true,
        ok := decide (d.toNat < 16 ∧ a.toNat < 8 ∧ b.toNat % 4 = 0 ∧ b.toNat ≤ 60) } →
    let f := drainFields v.w d.toNat b.toNat
    let acc := v.crew.accTag (v.w.id % 4) a.toNat
    let e := tileCount v.type
    v.crew.spadMacros ≠ 0 → f.2.2 = true → v.type ≠ 0 → v.type ≠ 13 → f.1.row % e = 0 → f.1.row + e ≤ 64 → acc.bad = false →
    (f.1.rcon = true → acc.level ≠ 0) →
    (acc.level ≠ 0 → f.1.rcon = false → f.1.gate = 0 ∧ f.1.drop = false ∧ f.2.1 = none) →
    (∀ t, f.2.1 = some t → v.w.tag t = ⟨v.type, 0, 0⟩ ∧ v.extraFault (tileRegs t) true = none) →
    ∃ t, WordDone (.drain d a b) s v true (tileRegs d.toNat) t ∧ Engaged s t v a.toNat (.drain s.nextId f.1 v.draws) ∧
      t.ops = s.ops ++ [⟨s.nextId, .drain, v.src, true, false, s.nextId, s.nextId⟩]) ∧
  (∀ (store : Bool) (d a : BitVec 7) (b : BitVec 4) (s : State) (v : View) (rows : List Access), Passes s v { reads := [.s a.toNat, .b b.toNat], long := true, ok := decide (d.toNat < 8) } →
    let x := (v.w.sreg a.toNat).toNat
    let buf := bufOf (v.w.breg b.toNat)
    let row := x % 2 ^ 32
    v.crew.spadMacros ≠ 0 → bitsOf x 36 28 = 0 → bitsOf x 32 3 ≤ 5 → (store = true → x / 2 ^ 32 = 0) → buf.esz = 2 →
    row + 63 < buf.extent → buf.stride ≠ 0 → buf.stride % 128 = 0 → (buf.base + row * buf.stride) % 128 = 0 →
    ((List.range 64).map fun r => s.tileRow v buf store row r) = rows.map .ok →
    (store = true → (v.crew.accTag (v.w.id % 4) d.toNat).bad = false) →
    ∃ t, WordDone (if store then .cst d a b else .cld d a b) s v true [] t ∧
      Engaged s t v d.toNat (let left := rows.map fun q => ⟨q, BitVec.allOnes 32⟩
        if store then .cst left else .cld (bitsOf x 32 3) (bitsOf x 35 1 == 1) left []) ∧ t.ops = s.ops ∧ t.mem = s.mem) ∧
  (∀ d s v, Passes s v { writes := [.s d.toNat] } → ∃ w, exec (.mbatch d) s = .next (s.after (s.setWarp v.key w) v false none
      false false) ∧ w = { v.w with s := w.s, bad := v.w.bad.filter (· != .s d.toNat), batch := v.w.batch + 1, closedBatches := v.w.closedBatches ++ [v.w.batch] } ∧
      w.sreg d.toNat = v.w.batch.setWidth 64 ∧ ∀ r, r ≠ d.toNat → w.sreg r = v.w.sreg r) ∧
  ∀ a s v, Passes s v { reads := [.s a.toNat] } →
    let back := fun (b : Word) => (v.w.batch - b).toNat
    let k := back ((v.w.sreg a.toNat).setWidth 32)
    (k = 0 ∨ 2 ^ 31 < k → RaisedIllegal (.waitb a) s v) ∧
    (0 < k → k ≤ 2 ^ 31 → (∃ b ∈ v.w.closedBatches, k ≤ back b) → WordHolds (.waitb a) s v .held s) ∧
    (0 < k → k ≤ 2 ^ 31 → (∀ b ∈ v.w.closedBatches, back b < k) → WordDone (.waitb a) s v false [] s)

/-- R152 to R154, R274, R277 to R281, R284 to R286, R290 to R297, R309 and R310: what the matrix engine does: passes on tiles,
sets, replays, batches and the governor. Some clauses rest on readings and choices of the model (notes/assumptions/23). -/
def Obligations.MatrixEngineWorks : Prop :=
  (∀ s k q c m, Next s k q c m → m.kind = .czero → TileDone (.matrixPass k q) s k c m fun _ a => a = ⟨[], 0, false, true, false⟩) ∧
  (∀ s k q c m d rb kb b gate thr, Next s k q c m → m.kind = .mma d rb kb b gate thr → (c.tile q m.tile).bad = false →
    s.operandBad k d rb [kb] = false →
    let r := rangeOf d
    let old := c.tile q m.tile
    TileDone (.matrixPass k q) s k c m fun _ a => a.bad = false ∧ a.empty = false ∧
      a.int = (if old.empty then r.int else old.int) ∧ a.level = (if old.empty then (if gate = 0 then b.tag.level else 0) else old.level) ∧
      ∀ i n, i < 64 → n < 32 → b.tag.level = 0 ∨ b.tag.survival.getLsbD n = true →
        let y := (sumElem r (old.elem i n).toNat (products c r rb [(kb, b)] i n)).1
        (gate = 0 → a.elem i n = BitVec.ofNat 32 y) ∧
        (gate ≠ 0 → a.elem i n = if above (accVal r.int y) (gateBound gate thr) then BitVec.ofNat 32 y else 0) ∧
        (gate = 0 → r.int = true → ((a.elem i n).toNat : Int) = (((products c r rb [(kb, b)] i n).map fun p =>
          p.1.toInt * p.2.val.toInt).sum + ((old.elem i n).toNat : Int)) % 2 ^ 32)) ∧
  (∀ s k q c m d rb kb b set, Next s k q c m → m.kind = .mmaq d rb kb b set true → (c.tile q m.tile).bad = false →
    s.operandBad k d rb ((List.range 4).map fun i => kb + i) = false →
    TileDone (.matrixPass k q) s k c m fun _ a => ∀ i n, i < 64 → n < 32 →
      a.elem i n = BitVec.ofNat 32 (sumElem (rangeOf d) ((c.tile q m.tile).elem i n).toNat
        (products c (rangeOf d) rb (set.mapIdx fun j t => (kb + j, t)) i n)).1) ∧
  (∀ s k q c m d rb kb b set, Next s k q c m → m.kind = .mmaq d rb kb b set false → set ≠ [] →
    TileDone (.matrixPass k q) s k c m fun _ a => a = c.tile q m.tile) ∧
  (∀ s k q c m op p dr, Next s k q c m → m.kind = .drain op p dr → (c.tile q m.tile).bad = false → modeType m.src.mode = 8 →
    p.rcon = false → p.gate = 0 → p.drop = false → p.res = none →
    TileDone (.matrixPass k q) s k c m fun t a => a = c.tile q m.tile ∧ ∃ w, Tab.lookup m.src.warp t.warps = some w ∧
      w.tag p.dest = ⟨8, a.level, if a.level = 0 then 0 else BitVec.allOnes 32⟩ ∧
      ∀ e n, e < 8 → n < 32 → m.src.lanes.getLsbD n = true → (w.vreg (8 * p.dest + e)).get n =
        BitVec.ofNat 32 (roundTo 8 (rndAt m.src.mode dr n e) (accVal a.int (a.elem (p.row + e) n).toNat)).1) ∧
  (∀ (s : State) (rows : List TileRow), (∀ i n, s.nextElem rows = some (i, n) → n < 32 ∧ ∃ r, rows[i]? = some r ∧ r.left.getLsbD n = true) ∧
    (s.nextElem rows = none → ∀ r ∈ rows, r.left = 0)) ∧
  (∀ s k q c m level int rows got i n x p, Next s k q c m → m.kind = .cld level int rows got → s.nextElem rows = some (i, n) →
    (rows.map (·.acc))[i]? = some x → x.place = .pa p →
    (s.uncorrectable (p + 4 * n) 4 = false → ElementMoved (.matrixPass k q) s k c m (.cld level int (leftRows rows i n)
      ((32 * i + n, BitVec.ofNat 32 (leNat (s.bytes (p + 4 * n) 4))) :: got)) fun t => t.mem = s.mem) ∧
    (s.uncorrectable (p + 4 * n) 4 = true → TileDone (.matrixPass k q) s k c m fun t a => a.bad = true ∧ t.mem = s.mem)) ∧
  (∀ s k q c m level int rows got, Next s k q c m → m.kind = .cld level int rows got → s.nextElem rows = none → (got.map (·.1)).Nodup →
    TileDone (.matrixPass k q) s k c m fun _ a => a.level = level ∧ a.int = int ∧ a.empty = false ∧ a.bad = false ∧
      ∀ i n x, i < 64 → n < 32 → (32 * i + n, x) ∈ got → a.elem i n = x) ∧
  (∀ s k q c m rows i n x p, Next s k q c m → m.kind = .cst rows → (c.tile q m.tile).bad = false →
    s.cstFaults c (rows.filter fun r => r.left != 0) = [] → s.nextElem rows = some (i, n) → (rows.map (·.acc))[i]? = some x → x.place = .pa p →
    s.tokenNo m.src.ctx (x.addr + BitVec.ofNat 64 (4 * n)).toNat = none →
    ElementMoved (.matrixPass k q) s k c m (.cst (leftRows rows i n)) fun t => ∀ b, t.byte b =
      if p + 4 * n ≤ b ∧ b < p + 4 * n + 4 then
        (leBytes (if (c.tile q m.tile).empty then 0 else (c.tile q m.tile).elem i n).toNat 4).getD (b - (p + 4 * n)) 0
      else s.byte b) ∧
  (∀ s k q c m rows, Next s k q c m → m.kind = .cst rows → (c.tile q m.tile).bad = false → s.nextElem rows = none →
    TileDone (.matrixPass k q) s k c m fun t a => a = c.tile q m.tile ∧ t.mem = s.mem) ∧
  (∀ s k c m0 m1 m2 m3, Tab.lookup k s.crews = some c → c.state ≠ .evicted → c.member 0 = some m0 → c.member 1 = some m1 →
    c.member 2 = some m2 → c.member 3 = some m3 → ([m0, m1, m2, m3].map fun m => m.1.id).Nodup →
    let tiles := [m0.2, m1.2, m2.2, m3.2]
    let agree := tiles.all fun t => t.tag.level == m0.2.tag.level
    ∃ t d, exec (.mmaQSetForm k) s = .next t ∧ Tab.lookup k t.crews = some d ∧ ∀ m ∈ [m0, m1, m2, m3], ∀ x ∈ d.engine,
      x.id = m.1.id → ∃ desc rb kb b g, m.1.kind = .mmaq desc rb kb b [] g ∧
        x = { m.1 with kind := .mmaq desc rb kb b tiles agree }) ∧
  (∀ s k n c, Tab.lookup k s.crews = some c → (c.arming.find? fun m => m / 8 == n / 8) = some n →
    s.spadBusy k n = false → ∃ t d, exec (.armMacroConfigured k n) s = .next t ∧ Tab.lookup k t.crews = some d ∧ d = { c with arming := c.arming.erase n }) ∧
  (∀ s k q c m d rb kb b g h, Next s k q c m → m.kind = .mma d rb kb b g h → (c.tile q m.tile).bad = false →
    ∃ t e, exec (.passReplay k q) s = .next t ∧ Tab.lookup k t.crews = some e ∧
      (∀ x ∈ e.engine, x.id = m.id → x.fails = m.fails + 1 ∨ (3 ≤ m.fails ∧ x.fails = 4 ∧ x.done = true)) ∧
      (m.fails < 3 → e.acc = c.acc) ∧ (3 ≤ m.fails → (e.tile m.quad m.tile) = { c.tile m.quad m.tile with bad := true })) ∧
  (∀ s k w c b rest, Tab.lookup k s.warps = some w → w.closedBatches = b :: rest → Tab.lookup w.crew s.crews = some c →
    c.state ≠ .evicted → (∀ m ∈ c.engine, m.src.warp = k → m.batch = b → m.done = true) →
    ∃ t u d, exec (.batchRetire k) s = .next t ∧ Tab.lookup k t.warps = some u ∧ u.closedBatches = rest ∧ u.v = w.v ∧ u.s = w.s ∧
      Tab.lookup w.crew t.crews = some d ∧ d.engine = c.engine.filter (fun m => !(m.src.warp == k && m.batch == b)) ∧
      (t.core c.core).gatecnt = (s.core c.core).gatecnt +
        BitVec.ofNat 64 (((c.engine.filter fun m => m.src.warp == k && m.batch == b).map (·.planes)).sum) ∧
      (t.core c.core).replaycnt = (s.core c.core).replaycnt +
        BitVec.ofNat 64 (((c.engine.filter fun m => m.src.warp == k && m.batch == b).map fun m => min m.fails 3).sum) ∧
      u.haarcnt.toNat = min (w.haarcnt.toNat + ((c.engine.filter fun m => m.src.warp == k && m.batch == b).map (·.haar)).sum) (2 ^ 32 - 1)) ∧
  (∀ s core q, let g := Tab.get Governor.reset (s.core core).gov q
    (g.passes < 2 ^ 20 → exec (.governorWindowEnd core q) s = .next s) ∧
    (2 ^ 20 ≤ g.passes → ∃ t h, exec (.governorWindowEnd core q) s = .next t ∧ Tab.lookup q (t.core core).gov = some h ∧
      t.plant.windows = s.plant.windows ++ [⟨core, q, g.replays, g.passes⟩] ∧
      let clock := min g.clock s.plant.ceiling
      (104 < g.replays → g.supply < Config.supplySteps → h = ⟨0, 0, 0, g.supply + 1, g.clock⟩) ∧
      (104 < g.replays → Config.supplySteps ≤ g.supply → h = ⟨0, 0, 0, g.supply, clock - 25⟩) ∧
      (10 ≤ g.replays → g.replays ≤ 104 → h = ⟨0, 0, 0, g.supply, g.clock⟩) ∧
      (g.replays < 10 → g.quiet + 1 < 16 → h = ⟨0, 0, g.quiet + 1, g.supply, g.clock⟩) ∧
      (g.replays < 10 → 16 ≤ g.quiet + 1 → clock < s.plant.ceiling →
        h = ⟨0, 0, 0, g.supply, min s.plant.ceiling (clock + 25)⟩) ∧
      (g.replays < 10 → 16 ≤ g.quiet + 1 → s.plant.ceiling ≤ clock →
        h = ⟨0, 0, 0, if clock = 1800 then g.supply - 1 else g.supply, g.clock⟩))) ∧
  ∀ s core q, ∃ t, exec (.timingCalibration core q) s = .next t ∧ t = { s with cores := t.cores } ∧
    ∀ c p, Tab.get Governor.reset (t.core c).gov p = Tab.get Governor.reset (s.core c).gov p

/-- R276, R282, R298, R299, R302 and R311 to R313: the wavelet words: the transform at level 1 and its inverse, thresholds, and
tags as they are read. -/
def Obligations.WaveletWords : Prop :=
  (∀ d a l s v, Passes s v
      { reads := tileRegs a.toNat, writes := tileRegs d.toNat, long := true,
        ok := decide (d.toNat < 16 ∧ a.toNat < 16 ∧ 1 ≤ l.toNat ∧ l.toNat ≤ 5) && (v.w.tag a.toNat).level == 0 &&
          waveType (v.w.tag a.toNat).fmt && waveType v.type } →
    ∃ t ws e regs keep, WordDone (.wfwd d a l) s v true (tileRegs d.toNat) t ∧
      t.ops = s.ops ++ [⟨s.nextId, .result ws e, v.src, true, false, s.nextId, s.nextId⟩] ∧ t.mem = s.mem ∧
      ws = regs ++ [.tag d.toNat ⟨v.type, l.toNat, keep⟩] ∧ regs.length = 8 ∧
      (∀ j, j < 32 → (keep.getLsbD j = true ↔ j < 32 / 2 ^ l.toNat ∨ ∃ f, f < 32 ∧
        belowT (coef (v.w.forwardTile a.toNat l.toNat).1 j f) (v.w.wt.getD v.w.wsel 0).toNat = false)) ∧
      (v.type = 8 → ∀ f, f < 8 → ∃ x, regs[f]? = some (.v (8 * d.toNat + f) (BitVec.allOnes 32) x) ∧ ∀ j, j < 32 →
        x.get j = BitVec.ofNat 32 (if keep.getLsbD j
          then (roundTo 8 (v.rnd j f) (readFloat 8 false (coef (v.w.forwardTile a.toNat l.toNat).1 j f))).1 else 0)) ∧
      ((v.w.tag a.toNat).fmt = 8 → l = 1 → ∀ q f, q < 16 → f < 8 →
        let x := fun (n : Nat) => ((v.w.vreg (8 * a.toNat + f)).get n).toNat
        coef (v.w.forwardTile a.toNat 1).1 q f = (halfNode (x (2 * q)) (x (2 * q + 1))).1 ∧
        coef (v.w.forwardTile a.toNat 1).1 (16 + q) f = (halfNode (x (2 * q)) (flip32 (x (2 * q + 1)))).1)) ∧
  (∀ d a s v, Passes s v
      { reads := tileRegs a.toNat, writes := tileRegs d.toNat, long := true,
        ok := decide (d.toNat < 16 ∧ a.toNat < 16) && (v.w.tag a.toNat).level != 0 } →
    let fmt := (v.w.tag a.toNat).fmt
    ∃ t ws e regs, WordDone (.winv d a) s v true (tileRegs d.toNat) t ∧
      t.ops = s.ops ++ [⟨s.nextId, .result ws e, v.src, true, false, s.nextId, s.nextId⟩] ∧ t.warps = s.warps ∧ t.mem = s.mem ∧
      ws = regs ++ [.tag d.toNat ⟨fmt, 0, 0⟩] ∧
      (fmt = 8 → (v.w.tag a.toNat).level = 1 → ∀ f, f < 8 → ∃ x,
        regs[f]? = some (.v (8 * d.toNat + f) (BitVec.allOnes 32) x) ∧
        ∀ q, q < 16 →
          let c := fun (n : Nat) => if (v.w.tag a.toNat).survival.getLsbD n then ((v.w.vreg (8 * a.toNat + f)).get n).toNat else 0
          x.get (2 * q) = BitVec.ofNat 32 (fnFadd 8 Rnd.rne (readFloat 8 false (c q)) (readFloat 8 false (c (16 + q)))).1 ∧
          x.get (2 * q + 1) = BitVec.ofNat 32 (fnFsub 8 Rnd.rne (readFloat 8 false (c q)) (readFloat 8 false (c (16 + q)))).1)) ∧
  (∀ n s v, Passes s v { ok := decide (n.toNat < 4) } →
    WordDone (.wthr n) s v false [] (s.setWarp v.key { v.w with wsel := n.toNat })) ∧
  ∀ d a s v, Passes s v { reads := tileRegs a.toNat, writes := [.s d.toNat], ok := decide (a.toNat < 16) } →
    GoesOn (.wtag d a) s v fun w => Quiet v w ∧ UniWrite v w d.toNat fun x =>
      (v.w.tag a.toNat).fmt < 16 → (v.w.tag a.toNat).level < 8 →
        x.extractLsb' 0 4 = BitVec.ofNat 4 (v.w.tag a.toNat).fmt ∧ x.extractLsb' 4 3 = BitVec.ofNat 3 (v.w.tag a.toNat).level ∧
        x.extractLsb' 7 25 = 0 ∧
        x.extractLsb' 32 32 = if (v.w.tag a.toNat).level = 0 then 0 else (v.w.tag a.toNat).survival

/-- R225, R314 to R319: the sketch words as they issue: what each judges at issue, and what it asks the assay engine for. Some
clauses rest on readings and choices of the model (notes/assumptions/24). -/
def Obligations.SketchWordsIssue : Prop :=
  (∀ d a b s v, Passes s v
      { reads := [.s a.toNat, .b b.toNat] ++ (List.range 6).map fun i => .s (d.toNat + i), long := true,
        ok := decide (d.toNat ≤ 58) } →
    let hdr := (List.range 6).map fun i => v.w.sreg (d.toNat + i)
    let x : Sketch := ⟨0, 0, 0, [(v.w.sreg d.toNat).toNat, (v.w.sreg (d.toNat + 1)).toNat], []⟩
    (2 ^ 16 ≤ (v.w.sreg (d.toNat + 1)).toNat ∨ x.fieldsOk = false → RaisedIllegal (.skinit d a b) s v) ∧
    ((v.w.sreg (d.toNat + 1)).toNat < 2 ^ 16 → x.fieldsOk = true →
      (∀ e, v.uniformObject s a b = .error e → WordFaults (.skinit d a b) s v e) ∧
      ∀ acc p s1, v.uniformObject s a b = .ok (acc, p, s1) → x.need + 64 ≤ 2 ^ p.geom →
        ∃ t, OneRequest s t v (.skinit acc p hdr) ∧ WordDone (.skinit d a b) s v true [] (t.endRegion v))) ∧
  (∀ d a b s v acc p s1 x, Passes s v { reads := [.s d.toNat, .s a.toNat, .b b.toNat], long := true } →
    let src := v.w.sreg d.toNat
    v.uniformObject s a b = .ok (acc, p, s1) → src.toNat < 2 ^ 56 → s1.translate v.crew.ctx v.crew.core src.toNat true false = .ok x →
    x.leaf.pageType = some .sketch → ∃ t, OneRequest s t v (.skmerge acc
        ⟨0, src, .pa (x.pa - objectOffset x), 2 ^ x.leaf.w1, [], none⟩ p ⟨.sketch, x.pa - x.pa % 2 ^ x.log, x.log, x.leaf.w1⟩) ∧
      WordDone (.skmerge d a b) s v true [] (t.endRegion v)) ∧
  (∀ a b s v acc p s1, Passes s v { reads := [.s a.toNat, .b b.toNat], long := true } →
    v.uniformObject s a b = .ok (acc, p, s1) → ∃ t, OneRequest s t v (.skfold acc p) ∧
      WordDone (.skfold a b) s v true [] (t.endRegion v)) ∧
  (∀ d a b u s v, Passes s v (shapeStore d a b u (decide (2 ≤ (bufOf (v.w.breg b.toNat)).esz)) v) →
    let buf := bufOf (v.w.breg b.toNat)
    let r := v.reachAll s buf buf.clamp false false true false (fun _ x => buf.pageType x == .sketch) u a
    r.1 = [] → (∀ e ∈ r.2, (∀ y, e.2 ≠ .fab y) ∧ ∀ y x, e.2 = .mem y x → 64 ≤ objectOffset x) →
    ((∀ e ∈ r.2, e.2.place = none) → ∃ t, WordDone (.skdel d a b u) s v true [] t ∧ t.ops = s.ops ∧ t.mem = s.mem) ∧
    ((∃ e ∈ r.2, e.2.place ≠ none) → ∃ t l, OneRequest s t v (.insert true buf.esz 0 l) ∧
      WordDone (.skdel d a b u) s v true [] (t.endRegion v) ∧ l.map (·.1) = r.2.filterMap (fun e => e.2.place.map fun p =>
        accessOf e p buf.size (leBytes (v.w.laneBits (buf.esz == 3) d.toNat e.1) buf.size)))) ∧
  ∀ d n s v, Passes s v { writes := [.s d.toNat], ok := decide (n.toNat < 4) } →
    let waits := ∃ o ∈ s.ops, o.src.warp = v.key ∧ o.id < since s v ∧ o.sketching = true
    (waits → WordHolds (.skstat d n) s v .held (countedFrom s v)) ∧
    (¬ waits → GoesOn (.skstat d n) s v fun w => Quiet v w ∧ UniWrite v w d.toNat fun x =>
      ∀ c, Tab.lookup v.crew.ctx s.ctxs = some c → x = (c.skstats.getD n.toNat 0).setWidth 64)

/-- R246 to R248, R254, R257 to R260, R262, R264 and R268: inserts and deletions, step by step at the home, and what they report.
Some clauses rest on readings and choices of the model (notes/assumptions/24). -/
def Obligations.SketchInsertsAndDeletes : Prop :=
  (∀ s id o a p x esz step rest, Assayed s id o (o.headOnly a p) a p x (x.touches esz a) →
    o.kind = .insert false esz step ((a, p) :: rest) → x.held = 1 →
    let b := x.bitOf (leNat a.data) step
    (step < x.k → s.bodyBit x b = true → StepDone (.filtInsert id) s o false esz step ((a, p) :: rest) fun t => t.mem = s.mem) ∧
    (step < x.k → s.bodyBit x b = false → StepDone (.filtInsert id) s o false esz step ((a, p) :: rest) fun t => ∃ u v,
      (∀ i, u.bodyBit x i = (s.bodyBit x i || decide (i = b))) ∧ OnlyBytes s u (x.pa + 64 + b / 8) 1 ∧
      bitsOf (v.dword (x.pa + 8)) 32 32 = (x.fill + 1) % 2 ^ 32 ∧ OnlyBytes u v (x.pa + 12) 4 ∧
      Reports v t o x (min (x.n + 1) (2 ^ 64 - 1)) (x.thr * x.size ≤ (x.fill + 1) * 65536) .sat) ∧
    (x.k ≤ step → LaneDone (.filtInsert id) s o false esz rest fun t => CountIs s t x (min (x.n + 1) (2 ^ 64 - 1)))) ∧
  (∀ s id o a p x esz step rest delete, Assayed s id o (o.headOnly a p) a p x (x.touches esz a) → x.held = 2 →
    o.kind = .insert delete esz step ((a, p) :: rest) →
    let cell := step * x.size + reduce x.size (x.hash (leNat a.data) step)
    let i : Instr := if delete then .freqDelete id else .freqInsert id
    let n := if delete then if 0 < x.n ∧ x.n < 2 ^ 64 - 1 then x.n - 1 else x.n else min (x.n + 1) (2 ^ 64 - 1)
    (step < x.k → StepDone i s o delete esz step ((a, p) :: rest) fun t => CellMoves delete s t o x n cell) ∧
    (x.k ≤ step → LaneDone i s o delete esz rest fun t => CountIs s t x n)) ∧
  (∀ s id o a p x esz step rest, Assayed s id o (o.headOnly a p) a p x (x.touches esz a) → x.held = 3 →
    o.kind = .insert false esz step ((a, p) :: rest) →
    let h := x.hash (leNat a.data) 0
    let j := h / 2 ^ (64 - x.p)
    ∃ rank, rank ≤ 65 - x.p ∧ (∀ i, i < rank - 1 → (h * 2 ^ x.p).testBit (63 - i) = false) ∧
      (rank ≤ 64 - x.p → (h * 2 ^ x.p).testBit (64 - rank) = true) ∧ 0 < rank ∧
      LaneDone (.distInsert id) s o false esz rest fun t => t.register x j = max (s.register x j) rank ∧
        (∀ i, i ≠ j → t.register x i = s.register x i) ∧ t.dword (x.pa + 16) = min (x.n + 1) (2 ^ 64 - 1)) ∧
  (∀ s id o a p x esz step rest delete, Assayed s id o (o.headOnly a p) a p x (x.touches esz a) → x.held = 4 →
    o.kind = .insert delete esz step ((a, p) :: rest) →
    let i : Instr := if delete then .quanDelete id else .quanInsert id
    let y := readFloat (if esz = 3 then 7 else 8) false (leNat a.data)
    let n := if delete then if 0 < x.n ∧ x.n < 2 ^ 64 - 1 then x.n - 1 else x.n else min (x.n + 1) (2 ^ 64 - 1)
    (∀ c, (x.bucket y).1 = some c → LaneDone i s o delete esz rest fun t => ∃ u v, Reports s u o x n ((x.bucket y).2 = true) .range ∧
      CellMoves delete u v o x n c ∧ CountIs v t x n) ∧
    ((x.bucket y).1 = none → LaneDone i s o delete esz rest fun t => Reports s t o x x.n True .range)) ∧
  ∀ (s : State) w ctx (x : Sketch) n r, let u := (s.setSticky w x r.bit).countStat ctx r.stat
    let set := (s.dword (x.pa + 8)).testBit r.bit
    (set = true → s.report w ctx x n r = s) ∧
    (set = false → u.dword (x.pa + 8) = s.dword (x.pa + 8) + 2 ^ r.bit ∧ (∀ a, a < x.pa + 8 ∨ x.pa + 16 ≤ a → u.byte a = s.byte a) ∧
      ∀ c, Tab.lookup ctx s.ctxs = some c → ∃ d, Tab.lookup ctx u.ctxs = some d ∧
        d.skstats.getD r.stat 0 = BitVec.ofNat 32 (min ((c.skstats.getD r.stat 0).toNat + 1) (2 ^ 32 - 1)) ∧
        ∀ i, i < 4 → i ≠ r.stat → d.skstats.getD i 0 = c.skstats.getD i 0) ∧
    (set = false → x.reports = false → s.report w ctx x n r = u) ∧
    (set = false → x.reports = true → ∀ c, Tab.lookup ctx s.ctxs = some c → c.eventQ = none →
      s.report w ctx x n r = u.countStat ctx 3) ∧
    ∀ c q z, set = false → x.reports = true → Tab.lookup ctx s.ctxs = some c → c.eventQ = some q →
      u.walkCtx ctx (q.base + 32 * (q.next % q.slots)) = some z →
      ((u.word z.pa).getLsbD 23 = true → s.report w ctx x n r = u.countStat ctx 3) ∧
      ((u.word z.pa).getLsbD 23 = false → ∃ (t : State) (d : Context), s.report w ctx x n r = t.setSticky w x 19 ∧
        (∀ a, a < z.pa ∨ z.pa + 32 ≤ a → t.byte a = u.byte a) ∧
        t.word z.pa = field 24 r.evt ||| field 23 1 ||| field 0 x.kind ∧ t.word (z.pa + 4) = 0 ∧ t.dword (z.pa + 8) = x.va % 2 ^ 64 ∧
        t.dword (z.pa + 16) = n % 2 ^ 64 ∧ t.dword (z.pa + 24) = s.time.toNat ∧ Tab.lookup ctx t.ctxs = some d ∧
        d.eventQ = some { q with next := (q.next + 1) % q.slots })

/-- R225, R249, R260, R262, R265, R269, R271 and R315 to R317: queries, new objects, merges and folds at the home. Some clauses
rest on readings and choices of the model (notes/assumptions/24). -/
def Obligations.SketchQueriesMergesFolds : Prop :=
  (∀ s id o a p x d esz step part, s.op id = some o → s.objectOf a p = some x → s.queryFree o = true →
    s.objectBad x (x.asks a) = false → o.kind = .query d esz step part [(a, p)] [] [] → a.lane < 32 →
    (∃ w, Tab.lookup o.src.warp s.warps = some w) →
    let key := leNat a.data
    let bit := (s.bodyBit x (x.bitOf key step)).toNat
    let cell := s.counter x (step * x.size + reduce x.size (x.hash key step))
    let least := fun (y : Nat) => if step = 0 then y else min part y
    (x.held = 1 → x.k ≤ step + 1 → Answered (.filtQuery id) s o d esz a.lane (least bit)) ∧
    (x.held = 1 → step + 1 < x.k → exec (.filtQuery id) s = .next (s.putOp
      { o with kind := .query d esz (step + 1) (least bit) [(a, p)] [] [] })) ∧
    (x.held = 2 → x.k ≤ step + 1 → Answered (.freqQuery id) s o d esz a.lane (least cell)) ∧
    (x.held = 2 → step + 1 < x.k → exec (.freqQuery id) s = .next (s.putOp
      { o with kind := .query d esz (step + 1) (least cell) [(a, p)] [] [] })) ∧
    (x.held = 3 → Answered (.distEstimate id) s o d esz a.lane
      (if esz = 2 then min (estimateOf x.p ((List.range x.size).map (s.register x))) (2 ^ 32 - 1)
        else estimateOf x.p ((List.range x.size).map (s.register x)))) ∧
    (x.held = 4 → Answered (.quanQuery id) s o d esz a.lane
      (x.quantile ((List.range (1 + 2 * x.buckets)).map (s.counter x)) (readFloat 8 false (key % 2 ^ 32))))) ∧
  (∀ s id o a p x hdr, s.op id = some o → o.kind = .skinit a p hdr → s.objectOf a p = some x → s.writeFree o = true →
    s.stalled o = false → s.tokensHeld o = true → s.midStep x.pa = false → 6 ≤ x.osz → hdr.length = 6 →
    ∃ t, exec (.sketchInitPerform id) s = .next t ∧ t.ops = s.ops.filter (fun q => q.id != id) ∧
      (∀ b, b < x.pa ∨ x.pa + 2 ^ x.osz ≤ b → t.byte b = s.byte b) ∧
      t.dword x.pa = (hdr.getD 0 0).toNat ∧ t.dword (x.pa + 8) = (hdr.getD 1 0).toNat ∧ t.dword (x.pa + 16) = 0 ∧
      t.dword (x.pa + 24) = 0 ∧ (∀ i, i < 4 → t.dword (x.pa + 32 + 8 * i) = (hdr.getD (2 + i) 0).toNat) ∧
      ∀ b, x.pa + 64 ≤ b → b < x.pa + 2 ^ x.osz → t.byte b = 0) ∧
  (∀ s id o a b p q x y, Assayed s id o o a p x (List.range x.count) → s.objectOf b q = some y → s.midStep x.pa = false →
    s.objectBad y (List.range y.count) = false → y.held ≠ 0 → o.kind = .skmerge a b p q →
    (x.sameAs y = true → ∃ t : State, exec (.sketchMergePerform id) s = .next t ∧ t.ops = s.ops.filter (fun q => q.id != id) ∧
      (x.reports = false → (∀ c, c < x.pa ∨ x.pa + 2 ^ x.osz ≤ c → t.byte c = s.byte c) ∧
        t.cells x = ((s.cells x).zip (s.cells y)).map (fun c =>
          if x.kind = 1 ∨ x.kind = 3 then max c.1 c.2 else min (c.1 + c.2) x.max) ∧
        t.dword (x.pa + 16) = min (x.n + y.n) (2 ^ 64 - 1) ∧ t.dword x.pa = s.dword x.pa)) ∧
    (x.sameAs y = false → exec (.sketchMergePerform id) s = .next ((s.dropOp id).lateFault o
      { cause := causeMerge, lanes := o.src.lanes, addr := a.addr }))) ∧
  ∀ s id o a p x, Assayed s id o o a p x (List.range x.count) → s.midStep x.pa = false → o.kind = .skfold a p →
    (x.foldHeader = none → exec (.sketchFoldPerform id) s = .next ((s.dropOp id).lateFault o
      { cause := causeType, lanes := o.src.lanes, addr := a.addr })) ∧
    ∀ h, x.foldHeader = some h → ∃ t : State, exec (.sketchFoldPerform id) s = .next t ∧
      t.ops = s.ops.filter (fun q => q.id != id) ∧
      (x.reports = false → (∀ c, c < x.pa ∨ x.pa + 2 ^ x.osz ≤ c → t.byte c = s.byte c) ∧ t.dword x.pa = h ∧
        let y : Sketch := { x with d := h :: x.d.drop 1 }
        t.cells y = x.foldCells (s.cells x))

/-- R322, R335, R336 and R342: the fabric's words as they issue: what each judges, and what it asks for. Some clauses rest on
readings and choices of the model (notes/assumptions/27, 28). -/
def Obligations.FabricWordsIssue : Prop :=
  CollectiveForm 0 .collSum ∧ CollectiveForm 1 .collMin ∧ CollectiveForm 2 .collMax ∧ CollectiveForm 3 .collNse ∧
  CollectiveForm 4 .collNsb ∧ CollectiveForm 5 .collSkm ∧
  (∀ d a s v, Passes s v
      { reads := [.s a.toNat], writes := [.s d.toNat], long := true,
        ok := bitsOf (v.w.sreg a.toNat).toNat 29 35 == 0 && decide (bitsOf (v.w.sreg a.toNat).toNat 27 2 < 2) } →
    let x := (v.w.sreg a.toNat).toNat
    ∃ t : State, WordDone (.grpchg d a) s v true [.s d.toNat] (t.endRegion v) ∧
      OneRequest s t v (.grpchg d.toNat (bitsOf x 0 12) (bitsOf x 12 15) (bitsOf x 27 2 == 1))) ∧
  ∀ d a n s v, Passes s v
      { reads := [.v d.toNat, .v (d.toNat + 1), .s a.toNat], long := true,
        ok := d.toNat % 2 == 0 && bitsOf (v.w.sreg a.toNat).toNat 46 18 == 0 } →
    let x := (v.w.sreg a.toNat).toNat
    let g := s.group (bitsOf x 0 12)
    (65535 ≤ counter v.w 4 → WordHolds (.mcst d a n) s v .held s) ∧
    (counter v.w 4 < 65535 → ∃ (t : State) (m : Multicast), WordDone (.mcst d a n) s v true [] (t.endRegion v) ∧
      t.ops = s.ops ++ [⟨s.nextId, .mcst m, v.src, true, true, s.nextId, s.nextId⟩] ∧
      Tab.lookup v.key t.warps = some (countedUp v.w 4) ∧ t.mem = s.mem ∧
      m.tag = n.toNat ∧ m.group = bitsOf x 0 12 ∧ m.window = bitsOf x 12 6 ∧ m.line = bitsOf x 18 28 ∧
      m.replies = [] ∧ m.combined = none ∧ (m.sent = true ↔ g.valid = true ∧ g.ctx = v.crew.ctx) ∧
      (m.sent = true → m.gen = g.gen ∧ ∀ r, r ∈ m.members ↔ ∃ i, i < 512 ∧ g.mask.getLsbD i = true ∧ r = g.base + i) ∧
      m.data.length = 256 ∧ ∀ k, k < 256 → m.data.getD k 0 =
        ((v.w.vreg (d.toNat + k / 128)).get (k % 128 / 4)).extractLsb' (8 * (k % 4)) 8)

/-- R321, R334, R336 to R343 and R345: requests, grants and results of steps, membership, timers and parked ranks.
Some clauses rest on readings and choices of the model (notes/assumptions/28). -/
def Obligations.CollectiveSteps : Prop :=
  (∀ s g r k c la, s.asker g r = some (k, c) → s.crewIssued k (s.crewColls k g r.step) = true →
    s.cage.getD (dieOf c.core) 0 ≠ 0 → s.isParked c.ctx r.rank = false → s.isMember c.ctx g r.rank = true →
    (s.root g).next ≤ r.step → Tab.get 0 (s.root g).joined r.rank ≤ r.step → Tab.lookup c.launch s.launches = some la →
    (∀ e ∈ s.crewColls k g r.step, s.fenced e.2.1 = false) →
    ((s.crewColls k g r.step).map (·.1)).Nodup →
    ∃ (t : State) (x : CollStep) (q : CollRequest), exec (.collRequestAtRoot g r) s = .next t ∧ x ∈ (t.root g).steps ∧
      x.no = r.step ∧ q ∈ x.requests ∧ q.rank = r.rank ∧ q.crewRow = r.crewRow ∧ q.crewCol = r.crewCol ∧ q.step = r.step ∧
      (∀ e ∈ s.crewColls k g r.step, e.1 < la.warps → q.data.getD e.1 [] = e.2.2.data) ∧
      (∀ o ∈ t.ops, ∀ x, o.kind = .coll x → (∃ e ∈ s.crewColls k g r.step, e.2.1.id = o.id) → x.requested = true) ∧
      t = { s with fabric := t.fabric, ops := t.ops }) ∧
  (∀ s g r k c e, s.asker g r = some (k, c) → s.crewIssued k (s.crewColls k g r.step) = true →
    s.cage.getD (dieOf c.core) 0 ≠ 0 → s.isParked c.ctx r.rank = false → s.isMember c.ctx g r.rank = false →
    s.crewColls k g r.step = [e] → s.collsTurn [e] = true → s.cageFree e.2.1 e.2.2.bar = true →
    ∃ t : State, exec (.collRequestAtRoot g r) s = .next t ∧ Retired s t e.2.1 2 ∧
      Recorded s t e.2.1.src.ctx causeCollective (BitVec.ofNat 32 (2 * 2 ^ 28 + e.2.2.step % 2 ^ 28))) ∧
  (∀ s g r, s.asker g r = none → r.rank ≠ s.rankOf (s.group g).ctx → s.isMember (s.group g).ctx g r.rank = true →
    r.gen = (s.group g).gen → (s.root g).next ≤ r.step → s.isParked (s.group g).ctx r.rank = false →
    ∃ (t : State) (x : CollStep), exec (.collRequestAtRoot g r) s = .next t ∧ x ∈ (t.root g).steps ∧ x.no = r.step ∧
      r ∈ x.requests ∧ t = { s with fabric := t.fabric }) ∧
  (∀ s g x, stepAt s g (s.root g).next = some x → (s.group g).valid = true → x.state = .opened → groupMembers (s.group g) ≠ [] →
    (∀ m ∈ groupMembers (s.group g), s.hasAsked (s.group g).ctx g m x = true) →
    ∃ t y, exec (.collStepGrant g) s = .next t ∧ (t.root g).next = (s.root g).next + 1 ∧ stepAt t g x.no = some y ∧
      y = { x with state := if collAgree x.requests then .moving else .failed
                   gen := (s.group g).gen
                   members := groupMembers (s.group g) } ∧ t = { s with fabric := t.fabric }) ∧
  (∀ s g x m, stepAt s g (s.root g).next = some x → m ∈ groupMembers (s.group g) → s.hasAsked (s.group g).ctx g m x = false →
    exec (.collStepGrant g) s = .next s) ∧
  (∀ (s : State) (g : Nat) (x : CollStep) (e : Nat × Op × Collective) (w : Warp) (l : List CollRequest) (ws : Nat)
      (z : Nat → Nat → Option Nat) (n : Nat → Nat → Nat) (raised : Nat → Nat → Exc),
    let op := e.2.2.operation
    let ty := e.2.2.type
    let cnt := collCount e.2.2.desc
    let per := tileCount ty
    s.stepDue g = some x → s.takers g x.no = [[e]] →
    s.cageFree e.2.1 e.2.2.bar = true → Tab.lookup e.2.1.src.warp s.warps = some w → e.2.1.kind = .coll e.2.2 →
    op ≤ 4 → ty ≤ 10 → (op = 3 ∨ op = 4 → 7 ≤ ty) → x.requests ≠ [] → InParticipants x.requests l → l.length < 65536 → e.1 < ws → cnt ≤ 32 * per →
    (∀ r ∈ x.requests, r.operation = op ∧ r.type = ty ∧ r.count = cnt ∧ r.warps = ws ∧
      ∀ y ∈ r.data.getD e.1 [], y.toNat < 2 ^ elemWidth ty) →
    (∀ k i, k < ws → i < cnt → CollElemOf l op ty k i (z k i) (n k i) (raised k i)) →
    ∃ (t : State) (u : Warp), exec (.collStepResult g) s = .next t ∧ Tab.lookup e.2.1.src.warp t.warps = some u ∧
      u.oc = w.oc.map 2 (· - 1) ∧ (∀ o ∈ t.ops, o.id ≠ e.2.1.id) ∧ (∀ y ∈ (t.root g).steps, y.no ≠ x.no) ∧
      (x.state = .moving → let exc := (Exc.sum ((List.range ws).flatMap fun k => (List.range cnt).map (raised k))).once
        (∀ i, i < cnt → (∀ y, z e.1 i = some y → u.tileElem ty e.2.2.tile (i / per) (i % per) = y) ∧
          (z e.1 i = none → 3 ≤ op → u.tileElem ty e.2.2.tile (i / per) (i % per) = 0)) ∧
        CollCounts op per cnt e.2.2.tile (n e.1) u ∧ u.flags = (w.raiseExc exc).flags ∧ u.xc = (w.raiseExc exc).xc ∧
        (∀ r, r < 8 * e.2.2.tile ∨ 8 * e.2.2.tile + (if 3 ≤ op then 16 else 8) ≤ r → u.vreg r = w.vreg r) ∧ u.s = w.s ∧ u.p = w.p) ∧
      (x.state = .failed → u.v = w.v ∧ u.s = w.s ∧ u.p = w.p ∧
        Recorded s t e.2.1.src.ctx causeCollective (BitVec.ofNat 32 (2 ^ 28 + e.2.2.step % 2 ^ 28))) ∧
      ∀ pa, s.barAt e.2.1 e.2.2.bar = some pa → fieldAt s pa 7 = 0xB0B1 → OnlyBytes { t with mem := s.mem } t pa 16 ∧
        Completes t pa (fieldAt s pa 1) (min (fieldAt s pa 0 + 1) 65535) (fieldAt s pa 3) (fieldAt s pa 2) (fieldAt s pa 5)
          false) ∧
  (∀ (s : State) (g : Nat) (x : CollStep) (e : Nat × Op × Collective) (p : Page) (y : Sketch) (l : List CollRequest),
    s.stepDue g = some x → s.takers g x.no = [[e]] → e.2.2.operation = 5 →
    s.collObject e.2.1.src.ctx e.2.2.object = some (p, y) → y.held ≠ 0 → InParticipants x.requests l → l ≠ [] →
    (∀ r ∈ x.requests, (requestObject r).sameAs y = true ∧ (requestObject r).body.length = y.count ∧
      ∀ c ∈ (requestObject r).body, c ≤ if y.kind = 1 then 1 else if y.kind = 3 then 63 else y.max) →
    (x.state = .moving → s.outsideFree y.pa (agentOf e.2.1.id) = true → s.midStep y.pa = false → y.reports = false →
      ∃ t : State, exec (.collStepResult g) s = .next t ∧ (∃ q ∈ (t.root g).steps, q.no = x.no ∧ q.state = .merged) ∧
        t.warps = s.warps ∧ t.ops = s.ops ∧ (∀ c, c < y.pa ∨ y.pa + 2 ^ y.osz ≤ c → t.byte c = s.byte c) ∧
        (∀ j, j < y.count → let cells := l.map fun r => (requestObject r).body.getD j 0
          (t.cells y)[j]? = some (if y.kind = 1 ∨ y.kind = 3 then cells.foldl max 0 else min cells.sum y.max)) ∧
        t.dword (y.pa + 16) = min (l.map fun r => (requestObject r).n).sum (2 ^ 64 - 1) ∧ t.dword y.pa = s.dword y.pa) ∧
    (x.state = .merged → s.objectDirty e.2.1 y = true → exec (.collStepResult g) s = .next s) ∧
    (x.state = .merged → s.objectDirty e.2.1 y = false → s.cageFree e.2.1 e.2.2.bar = true → ∃ t : State,
      exec (.collStepResult g) s = .next t ∧ Retired s t e.2.1 2 ∧ ∀ q ∈ (t.root g).steps, q.no ≠ x.no)) ∧
  (∀ s g x, stepAt s g (s.root g).next = some x → x.state = .opened →
    let late := (groupMembers (s.group g)).filter fun m => !s.hasAsked (s.group g).ctx g m x
    (late ≠ [] → (∀ m ∈ late, s.isParked (s.group g).ctx m = false) → exec (.stepTimerExpiry g) s = .next
      { s with fabric := { s.fabric with reports := s.fabric.reports ++ [(g, x.no, late)] } }) ∧
    ((∃ m ∈ late, s.isParked (s.group g).ctx m = true) → exec (.stepTimerExpiry g) s = .next s)) ∧
  (∀ s ctx rank, ∃ t, exec (.rankPark ctx rank) s = .next t ∧ t.isParked ctx rank = true ∧ t.mem = s.mem ∧ t.warps = s.warps ∧
    (∀ c r, (c, r) ≠ (ctx, rank) → t.isParked c r = s.isParked c r)) ∧
  (∀ s ctx rank, ∃ t, exec (.rankUnpark ctx rank) s = .next t ∧ t.isParked ctx rank = false ∧ t = { s with fabric := t.fabric } ∧
    (∀ c r, (c, r) ≠ (ctx, rank) → t.isParked c r = s.isParked c r)) ∧
  (∀ s id o d g rank remove w, s.op id = some o → o.kind = .grpchg d g rank remove → s.fenced o = false → Tab.lookup o.src.warp s.warps = some w →
    (∀ x ∈ s.ops, ∀ a b c, x.kind = .grpchg a g b c → x = o) →
    let e := s.group g
    let st := if g = 0 ∨ e.valid = false ∨ e.ctx ≠ o.src.ctx then 1
      else if rank < e.base ∨ e.base + 511 < rank then 2
      else if (remove = true ∧ rank ∉ groupMembers e) ∨ (remove = false ∧ rank ∈ groupMembers e) then 3
      else if remove = true ∧ (groupMembers e).length = 1 then 4 else 0
    ∃ (t : State) (u : Warp), exec (.groupChangeApply id) s = .next t ∧ Tab.lookup o.src.warp t.warps = some u ∧
      (∀ r, r ≠ d → u.sreg r = w.sreg r) ∧ (∀ x ∈ t.ops, x.id ≠ id) ∧ t.mem = s.mem ∧
      (st ≠ 0 → t.group g = e ∧ u.sreg d = BitVec.ofNat 64 (e.gen * 256 + st)) ∧
      (st = 0 → t.group g = { e with gen := (e.gen + 1) % 65536
                                     mask := e.mask ^^^ BitVec.ofNat 512 (2 ^ (rank - e.base)) } ∧
        u.sreg d = BitVec.ofNat 64 ((s.root g).next % 2 ^ 32 * 2 ^ 32 + (e.gen + 1) % 65536 * 256))) ∧
  ∀ s i e, i < 4096 → e.base % 512 = 0 → e.base < 32768 → e.gen < 65536 → e.ctx < 65536 →
    let fresh := (s.group i).valid = false ∨ (s.group i).ctx ≠ e.ctx
    let old := groupMembers (s.group i)
    let new := if e.valid then groupMembers e else []
    let starts := fresh ∨ (s.rankOf e.ctx ∈ new ∧ s.rankOf e.ctx ∉ old)
    ∃ t, exec (.groupTableWrite i e) s = .next t ∧ t.group i = e ∧ (∀ j, j ≠ i → t.group j = s.group j ∧ t.root j = s.root j) ∧
      (fresh → t.root i = ⟨0, [], []⟩) ∧
      (¬ fresh → (t.root i).next = (s.root i).next ∧
        (∀ m, Tab.get 0 (t.root i).joined m = if m ∈ new ∧ m ∉ old then (s.root i).next else Tab.get 0 (s.root i).joined m) ∧
        ((∀ m ∈ old, m ∈ new) → (t.root i).steps = (s.root i).steps) ∧
        ∀ x ∈ (t.root i).steps, x.state = .opened → ∀ q ∈ x.requests, q.rank ∈ old → q.rank ∈ new) ∧
      t = { s with fabric := t.fabric, crews := t.crews, ops := t.ops } ∧ (fresh ∨ (∀ m ∈ old, m ∈ new) → t.ops = s.ops) ∧
      (∀ k c, Tab.lookup k s.crews = some c → ∃ d, Tab.lookup k t.crews = some d ∧ d = { c with steps := d.steps } ∧
        (¬ (starts ∧ c.ctx = e.ctx) → d = c) ∧ (starts → c.ctx = e.ctx → ∀ w, w < 64 → Tab.get 0 d.steps (64 * i + w) = 0)) ∧
      let q := fun (n : Nat) => (groupWords (t.group i)).getD n 0
      (q 0).getLsbD 63 = e.valid ∧ (q 0).extractLsb' 57 6 = 0 ∧ (q 0).extractLsb' 42 15 = BitVec.ofNat 15 e.base ∧
      ((q 0).extractLsb' 32 10).toNat = ((List.range 512).filter fun r => e.mask.getLsbD r).length ∧
      (q 0).extractLsb' 16 16 = BitVec.ofNat 16 e.gen ∧ (q 0).extractLsb' 0 16 = BitVec.ofNat 16 e.ctx ∧
      ∀ r, r < 512 → (q (1 + r / 64)).getLsbD (r % 64) = e.mask.getLsbD r

/-- R322 to R326 and R330: multicasts on their way, and lane accesses and those of peers at their target in this module. Some
clauses rest on readings and choices of the model (notes/assumptions/26, 27). -/
def Obligations.MulticastsAndFabricTargets : Prop :=
  (∀ s n o m, s.op n = some o → o.kind = .mcst m → m.sent = true → s.fenced o = false → s.behindNacked o = false → ∃ t, exec (.mcstSwitchReplicate n) s = .next t ∧
    t.op n = some { o with kind := .mcst { m with replicated := true } } ∧ t = { s with ops := t.ops }) ∧
  (∀ s n o m rank, s.op n = some o → o.kind = .mcst m → m.awaits rank = true → s.behindNackedTo o rank = false →
    let replied := fun (t : State) (c : Nat) => t.op n = some { o with kind := .mcst { m with replies := m.replies ++ [(rank, c)] } }
    (∀ pa, s.routeOf o.src.ctx rank o.id = some s.fabric.me → s.memberLine o.src.ctx m.window m.line = .ok pa →
      s.outsideFree pa (agentOf o.id) = true → ∃ t, exec (.mcstMemberDelivery n rank none) s = .next t ∧ replied t 0 ∧ Wrote s t pa m.data) ∧
    (∀ c, s.routeOf o.src.ctx rank o.id = some s.fabric.me → s.memberLine o.src.ctx m.window m.line = .error c →
      ∃ t, exec (.mcstMemberDelivery n rank none) s = .next t ∧ replied t c ∧ t.mem = s.mem) ∧
    (s.routeOf o.src.ctx rank o.id = none → ∃ t, exec (.mcstMemberDelivery n rank none) s = .next t ∧ replied t 1 ∧ t.mem = s.mem) ∧
    ∃ t, exec (.fabricReplyLimit n rank) s = .next t ∧ replied t 4 ∧ t = { s with ops := t.ops, fabric := t.fabric }) ∧
  (∀ s n rank x pa bs, x.size = 256 → x.offset % 256 = 0 → x.action = .write bs → bs.length = 256 → s.rankHere x = true →
    s.memberLine x.ctx x.window (x.offset / 256) = .ok pa → s.outsideFree pa = true →
    ∃ t, exec (.mcstMemberDelivery n rank (some x)) s = .next t ∧ Wrote s t pa bs) ∧
  (∀ s n o m, s.op n = some o → o.kind = .mcst m → m.combined = none →
    (m.sent = false ∨ (∀ r ∈ m.members, ∃ q ∈ m.replies, q.1 = r) → ∃ t, exec (.mcstReplyCombine n) s = .next t ∧
      t.op n = some { o with kind := .mcst { m with combined := some s.time } } ∧ t = { s with ops := t.ops }) ∧
    (m.sent = true → (∃ r ∈ m.members, ∀ q ∈ m.replies, q.1 ≠ r) → exec (.mcstReplyCombine n) s = .next s)) ∧
  (∀ s n o m time c q x, s.op n = some o → o.kind = .mcst m → m.combined = some time → Tab.lookup o.src.ctx s.ctxs = some c →
    c.statusQ = some q → s.oldest o = true → m.nacks.length ≤ 8 → s.walkCtx o.src.ctx (q.base + 64 * (q.next % q.slots)) = some x →
    (s.word x.pa).getLsbD 23 = false → m.tag < 128 → m.members.length < 1024 → m.group < 4096 → m.gen < 65536 → m.window < 64 →
    ∃ (t : State) (d : Context), exec (.mcstCompletionWrite n) s = .next t ∧ Retired s t o 4 ∧
      Tab.lookup o.src.ctx t.ctxs = some d ∧ d.statusQ = some { q with next := (q.next + 1) % q.slots } ∧
      (∀ a, a < x.pa ∨ x.pa + 64 ≤ a → t.byte a = s.byte a) ∧
      t.word x.pa = BitVec.ofNat 32 (2 ^ 24 + 2 ^ 23 + m.tag * 2 ^ 16 + (if m.sent then 0 else 4096) + m.nacks.length) ∧
      t.word (x.pa + 4) = BitVec.ofNat 32 (m.group * 2 ^ 20 + (m.members.length - m.nacks.length) * 2 ^ 10 + m.members.length) ∧
      t.word (x.pa + 8) = BitVec.ofNat 32 (m.gen * 2 ^ 16 + m.window) ∧ t.word (x.pa + 12) = BitVec.ofNat 32 m.line ∧
      t.word (x.pa + 16) = loWord time ∧ t.word (x.pa + 20) = hiWord time) ∧
  (∀ s id o w p cached l got, s.op id = some o → o.kind = .load w p cached l got → onFabric l = true → s.loadFree o = true →
    o.granted = true → (∀ x ∈ l, x.size = w.size) →
    (∀ x ∈ s.earlier o, x.kind.isStore = false) → s.ordered o = true → s.behindNacked o = false →
    let no := fun (y : Xlat) => if p.geom = 2 then refusePlain y else refuseLoad (modeType o.src.mode) w.dest w.size y
    ∀ (there : Access → Nat × Nat × Page), (∀ x ∈ s.eventOf l, s.remote o.src.ctx o.id x.addr = false ∧
      s.fabLane o (p.geom == 1) true false no x = .ok (there x) ∧ (there x).2.2.type = .plain ∧ s.leased (there x).2.1 = false) →
    GotValues (.fabAccessTarget id none) s o w p false (leftAfter l (s.eventOf l)) (got ++ (s.eventOf l).map fun x =>
      ⟨x.lane, plainValue o.src.mode x.size (s.bytes (there x).2.1 x.size), x.size == 8, Exc.none, false⟩)) ∧
  (∀ s id o rel exc l, s.op id = some o → o.kind = .store rel exc l → onFabric l = true → l ≠ [] → o.completed = false →
    o.granted = true → s.behindNacked o = false → s.opsOfStore o onFabric = [o] → (l.map (·.place)).Nodup →
    (∀ x ∈ l, x.lane < 32 ∧ s.remote o.src.ctx o.id x.addr = false ∧ ∃ f va pa pg, x.fabData = some f ∧
      s.fabLane o f.raw false true (refuseStore o.src.mode x.size x.fabData) x = .ok (va, pa, pg) ∧ pg.type = .plain) →
    ∃ t, exec (.fabAccessTarget id none) s = .next t ∧ t.mem = s.mem ∧ t.op id = some { o with
      kind := .store rel Exc.none (l.map fun x => { x with data := leBytes ((x.fabData.map (·.bits)).getD 0) x.size })
      granted := true, completed := true, doneAt := s.nextId }) ∧
  (∀ s id o exc x a pa, s.op id = some o → o.kind = .store none exc [x] → x.place = .fab a → o.completed = true →
    s.writeFree o = true → s.remote o.src.ctx o.id x.addr = false → s.acceptedAt o.src.ctx x.addr = some pa →
    s.outsideFree pa (agentOf o.id) = true → ∃ t, exec (.fabAccessTarget id none) s = .next t ∧ Wrote s t pa x.data ∧ ∀ y ∈ t.ops, y.id ≠ id) ∧
  (∀ s id o op d size cmp x a va pa pg, s.op id = some o → o.kind = .atomic op d size cmp [x] → x.place = .fab a → s.writeFree o = true →
    s.behindNacked o = false → s.remote o.src.ctx o.id x.addr = false → s.fabLane o false true true refusePlain x = .ok (va, pa, pg) →
    s.outsideFree pa (agentOf o.id) = true → size = 4 ∨ size = 8 → x.data.length = size → ∃ t z, exec (.fabAccessTarget id none) s = .next t ∧ Wrote s t pa (leBytes z size) ∧
      newValue op (modeType o.src.mode) size (leNat (s.bytes pa size)) (leNat x.data) (cmp.headD 0).toNat z) ∧
  (∀ s id o w p cached got x a c n, s.op id = some o → o.kind = .load w p cached [x] got → x.place = .fab a → s.loadFree o = true → o.granted = true →
    (∀ y ∈ s.earlier o, y.kind.isStore = false) → s.ordered o = true → s.behindNacked o = false →
    s.remote o.src.ctx o.id x.addr = false → s.wordLeft w = [x] → x.lane < 32 →
    s.fabLane o (p.geom == 1) true false (fun y => if p.geom = 2 then refusePlain y else
      refuseLoad (modeType o.src.mode) w.dest w.size y) x = .error (c, n) →
    ∃ y : FaultInfo, exec (.fabAccessTarget id none) s = .next (((s.dropWord o).lateFault o y).countNack (s.portOf o)) ∧ y.cause = c ∧
      y.addr = x.addr ∧ y.info = BitVec.ofNat 32 n ∧ ∀ m, m < 32 → (y.lanes.getLsbD m = true ↔ m = x.lane)) ∧
  (∀ s id x, s.rankHere x = false → ∃ t, exec (.fabAccessTarget id (some x)) s = .next t ∧ t = { s with fabric := t.fabric }) ∧
  (∀ s id x bs va y, x.action = .write bs → bs.length = x.size → s.fabPage x.ctx x.window x.offset x.size false true = .ok (va, y) →
    y.leaf.typeCode < 5 → s.rankHere x = true →
    (s.outsideFree y.pa = true → ∃ t, exec (.fabAccessTarget id (some x)) s = .next t ∧ Wrote s t y.pa bs) ∧
    (s.outsideFree y.pa = false → ∃ t, exec (.fabAccessTarget id (some x)) s = .next t ∧ t.mem = s.mem ∧
      t.outside = s.outside ++ [(s.nextId, .peer x va)])) ∧
  (∀ s id x bs e, x.action = .write bs → s.fabPage x.ctx x.window x.offset x.size false true = .error e →
    ∃ t, exec (.fabAccessTarget id (some x)) s = .next t ∧ t = { s with fabric := t.fabric }) ∧
  (∀ s id x m va y, x.action = .read m → s.rankHere x = true → s.fabPage x.ctx x.window x.offset x.size true false = .ok (va, y) → s.leased y.pa = false →
    ∃ t, exec (.fabAccessTarget id (some x)) s = .next t ∧ t = { s with directory := t.directory } ∧
      ∃ h ∈ Tab.get [] t.directory (y.pa / 256), h.who = .peer m ∧ ∀ k, k < 64 → y.pa % 256 / 4 ≤ k →
        k ≤ (y.pa % 256 + x.size - 1) / 4 → h.valid.getLsbD k = true) ∧
  ∀ s id x op ty b cmp va y, x.action = .atomic op ty b cmp → s.rankHere x = true → s.fabPage x.ctx x.window x.offset x.size true true = .ok (va, y) →
    y.leaf.typeCode = 0 → x.size = 4 ∨ x.size = 8 → y.pa % x.size = 0 → s.uncorrectable y.pa x.size = false → b < 2 ^ (8 * x.size) →
    cmp < 2 ^ (8 * x.size) → s.outsideFree y.pa = true → ∃ t z, exec (.fabAccessTarget id (some x)) s = .next t ∧
      Wrote s t y.pa (leBytes z x.size) ∧ newValue (atomOf op) ty x.size (leNat (s.bytes y.pa x.size)) b cmp z

/-- R202, R205, R207, R326, R329, R331, R332, R346, R378 and R383: windows, remap tables and links, and memory as the host and
the control cluster use it. Some clauses rest on readings and choices of the model (notes/assumptions/26, 33, 36), among them that
port numbers of 24 and above are the links between dies, whose loss loses no rank and asks for a shot. -/
def Obligations.WindowsLinksAndHosts : Prop :=
  (∀ s ctx n c w, Tab.lookup ctx s.ctxs = some c → Tab.lookup n c.windows = some w → ∃ t, exec (.windowRevoke ctx n) s = .next t ∧
    t = { s with ctxs := t.ctxs } ∧
    (∀ off size rd wr, t.fabPage ctx n off size rd wr = .error (causeNotPresent, 2)) ∧
    ∀ m, m ≠ n → ∀ off size rd wr, t.windowAt ctx m off size rd wr = s.windowAt ctx m off size rd wr) ∧
  (∀ s ctx rank field module, 8 ≤ field ∨ 4096 ≤ module ∨ 32768 ≤ rank → exec (.remapInstall ctx rank field module) s = .next s) ∧
  (∀ s ctx rank field module c, Tab.lookup ctx s.ctxs = some c → (Tab.get [] c.remap rank).length < 2 → field < 8 → module < 4096 →
    rank < 32768 →
    ∃ (t : State), exec (.remapInstall ctx rank field module) s = .next t ∧ t = { s with ctxs := t.ctxs, fabric := t.fabric } ∧
      t.fabric = { s.fabric with lost := if Tab.get [] c.remap rank = [] then s.fabric.lost.filter (· != rank) else s.fabric.lost } ∧
      (∀ id, s.nextId ≤ id → t.routeOf ctx rank id = some (field, module)) ∧
      (∀ id, id < s.nextId → s.routeOf ctx rank id ≠ none → t.routeOf ctx rank id = s.routeOf ctx rank id)) ∧
  (∀ s ctx rank c e f, Tab.lookup ctx s.ctxs = some c → Tab.get [] c.remap rank = [e, f] →
    ((e.field, e.module) = s.fabric.me → rank = c.rank → s.rankLeft ctx = false → exec (.remapDrain ctx rank) s = .next s) ∧
    ((e.field, e.module) ≠ s.fabric.me ∨ rank ≠ c.rank ∨ s.rankLeft ctx = true →
      ∃ t u : State, exec (.remapDrain ctx rank) s = .next t ∧ (∀ id, t.routeOf ctx rank id = some (f.field, f.module)) ∧
        rank ∉ t.fabric.lost ∧
        exec (.remapRetire ctx rank) t = .next u ∧ (∀ id, u.routeOf ctx rank id = some (f.field, f.module)) ∧
        (s.outstanding ctx rank f.since = true → u.ctxs = t.ctxs) ∧
        (s.outstanding ctx rank f.since = false → ∃ d f', Tab.lookup ctx u.ctxs = some d ∧ Tab.get [] d.remap rank = [f'])) ∧
    (f.drained = false → exec (.remapRetire ctx rank) s = .next { s with ctxs := Tab.put ctx c s.ctxs })) ∧
  (∀ s port rank, port < 24 → ∃ t, exec (.linkLoss (port, rank)) s = .next t ∧ rank ∈ t.fabric.lost ∧ port ∈ t.fabric.down ∧
    (∀ r ∈ s.fabric.lost, r ∈ t.fabric.lost) ∧ (∀ p ∈ s.fabric.down, p ∈ t.fabric.down) ∧
    t.mem = s.mem ∧ (s.shot ≠ none → t.shot = s.shot) ∧ (s.plant.shotMask.getLsbD 3 = false → t.shot ≠ none)) ∧
  (∀ s port rank, 24 ≤ port → ∃ t, exec (.linkLoss (port, rank)) s = .next t ∧ t.fabric.lost = s.fabric.lost ∧ port ∈ t.fabric.down ∧
    t.mem = s.mem ∧ (s.shot ≠ none → t.shot = s.shot) ∧ (s.plant.shotMask.getLsbD 3 = false → t.shot ≠ none)) ∧
  (∀ s pa bs i, pa / 256 = (pa + bs.length - 1) / 256 → bs ≠ [] → i = Instr.controlClusterAccess pa (some bs) ∨
      (i = .hostCxlAccess pa (some bs) ∧ ∀ k, k < bs.length → Config.hostVisible (pa + k) = true) →
    let free := s.outsideFree pa = true ∧ ∀ e ∈ s.outside, ∀ p d, e.2 = .line p d → p / 256 ≠ pa / 256
    ∃ t, exec i s = .next t ∧ (free → Wrote s t pa bs) ∧
      (¬ free → t.mem = s.mem ∧ t.outside = s.outside ++ [(s.nextId, .line pa bs)])) ∧
  (∀ s pa, exec (.controlClusterAccess pa none) s = .next s ∧ (Config.hostVisible pa = false → exec (.hostCxlAccess pa none) s = .next s) ∧
    ∃ t, exec (.hostCxlAccess pa none) s = .next t ∧ t.mem = s.mem) ∧
  (∀ s pa bs, (∃ i, i < bs.length ∧ Config.hostVisible (pa + i) = false) → exec (.hostCxlAccess pa (some bs)) s = .next s) ∧
  (∀ s pa, Config.hostMemory (pa / 64 * 64) = false → exec (.cxlCacheSnoop pa) s = .next s) ∧
  ∀ s pa, Config.hostMemory (pa / 64 * 64) = true → ∃ t, exec (.cxlCacheSnoop pa) s = .next t ∧
    ∀ a, a / 64 ≠ pa / 64 → t.byte a = s.byte a

/-- R353, R355, R358, R360 and R361: the stope words as they issue. Some clauses rest on readings and choices of the model
(notes/assumptions/29). -/
def Obligations.StopeWordsIssue : Prop :=
  (∀ d a n s v, let count := 128 * d.toNat + n.toNat
    let x := (v.w.sreg a.toNat).toNat
    let y := (v.w.sreg (a.toNat + 1)).toNat
    Passes s v
      { reads := [.s a.toNat, .s (a.toNat + 1)], long := true,
        ok := a.toNat % 2 == 0 && decide (a.toNat ≤ 62) && bitsOf x 57 7 == 0 && x % 4 == 0 && bitsOf y 28 36 == 0 &&
          bitsOf y 12 8 == 0 && decide (1 ≤ count ∧ count ≤ 4096 ∧ bitsOf y 0 12 + count ≤ 4096) } →
    let r := s.regionPages v false 2 x (4 * count)
    StopeCommand (.stopeLoad d a n) s v (bitsOf y 20 8) r false (.stopeLoad (bitsOf y 20 8) (bitsOf y 0 12) x
      (r.1.flatMap fun p => (List.range (p.2.2 / 4)).map fun i => p.2.1 + 4 * i))) ∧
  (∀ a s v, let r := fun (i : Nat) => (v.w.sreg (a.toNat + i)).toNat
    Passes s v
      { reads := (List.range 4).map fun i => .s (a.toNat + i), long := true,
        ok := a.toNat % 4 == 0 && decide (a.toNat ≤ 60) && bitsOf (r 0) 57 7 == 0 && r 0 % 256 == 0 && bitsOf (r 1) 0 12 == 0 &&
          bitsOf (r 1) 32 32 != 0 && bitsOf (r 2) 32 32 == 0 && r 2 != 0 } →
    let chan := bitsOf (r 1) 12 3 * 32 + bitsOf (r 1) 15 5
    let p := s.regionPages v true (r 2 / 256 + 2) (r 0) (256 * r 2)
    StopeCommand (.stopeRun a) s v chan p true
      (.stopeRun ⟨chan, BitVec.ofNat 32 (bitsOf (r 1) 32 32), bitsOf (r 1) 20 12, r 0, r 2, v.w.sreg (a.toNat + 3), p.1⟩ false [])) ∧
  (∀ d a s v, Passes s v
      { reads := [.s a.toNat], writes := [.s d.toNat], ok := decide ((v.w.sreg a.toNat).toNat < 256) } →
    let chan := (v.w.sreg a.toNat).toNat
    let left := ∃ o ∈ s.ops, o.src.warp = v.key ∧ o.id < since s v ∧ ∃ r b us, o.kind = .stopeRun r b us ∧ r.chan = chan
    (s.ownsChannel v.crew.ctx chan = false → WordFaults (.stopeWait d a) s v { cause := causePermission, lanes := v.act }) ∧
    (s.ownsChannel v.crew.ctx chan = true → left → WordHolds (.stopeWait d a) s v .held (countedFrom s v)) ∧
    (s.ownsChannel v.crew.ctx chan = true → ¬ left → ∃ w, exec (.stopeWait d a) s = .next (s.after (s.setWarp v.key w) v false none
        false false) ∧ w = { v.w with s := w.s, bad := v.w.bad.filter (· != .s d.toNat), stopeMasks := w.stopeMasks } ∧
      w.sreg d.toNat = (Tab.get 0 v.w.stopeMasks chan).setWidth 64 ∧ (∀ r, r ≠ d.toNat → w.sreg r = v.w.sreg r) ∧
      Tab.get 0 w.stopeMasks chan = 0 ∧ ∀ c, c ≠ chan → Tab.get 0 w.stopeMasks c = Tab.get 0 v.w.stopeMasks c)) ∧
  GatherForm 0 .gredAdd ∧ GatherForm 1 .gredMin ∧ GatherForm 2 .gredMax

/-- R206, R347 to R356, R358 and R359: programs loaded, runs started, a unit's clause, its end or fault, runs and gather-reduces
retired, and leases aborted. Some clauses rest on readings and choices of the model (notes/assumptions/29). -/
def Obligations.StopeUnitsWork : Prop :=
  (∀ s id o chan off va ps, s.op id = some o → o.kind = .stopeLoad chan off va ps → ps ≠ [] → s.oldest o = true → s.fenced o = false →
    (∀ x ∈ s.ops, x = o ∨ x.kind.stopeAt = none) → (∀ p ∈ ps, s.leased p = false ∧ s.uncorrectable p 4 = false) →
    ∃ t, exec (.stopeLoadPerform id) s = .next t ∧ Retired s t o 3 ∧ t.mem = s.mem ∧
      let old := Tab.get Channel.free s.channels chan
      let new := Tab.get Channel.free t.channels chan
      new.owner = old.owner ∧ (∀ i, i < ps.length → Tab.get 0 new.store (off + i) = s.word (ps.getD i 0)) ∧
      ∀ j, j < off ∨ off + ps.length ≤ j → Tab.get 0 new.store j = Tab.get 0 old.store j) ∧
  (∀ s id o r us, s.op id = some o → o.kind = .stopeRun r false us → s.writesLeft o = false → s.runBlocked o r = false → s.fenced o = false →
    ∃ t us', exec (.stopeRunStart id) s = .next t ∧ t.op id = some { o with kind := .stopeRun r true us' } ∧
      ⟨id, o.src.ctx, r.pages.map fun p => (frameOf p.2.1, p.2.2)⟩ ∈ t.leases ∧
      (∀ b, b < 32 → r.banks.getLsbD b = true → ∃ u, Tab.lookup b us' = some u ∧ u.ended = false ∧ u.bad = none ∧
        u.w.sreg 0 = BitVec.ofNat 64 (r.columns b) ∧ u.w.sreg 1 = r.arg ∧ u.w.sreg 2 = BitVec.ofNat 64 r.lines ∧
        u.w.sreg 3 = BitVec.ofNat 64 (32 * r.chan + b) ∧ u.w.frags.map (·.pc) = [BitVec.ofNat 64 (4 * r.entry)] ∧
        (∀ n, u.w.vreg n = Lanes.zero) ∧ ∀ n, u.w.pred n = 0) ∧
      (∀ b, r.banks.getLsbD b = false → Tab.lookup b us' = none) ∧
      ∀ n, (∃ p ∈ r.pages, frameOf p.2.1 ≤ frameOf (256 * n) ∧ frameOf (256 * n) < frameOf p.2.1 + p.2.2) →
        Tab.lookup n t.unflushed = none) ∧
  (∀ s chan bank o r us u, s.unitAt chan bank = some (o, r, us, u) → u.bad = none → u.exited = false → s.op o.id = some o →
    (∀ c va pa, columnIn r bank r.pages c = some (va, pa) → s.tokensLet pa (agentOf o.id) = true) →
    ∃ (t : State) (x : StopeUnit), exec (.stopeClauseIssue chan bank) s = .next t ∧ UnitTo s t o r us bank x ∧ x.ended = u.ended ∧
      t = { s with ops := t.ops, mem := t.mem, dram := t.dram, directory := t.directory, bad := t.bad, ctxs := t.ctxs } ∧
      (∀ k y, Tab.lookup k s.ctxs = some y → ∃ z, Tab.lookup k t.ctxs = some z ∧ z = { y with tokens := z.tokens }) ∧
      ((∀ f ∈ u.w.frags, f.mask = 3) → ∀ a, (∀ c va pa, columnIn r bank r.pages c = some (va, pa) → a < pa ∨ pa + 32 ≤ a) →
        t.byte a = s.byte a) ∧
      (∀ f, u.w.frags = [f] → let a := f.pc.toNat % 16384 / 4
        let h := Tab.get 0 (Tab.get Channel.free s.channels r.chan).store a
        h.extractLsb' 25 7 ≠ 0x7F → t.mem = s.mem ∧ x.w = u.w ∧ ∃ lanes, x.bad = some (1, a, 0, lanes))) ∧
  (∀ s chan bank o r us u, s.unitAt chan bank = some (o, r, us, u) → u.bad = none → u.exited = true →
    ∃ t, exec (.stopeUnitEnd chan bank) s = .next t ∧ UnitTo s t o r us bank { u with ended := true } ∧ t = { s with ops := t.ops }) ∧
  (∀ s chan bank o r us u k pcw a lanes c, s.unitAt chan bank = some (o, r, us, u) → u.bad = some (k, pcw, a, lanes) →
    k < 16 → chan < 256 → bank < 32 → pcw < 4096 → Tab.lookup o.src.ctx s.ctxs = some c →
    ∃ t d, exec (.stopeFault chan bank) s = .next t ∧ UnitTo s t o r us bank { u with ended := true } ∧
      Recorded s t o.src.ctx causeStope (BitVec.ofNat 32 (k * 2 ^ 28 + chan * 2 ^ 20 + bank * 2 ^ 15 + pcw)) ∧
      Tab.lookup o.src.ctx t.ctxs = some d ∧ (c.state = .running → d.state = .descheduled) ∧ t.mem = s.mem) ∧
  (∀ s id o r us w, s.op id = some o → o.kind = .stopeRun r true us → (∀ u ∈ us, u.2.ended = true) → s.oldest o = true →
    Tab.lookup o.src.warp s.warps = some w →
    ∃ t u, exec (.stopeRunRetire id) s = .next t ∧ Retired s t o 3 ∧ (∀ l ∈ t.leases, l.op ≠ id) ∧ t.mem = s.mem ∧
      Tab.lookup o.src.warp t.warps = some u ∧
      (∀ b, b < 32 → ((Tab.get 0 u.stopeMasks r.chan).getLsbD b = true ↔ (Tab.get 0 w.stopeMasks r.chan).getLsbD b = true ∨
        ∃ x, Tab.lookup b us = some x ∧ x.bad ≠ none)) ∧
      u.flags = (w.raiseExc (Exc.sum (us.map fun x => x.2.w.xc)).once).flags) ∧
  (∀ s id o r us page, s.op id = some o → o.kind = .stopeRun r true us → (∃ u ∈ us, u.2.ended = false) → r.chan < 256 →
    (∃ p ∈ r.pages, p.1 / 65536 ≤ page / 65536 ∧ page / 65536 ≤ (p.1 + p.2.2 - 1) / 65536) →
    ∃ t us', exec (.leaseAbort id page) s = .next t ∧ t.op id = some { o with kind := .stopeRun r true us' } ∧
      us'.map (·.1) = us.map (·.1) ∧ (∀ b u, Tab.lookup b us = some u → ∃ x, Tab.lookup b us' = some x ∧ (u.bad ≠ none → x = u) ∧
        (u.bad = none → x.ended = true ∧ x.w = u.w)) ∧ t.mem = s.mem ∧
      Recorded s t o.src.ctx causeLease (BitVec.ofNat 32 (r.chan * 2 ^ 20))) ∧
  (∀ s id o gop d p alive x got pa, s.op id = some o → o.kind = .gred gop d p alive [x] got → x.place = .pa pa →
    s.fenced o = false → s.leased pa = false → s.unitAt (bankKey pa / 32) (bankKey pa % 32) = none → s.uncorrectable pa 4 = false →
    ∃ t new, exec (.gredRetire id) s = .next t ∧ t.op id = some { o with kind := .gred gop d p alive [] new } ∧
      new.Perm ((32 * bankKey pa + x.lane, leNat (s.bytes pa 4)) :: got) ∧
      (got.Pairwise (fun a b => a.1 ≤ b.1) → new.Pairwise fun a b => a.1 ≤ b.1) ∧ t = { s with ops := t.ops }) ∧
  ∀ (s : State) (id : Nat) (o : Op) (gop d p : Nat) (alive : LaneMask) (got : List (Nat × Nat)) (w : Warp) (keys : List Nat)
      (z : Nat → Nat) (raised : Nat → Exc), s.op id = some o → o.kind = .gred gop d p alive [] got → s.oldest o = true →
    gop < 3 → modeType o.src.mode ∈ [1, 2, 8] → got.Pairwise (fun a b => a.1 ≤ b.1) → (∀ e ∈ got, e.2 < 2 ^ 32) →
    keys.Pairwise (· < ·) → (∀ k, k ∈ keys ↔ ∃ e ∈ got, e.1 / 32 = k) →
    (∀ n, n < keys.length →
      GredFoldOf o.src.mode gop ((got.filter fun e => e.1 / 32 == keys.getD n 0).map (·.2)) (z n) (raised n)) →
    Tab.lookup o.src.warp s.warps = some w →
    ∃ t u, exec (.gredRetire id) s = .next t ∧ Retired s t o 1 ∧ Tab.lookup o.src.warp t.warps = some u ∧ u.s = w.s ∧
      t.mem = s.mem ∧ let exc := (Exc.sum ((List.range keys.length).map raised)).once
      u.flags = (w.raiseExc exc).flags ∧ u.xc = (w.raiseExc exc).xc ∧
      ∀ n, n < 32 →
        (alive.getLsbD n = true → (u.vreg d).get n = (if n < keys.length then BitVec.ofNat 32 (z n) else 0) ∧
          (u.pred p).getLsbD n = decide (n < keys.length)) ∧
        (alive.getLsbD n = false → (u.vreg d).get n = (w.vreg d).get n ∧ (u.pred p).getLsbD n = (w.pred p).getLsbD n)

/-- R37, R39 to R42, R45, R49 to R51, R57, R333, R356, R362, R363 and R386: launches submitted, dispatched and ended, and what
Gallery sets of queues and contexts. A launch's crews get the values of UREG and the records of BREC as memory holds them when it
is submitted. Some clauses rest on readings and choices of the model (notes/assumptions/30, 37, 40, 42). -/
def Obligations.LaunchesAndSettings : Prop :=
  (∀ d a b s v, Passes s v { reads := [.s a.toNat, .b b.toNat], writes := [.s d.toNat], long := true } →
    (¬ AllPerformed s v.key (since s v) → WordHolds (.launch d a b) s v .held (countedFrom s v)) ∧
    ∀ r, r = s.releaseCore v.crew.core → AllPerformed s v.key (since s v) → (WrittenBack s r v.crew.core fun _ => true) ∧
      (¬ Released r v.key (since s v) 0x3F → WordHolds (.launch d a b) s v .held (countedFrom r v)) ∧
      (Released r v.key (since s v) 0x3F →
        let reach := v.uniformReach r (bufOf (v.w.breg b.toNat)) 64 true true .plain (loWord (v.w.sreg a.toNat)).toNat
        (∀ e, reach = .error e → exec (.launch d a b) s = .next (r.takeFault v.key v.no e v.c.pos v.c.header .replay)) ∧
        ∀ va x c, reach = .ok (.mem va x) → r.uncorrectable x.pa 64 = false →
          Tab.lookup v.crew.ctx s.ctxs = some c → c.state ≠ .stopped →
          let who := agentOf (since s v)
          let l := launchOf v.crew.ctx va (r.recordWords x.pa) [] []
          let u := r.regionPages v false 3 l.uregSpan.1 l.uregSpan.2
          let q := r.regionPages v false 3 l.brecSpan.1 l.brecSpan.2
          let m := launchOf v.crew.ctx va (r.recordWords x.pa) (r.pageBytes u.1) (r.pageBytes q.1)
          (u.2 ++ q.2 ≠ [] → exec (.launch d a b) s =
            .next (r.takeFault v.key v.no (v.pagesFault (u.2 ++ q.2) false) v.c.pos v.c.header .replay)) ∧
          (u.2 ++ q.2 = [] → r.firstBadByte (u.1 ++ q.1) = none →
            (r.outsideFree x.pa who = false → WordHolds (.launch d a b) s v .held (countedFrom (r.outsideAsk x.pa who) v)) ∧
            (r.outsideFree x.pa who = true → ∃ (t : State) (code : Nat),
              WordDone (.launch d a b) s v true [.s d.toNat] (t.endRegion v) ∧ Submitted r t m code ∧
              LaunchValues r u.1 l.uregAt 8 l.nureg m.ureg ∧ LaunchValues r q.1 l.brecAt 16 l.nbrec m.brec ∧
              t.ops = s.ops ++ [⟨s.nextId + 1, .result [.s d.toNat (BitVec.ofNat 64 code)] Exc.none, v.src,
                true, false, s.nextId + 1, s.nextId + 1⟩])))) ∧
  (∀ s ctx record, (s.plainSpan ctx true 1 record 64 = none ∨ record % 64 ≠ 0 → exec (.hostLaunchSubmit ctx record) s = .next s) ∧
    ∀ p pa n c, record % 64 = 0 → s.plainSpan ctx true 1 record 64 = some [(p, pa, n)] →
    Tab.lookup ctx s.ctxs = some c → c.state ≠ .stopped → let l := launchOf ctx record (s.recordWords pa) [] []
    (s.plainSpan ctx false 3 l.uregSpan.1 l.uregSpan.2 = none ∨ s.plainSpan ctx false 3 l.brecSpan.1 l.brecSpan.2 = none →
      exec (.hostLaunchSubmit ctx record) s = .next s) ∧
    ∀ u q, s.plainSpan ctx false 3 l.uregSpan.1 l.uregSpan.2 = some u → s.plainSpan ctx false 3 l.brecSpan.1 l.brecSpan.2 = some q →
      let m := launchOf ctx record (s.recordWords pa) (s.pageBytes u) (s.pageBytes q)
      (s.outsideFree pa = false → exec (.hostLaunchSubmit ctx record) s = .next (s.outsideAsk pa)) ∧
      (s.outsideFree pa = true → ∃ t code, exec (.hostLaunchSubmit ctx record) s = .next t ∧ Submitted s t m code ∧
        LaunchValues s u l.uregAt 8 l.nureg m.ureg ∧ LaunchValues s q l.brecAt 16 l.nbrec m.brec)) ∧
  (∀ s n k rest l c, let q := Tab.get LaunchQueue.free s.queues n
    q.waiting = k :: rest → q.enabled = true → q.cls < s.placement.length → Tab.lookup k s.launches = some l →
    Tab.lookup l.ctx s.ctxs = some c → c.queuesSet = true → c.state ≠ .stopped → s.groupInUse l = false →
    (l.dep = 0 → ∃ t, exec (.queueDispatch n) s = .next t ∧ Dispatched s t n k l) ∧
    (l.dep ≠ 0 → ∀ pa a, s.barObject l.ctx l.dep false = some (pa, a) →
      (a.reached l.phase = true → ∃ t, exec (.queueDispatch n) s = .next t ∧ Dispatched s t n k l) ∧
      (a.reached l.phase = false → exec (.queueDispatch n) s = .next s)) ∧
    (l.dep ≠ 0 → s.barObject l.ctx l.dep false = none →
      (s.statusFree k l = false → exec (.queueDispatch n) s = .next (s.statusAsk k l)) ∧
      (s.statusFree k l = true → ∃ t, exec (.queueDispatch n) s = .next t ∧
        StatusBytes s t l 0x8007 ∧ Tab.get LaunchQueue.free t.queues n = { q with waiting := rest }))) ∧
  (∀ s k l pa a, Tab.lookup k s.launches = some l → (0x8001 ≤ l.status ∧ l.status ≤ 0x8007) ∨ l.status = 3 →
    (l.done = 0 → ∃ t, exec (.launchCompletion k) s = .next t ∧ Tab.lookup k t.launches = none ∧ t.mem = s.mem) ∧
    (l.done ≠ 0 → s.barObject l.ctx l.done true = some (pa, a) → s.outsideFree pa (agentOf k) = true →
      ∃ t, exec (.launchCompletion k) s = .next t ∧ Tab.lookup k t.launches = none ∧ OnlyBytes { t with mem := s.mem } t pa 16 ∧
        Completes t pa (fieldAt s pa 1) (min (fieldAt s pa 0 + 1) 65535) (fieldAt s pa 3) (fieldAt s pa 2) (fieldAt s pa 5) false)) ∧
  (∀ s k l, Tab.lookup k s.launches = some l → l.status = 2 →
    (s.launchOver k l = false → exec (.launchCompletion k) s = .next s) ∧
    (s.launchOver k l = true → (∀ e ∈ s.crewsOf k, e.2.image = none → ∀ a q, ¬ DirtyAt s e.2.core (fun _ => true) a q) → s.launchFlushed k = true →
      s.statusFree k l = true → l.done = 0 → ∃ t, exec (.launchCompletion k) s = .next t ∧ Tab.lookup k t.launches = none ∧
        StatusBytes s t l 3)) ∧
  (∀ s n owner cls e, n < 256 → cls < 4 → ∃ t, exec (.queueConfig n owner cls e) s = .next t ∧ t = { s with queues := t.queues } ∧
    Tab.get LaunchQueue.free t.queues n = ⟨some owner, cls, e, (Tab.get LaunchQueue.free s.queues n).waiting⟩ ∧
    ∀ m, m ≠ n → Tab.get LaunchQueue.free t.queues m = Tab.get LaunchQueue.free s.queues m) ∧
  (∀ s ctx (f e st rq : QueueSetting) c, Tab.lookup ctx s.ctxs = some c → c.queuesSet = false ∨ c.state = .descheduled →
    (∀ q ∈ [(64, 10, f), (32, 10, e), (64, 10, st), (32, 6, rq)], q.2.2.base % q.1 = 0 ∧ ∃ i, i ≤ q.2.1 ∧ q.2.2.slots = 64 * 2 ^ i) →
    ∃ t d, exec (.contextQueuesSet ctx f e st rq) s = .next t ∧ Tab.lookup ctx t.ctxs = some d ∧ d.queuesSet = true ∧
      ∀ q ∈ [(f, d.faultQ), (e, d.eventQ), (st, d.statusQ), (rq, d.requestQ)], ∃ r, q.2 = some r ∧ r.base = q.1.base ∧
        r.slots = q.1.slots ∧ r.next = 0) ∧
  (∀ s ctx (x : ContextSetting), 1 ≤ x.weight → x.weight ≤ 15 → ctx < 65536 → x.root % 8192 = 0 →
    ∃ t d, exec (.contextSettings ctx x) s = .next t ∧ Tab.lookup ctx t.ctxs = some d ∧ d.root = x.root ∧ d.weight = x.weight ∧
      d.drifts = x.drifts ∧ d.privileged = x.privileged ∧ d.rank = x.rank ∧ t = { s with ctxs := t.ctxs }) ∧
  (∀ s ctx c, Tab.lookup ctx s.ctxs = some c → ∃ t d, exec (.contextStop ctx) s = .next t ∧ Tab.lookup ctx t.ctxs = some d ∧
    d.state = .stopped ∧ (∀ k l, Tab.lookup k t.launches = some l → l.ctx = ctx → 3 ≤ l.status) ∧
    (∀ k x, Tab.lookup k t.crews = some x → x.ctx = ctx → x.state = .exited) ∧
    (∀ k w, Tab.lookup k t.warps = some w → s.ctxOfCrew w.crew = ctx → w.retired = true ∧ ∀ f ∈ w.frags, f.park = none) ∧
    (∀ o ∈ t.ops, o.src.ctx = ctx → o.kind.stopeAt = none) ∧ ∀ l ∈ t.leases, l.ctx ≠ ctx) ∧
  ∀ s ctx c, Tab.lookup ctx s.ctxs = some c → ∃ t d, exec (.contextResume ctx) s = .next t ∧ Tab.lookup ctx t.ctxs = some d ∧
    d = { c with state := if c.state = .descheduled then .running else c.state } ∧ t = { s with ctxs := t.ctxs }

/-- R34, R38, R43, R44, R46, R61, R63 to R68, R70, R345, R375 and R382: crews placed, put out, brought back and moved, shootdowns, the
end of a context, and spares. Some clauses rest on readings and choices of the model (notes/assumptions/20, 31, 42, 44). -/
def Obligations.CrewsAndPlaces : Prop :=
  (∀ s core k l g, s.coreFree core = true → s.returning (s.driftAt core) = [] → Tab.lookup k s.launches = some l →
    s.startFree k l = true →
    (∀ o, earliest (s.incomplete (s.driftAt core)) = some (o, g, k) → ∃ t, exec (.crewPlacement core) s = .next t ∧
      CrewStarts s t core k l g (s.started k g)) ∧
    (∀ cls, earliest (s.incomplete (s.driftAt core)) = none → s.head = some (cls, k, g) →
      s.bestDrift l.ctx = some (s.driftAt core) → ∃ t, exec (.crewPlacement core) s = .next t ∧ CrewStarts s t core k l g 0 ∧
        t.placement.getD cls [] = (s.placement.getD cls []).drop 1)) ∧
  (∀ s core, s.coreFree core = false ∨ s.returning (s.driftAt core) ≠ [] → exec (.crewPlacement core) s = .next s) ∧
  (∀ s die n, die < 4 → n ≤ 4 → die < s.cage.length → die < s.cageGoal.length →
    let busy := ∃ e ∈ s.crews, ∃ d ∈ cageDrifts die (s.cage.getD die 0) n,
      if e.2.state = .evicted then s.home e.2 = some d else s.driftAt e.2.core = d ∧ s.occupies e.2 = true
    ∃ t, exec (.cageReservationChange die n) s = .next t ∧ t.cageGoal.getD die 0 = n ∧
      t.cage = (if busy then s.cage else s.cage.set die n)) ∧
  (∀ s core cls k g l x c, s.head = some (cls, k, g) → Tab.lookup k s.launches = some l → s.bestDrift l.ctx = none →
    s.victim cls l = some (x, c) → c.core = core → s.startFree k l = true → l.spad = 0 →
    (∀ n w, s.nextOut x core l = some (n, w) → n < 64 * s.nextId →
      (s.evictable n w = true → ∃ t u, exec (.partialEviction core) s = .next t ∧ Tab.lookup n t.warps = some u ∧ u.evicted = true) ∧
      (s.evictable n w = false → exec (.partialEviction core) s = .next s)) ∧
    (s.crewFits core l = true →
      (s.backWarps core ≠ [] → exec (.partialEviction core) s = .next s) ∧
      (s.backWarps core = [] → ∃ t, exec (.partialEviction core) s = .next t ∧ CrewStarts s t core k l g 0))) ∧
  (∀ (s : State) cls (l : Launch) x c q, s.victim cls l = some (x, c) → q ∈ s.fullQuads c.core l → l.spad = 0 →
    ∃ (n : Nat) (w : Warp), s.nextOut x c.core l = some (n, w) ∧ w.crew = x) ∧
  (∀ s core, s.backWarps core ≠ [] →
    ∃ t k w, exec (.evictedRestore core) s = .next t ∧ w.evicted = true ∧ (∃ c, (c, k, w) ∈ s.outWarps core) ∧
      (∃ u, Tab.lookup k t.warps = some u ∧ u.evicted = false) ∧ t.crews = s.crews ∧ t.mem = s.mem) ∧
  (∀ s core k c i x, s.backWarps core = [] →
    s.coreFree core = true → s.returning (s.driftAt core) = [(k, c)] → c.image = some i → Tab.lookup i s.images = some x →
    ∃ t, exec (.evictedRestore core) s = .next t ∧
      (x.bad = false → (CrewBack t k { c with placed := s.nextId } core) ∧ t.mem = s.mem ∧ t.warps = s.warps ∧
        ∀ y, Tab.lookup c.ctx s.ctxs = some y → t.physOf c.ctx c.core = core) ∧
      (x.bad = true → ∀ n w, Tab.lookup n s.warps = some w → w.crew = k →
        ∃ u, Tab.lookup n t.warps = some u ∧ u.bad = w.allRegs)) ∧
  (∀ s drift, drift < 64 → NoTokens s → s.onDrift drift ≠ [] → s.swapImage drift = none →
    (∀ e ∈ s.onDrift drift, s.crewSavable e.1 e.2 = true) → ∃ t i, exec (.driftSwap drift) s = .next t ∧
      (∀ e ∈ s.onDrift drift, CrewOut s t e.1 s.nextId) ∧ Tab.lookup s.nextId t.images = some i ∧
      i.die = drift / 16 ∧ i.drift = some drift ∧ i.bad = false ∧
      (i.shadow = true ↔ s.shadowUsed (drift / 16) + i.size ≤ 64 * 2 ^ 20) ∧
      (∀ e ∈ s.onDrift drift, ∀ c, Tab.lookup e.1 s.crews = some c → Tab.lookup e.1 i.slots = some (s.placeOf c.core % 16)) ∧
      ∀ ctx c, Tab.lookup ctx s.ctxs = some c → s.onChip ctx = true → t.onChip ctx = false → s.inStep ctx = true →
        t.isParked ctx (s.rankOf ctx) = true) ∧
  (∀ s drift i x, drift < 64 → NoTokens s → s.onDrift drift = [] → s.swapImage drift = some i → Tab.lookup i s.images = some x →
    x.bad = false → ((s.inImage i).map (·.1)).Nodup → ∃ t, exec (.driftSwap drift) s = .next t ∧
      ∀ e ∈ s.inImage i, CrewBack t e.1 e.2 (s.coreAt (16 * drift + Tab.get 0 x.slots e.1))) ∧
  (∀ s k c i x, Tab.lookup k s.crews = some c → c.image = some i → Tab.lookup i s.images = some x →
    ∃ t, exec (.imageMove k) s = .next t ∧ Tab.lookup i t.images = some { x with shadow := false } ∧ t = { s with images := t.images }) ∧
  (∀ s ctx drift away i x k c, s.imageOf ctx = some i → Tab.lookup i s.images = some x → x.bad = false →
    s.inImage i = [(k, c)] →
    (∀ e ∈ s.crews, c.sameGroup e.2 = true → e.1 = k ∨ (e.2.state = .exited ∧ e.2.spadMacros = 0)) →
    (∀ a, Tab.lookup c.launch s.launches = some a → s.started c.launch c.group = a.crews) →
    let core := s.coreAt (16 * drift + Tab.get 0 x.slots k)
    let open' := drift ∈ s.allowed ctx ∧ s.coreFree core = true ∧ (away = true → s.exported ctx i = true)
    (open' → ∃ t, exec (.contextMigrateResume ctx (drift, away)) s = .next t ∧ CrewBack t k c core ∧
      (∀ a d, Tab.lookup c.launch s.launches = some a → Tab.lookup c.group a.drift = some d →
        ∃ b, Tab.lookup c.launch t.launches = some b ∧ Tab.lookup c.group b.drift = some drift) ∧
      (away = false → t.warps = s.warps) ∧
      (away = true → ∀ n w, Tab.lookup n s.warps = some w → w.crew = k → (w.frags.map fun f => fragNo f.mask).Nodup →
        ∃ u, Tab.lookup n t.warps = some u ∧ ∀ f ∈ u.frags, f.state ≠ .parked)) ∧
    (¬ open' → exec (.contextMigrateResume ctx (drift, away)) s = .next s)) ∧
  (∀ s ctx page log, let lo := page - page % 2 ^ log
    let hi := lo + 2 ^ log
    let gone := fun (t : State) => ∀ e ∈ t.tlb, ∀ x ∈ e.2, ¬ (x.ctx = ctx ∧ x.base < hi ∧ lo < x.base + 2 ^ x.log)
    let quiet := (∀ o ∈ s.ops, s.inPage o ctx lo hi = false) ∧ ∀ e ∈ s.crews, ∀ m ∈ e.2.engine, s.matInPage m ctx lo hi = false
    (log ∉ [16, 21, 30] ∨ s.leasedIn ctx lo hi = true → exec (.shootdown ctx (page, log)) s = .next s) ∧
    (log ∈ [16, 21, 30] → s.leasedIn ctx lo hi = false → ∃ t : State, exec (.shootdown ctx (page, log)) s = .next t ∧ gone t ∧
      (¬ quiet → t = { s with tlb := t.tlb }) ∧
      (quiet → (∀ core a q, ¬ DirtyAt t core (fun _ => true) a q) ∧
        (∀ e, e ∈ t.waits ↔ e ∈ s.waits ∧ ¬ ∃ g r y, e.2 = .page ctx g r y ∧ lo / 65536 ≤ g ∧ g < hi / 65536 ∧
          t.walkCtx ctx (65536 * g) = none ∧ s.parkedUnder e.1 = false) ∧
        t = { s with tlb := t.tlb, waits := t.waits, mem := t.mem, directory := t.directory, bad := t.bad,
                     unflushed := t.unflushed, cores := t.cores }))) ∧
  (∀ s ctx c, Tab.lookup ctx s.ctxs = some c → (∀ o ∈ s.ops, o.src.ctx = ctx → o.kind.writes = false) →
    ∃ t, exec (.contextDestroy ctx) s = .next t ∧ Tab.lookup ctx t.ctxs = none ∧ (∀ e ∈ t.crews, e.2.ctx ≠ ctx) ∧
      (∀ e ∈ t.launches, e.2.ctx ≠ ctx) ∧ (∀ o ∈ t.ops, o.src.ctx ≠ ctx) ∧ (∀ e ∈ t.trust.keys, e.2 ≠ ctx) ∧
      ((s.trust.keys.map (·.1)).Nodup → ∀ slot, Tab.lookup slot s.trust.keys = some ctx →
        Tab.get 0 t.trust.cleared slot = Tab.get 0 s.trust.cleared slot + 1) ∧
      (∀ n, (Tab.get LaunchQueue.free t.queues n).owner ≠ some ctx) ∧ ∀ n, (Tab.get Channel.free t.channels n).owner ≠ some ctx) ∧
  (∀ s failing spare, failing < 1024 → spare < 16 → NoTokens s → let old := s.coreAt failing
    (∀ e ∈ s.crews, e.2.core = old → s.occupies e.2 = true → s.crewSavable e.1 e.2 = true) →
    (∀ e ∈ s.plant.spares, dieOf e.1 = dieOf failing → e.2 ≠ spare) → ∃ t, exec (.spareRemap true failing spare) s = .next t ∧
      Tab.lookup failing t.plant.spares = some spare ∧ t.coreAt failing = 1024 + 16 * (failing / 256) + spare ∧
      (∀ k c, Tab.lookup k s.crews = some c → c.core = old → s.occupies c = true →
        Tab.lookup k t.crews = some { c with core := t.coreAt failing }) ∧
      (∀ ctx y u, Tab.lookup ctx s.ctxs = some y → Tab.lookup u y.cores = some old → t.physOf ctx u = t.coreAt failing) ∧
      t.warps = s.warps) ∧
  ∀ s failing, failing / 32 < 256 → (Tab.get Channel.free s.channels (failing / 32)).spare = none →
    (∀ o ∈ s.ops, o.kind.stopeAt = none) → ∃ t, exec (.spareRemap false failing 0) s = .next t ∧
      (Tab.get Channel.free t.channels (failing / 32)).spare = some (failing % 32) ∧
      t = { s with channels := t.channels, ctxs := t.ctxs } ∧
      (∀ ctx c, Tab.lookup ctx s.ctxs = some c → t.bankOf ctx (failing / 32) (failing % 32) = 32 ∧
        ∃ d, Tab.lookup ctx t.ctxs = some d ∧ d = { c with banks := d.banks }) ∧
      ∀ ctx bank, bank < 32 → bank ≠ failing % 32 → t.bankOf ctx (failing / 32) bank = s.bankOf ctx (failing / 32) bank

/-- R205, R326, R329, R353 and R366 to R368: calls to Gallery, its services, and its answers. Some clauses rest on readings and
choices of the model (notes/assumptions/32, 37). -/
def Obligations.CallsToGallery : Prop :=
  (∀ d a n s v, Passes s v { reads := [.s a.toNat], writes := [.s d.toNat], long := true } →
    (¬ AllPerformed s v.key (since s v) → WordHolds (.sys d a n) s v .held (countedFrom s v)) ∧
    ∀ r, r = s.releaseCore v.crew.core → AllPerformed s v.key (since s v) → (WrittenBack s r v.crew.core fun _ => true) ∧
      (¬ Released r v.key (since s v) 0x3F → WordHolds (.sys d a n) s v .held (countedFrom r v)) ∧
      (Released r v.key (since s v) 0x3F → ∀ c, Tab.lookup v.crew.ctx s.ctxs = some c →
        (c.requestQ = none → WordHolds (.sys d a n) s v .held (countedFrom r v)) ∧
        ∀ q x, c.requestQ = some q → r.walkCtx v.crew.ctx (q.base + 32 * (q.next % q.slots)) = some x →
          ((r.word x.pa).getLsbD 24 = true → WordHolds (.sys d a n) s v .held (countedFrom r v)) ∧
          ((r.word x.pa).getLsbD 24 = false → v.w.id < 64 → v.crew.row < 65536 → v.crew.col < 65536 → ∃ (t : State) (e : Context),
            WordDone (.sys d a n) s v true [.s d.toNat] (t.endRegion v) ∧
            t.ops = s.ops ++ [⟨s.nextId, .sys n.toNat (v.w.sreg a.toNat) d.toNat c.seq none, v.src, true, false, s.nextId,
              s.nextId⟩] ∧
            t.word x.pa = BitVec.ofNat 32 (n.toNat * 2 ^ 25 + 2 ^ 24) ∧ t.word (x.pa + 4) = BitVec.ofNat 32 (v.w.id * 2 ^ 26) ∧
            t.word (x.pa + 8) = BitVec.ofNat 32 (v.crew.row * 2 ^ 16 + v.crew.col) ∧ t.word (x.pa + 12) = c.seq ∧
            t.word (x.pa + 16) = loWord (v.w.sreg a.toNat) ∧ t.word (x.pa + 20) = hiWord (v.w.sreg a.toNat) ∧
            t.word (x.pa + 24) = loWord s.time ∧ t.word (x.pa + 28) = hiWord s.time ∧
            (∀ b, b < x.pa ∨ x.pa + 32 ≤ b → t.byte b = r.byte b) ∧
            Tab.lookup v.crew.ctx t.ctxs = some e ∧ e = { c with requestQ := some { q with next := (q.next + 1) % q.slots }
                                                                 seq := c.seq + 1 }))) ∧
  (∀ s o arg d seq, s.op o.id = some o → o.kind = .sys 0 arg d seq none →
    ∃ t, Served (.sysEcho o.id) s t o 0 arg d seq arg ∧ t = { s with ops := t.ops }) ∧
  (∀ s o arg d seq c, s.op o.id = some o → o.kind = .sys 1 arg d seq none → Tab.lookup o.src.ctx s.ctxs = some c →
    let log := bitsOf arg.toNat 0 5
    let r : TokenRegion := ⟨bitsOf arg.toNat 16 41 * 65536, log, none, [], [], none⟩
    let good := bitsOf arg.toNat 5 11 = 0 ∧ bitsOf arg.toNat 57 7 = 0 ∧ 16 ≤ log ∧ log ≤ 30 ∧ r.base % 2 ^ log = 0
    let clash := ∃ u ∈ c.tokens, r.base < u.base + 2 ^ u.log ∧ u.base < r.base + 2 ^ log
    (¬ good → ∃ t, Served (.sysRegisterTokenRegion o.id) s t o 1 arg d seq (BitVec.ofNat 64 (2 ^ 63 + 2)) ∧ t = { s with ops := t.ops }) ∧
    (good → clash → ∃ t, Served (.sysRegisterTokenRegion o.id) s t o 1 arg d seq (BitVec.ofNat 64 (2 ^ 63 + 3)) ∧
      t = { s with ops := t.ops }) ∧
    (good → ¬ clash → 256 ≤ c.tokens.length → ∃ t, Served (.sysRegisterTokenRegion o.id) s t o 1 arg d seq
      (BitVec.ofNat 64 (2 ^ 63 + 4)) ∧ t = { s with ops := t.ops }) ∧
    (good → ¬ clash → c.tokens.length < 256 → ∃ t, Served (.sysRegisterTokenRegion o.id) s t o 1 arg d seq 0 ∧
      tokensOf t o.src.ctx = c.tokens ++ [r] ∧ t.mem = s.mem)) ∧
  (∀ s o arg d seq, s.op o.id = some o → o.kind = .sys 2 arg d seq none → (∀ x ∈ s.ops, ∀ c r, x.kind ≠ .tokenRelease c r) →
    ((∀ u ∈ tokensOf s o.src.ctx, u.base ≠ arg.toNat) →
      ∃ t, Served (.sysRemoveTokenRegion o.id) s t o 2 arg d seq (BitVec.ofNat 64 (2 ^ 63 + 2)) ∧ t = { s with ops := t.ops }) ∧
    (∀ r u, (tokensOf s o.src.ctx).findIdx? (fun u => u.base == arg.toNat) = some r → (tokensOf s o.src.ctx)[r]? = some u →
      u.holder = none → ∃ t, Served (.sysRemoveTokenRegion o.id) s t o 2 arg d seq 0 ∧
        tokensOf t o.src.ctx = (tokensOf s o.src.ctx).eraseIdx r ∧ t.mem = s.mem)) ∧
  (∀ s o arg d seq c, s.op o.id = some o → o.kind = .sys 3 arg d seq none → Tab.lookup o.src.ctx s.ctxs = some c →
    (s.windowBlock o.src.ctx arg.toNat = none →
      ∃ t, Served (.sysMapWindow o.id) s t o 3 arg d seq (BitVec.ofNat 64 (2 ^ 63 + 2)) ∧ t = { s with ops := t.ops }) ∧
    (∀ win base log perm, s.windowBlock o.src.ctx arg.toNat = some (win, base, log, perm) →
      let good := win < 64 ∧ 16 ≤ log ∧ log ≤ 35 ∧ base < 2 ^ 57 ∧ base % 2 ^ log = 0 ∧ perm < 4
      (¬ good → ∃ t, Served (.sysMapWindow o.id) s t o 3 arg d seq (BitVec.ofNat 64 (2 ^ 63 + 2)) ∧ t = { s with ops := t.ops }) ∧
      (good → s.windowInUse o.src.ctx win = true → exec (.sysMapWindow o.id) s = .next s) ∧
      (good → s.windowInUse o.src.ctx win = false → ∃ t, Served (.sysMapWindow o.id) s t o 3 arg d seq 0 ∧ t.mem = s.mem ∧
        (∀ off n rd wr, off + n ≤ 2 ^ log → (rd = true → perm % 2 = 1) → (wr = true → 2 ≤ perm) →
          t.windowAt o.src.ctx win off n rd wr = .ok (base + off)) ∧
        ∀ m, m ≠ win → ∀ off n rd wr, t.windowAt o.src.ctx m off n rd wr = s.windowAt o.src.ctx m off n rd wr))) ∧
  (∀ s o arg d seq c, s.op o.id = some o → o.kind = .sys 4 arg d seq none → Tab.lookup o.src.ctx s.ctxs = some c →
    (Tab.lookup arg.toNat c.windows = none →
      ∃ t, Served (.sysRevokeWindow o.id) s t o 4 arg d seq (BitVec.ofNat 64 (2 ^ 63 + 2)) ∧ t = { s with ops := t.ops }) ∧
    (∀ w, Tab.lookup arg.toNat c.windows = some w → ∃ t, exec (.sysRevokeWindow o.id) s = .next t ∧
      (∀ off n rd wr, t.windowAt o.src.ctx arg.toNat off n rd wr = .error 2) ∧
      (s.windowInUse o.src.ctx arg.toNat = true → t.ops = s.ops) ∧
      (s.windowInUse o.src.ctx arg.toNat = false → Served (.sysRevokeWindow o.id) s t o 4 arg d seq 0))) ∧
  (∀ s o arg d seq, s.op o.id = some o → o.kind = .sys 5 arg d seq none →
    let c := Tab.get Channel.free s.channels arg.toNat
    (256 ≤ arg.toNat → ∃ t, Served (.sysClaimStopeChannel o.id) s t o 5 arg d seq (BitVec.ofNat 64 (2 ^ 63 + 2))) ∧
    (arg.toNat < 256 → (∃ x, c.owner = some x ∧ x ≠ o.src.ctx) →
      ∃ t, Served (.sysClaimStopeChannel o.id) s t o 5 arg d seq (BitVec.ofNat 64 (2 ^ 63 + 5)) ∧ t = { s with ops := t.ops }) ∧
    (arg.toNat < 256 → c.owner = none ∨ c.owner = some o.src.ctx → ∃ t, Served (.sysClaimStopeChannel o.id) s t o 5 arg d seq 0 ∧
      t.ownsChannel o.src.ctx arg.toNat = true)) ∧
  (∀ s o arg d seq, s.op o.id = some o → o.kind = .sys 6 arg d seq none →
    let c := Tab.get Channel.free s.channels arg.toNat
    (arg.toNat < 256 → c.owner = some o.src.ctx → (∀ x ∈ s.ops, x.kind.stopeAt = none) →
      ∃ t, Served (.sysReleaseStopeChannel o.id) s t o 6 arg d seq 0 ∧ t.ownsChannel o.src.ctx arg.toNat = false) ∧
    (256 ≤ arg.toNat ∨ c.owner = none → ∃ t, Served (.sysReleaseStopeChannel o.id) s t o 6 arg d seq (BitVec.ofNat 64 (2 ^ 63 + 2))) ∧
    (arg.toNat < 256 → (∃ x, c.owner = some x ∧ x ≠ o.src.ctx) →
      ∃ t, Served (.sysReleaseStopeChannel o.id) s t o 6 arg d seq (BitVec.ofNat 64 (2 ^ 63 + 5)) ∧ t = { s with ops := t.ops })) ∧
  ∀ s o n arg d seq x w, s.op o.id = some o → o.kind = .sys n arg d seq x → Tab.lookup o.src.warp s.warps = some w →
    6 < n ∨ x ≠ none → ∃ t u, exec (.sysAnswer o.id) s = .next t ∧ Tab.lookup o.src.warp t.warps = some u ∧
      (n ≤ 6 → u.sreg d = x.getD 0) ∧ (6 < n → Config.service n = false → u.sreg d = BitVec.ofNat 64 (2 ^ 63 + 1)) ∧
      (∀ r, r ≠ d → u.sreg r = w.sreg r) ∧ u.v = w.v ∧ u.p = w.p ∧ (∀ y ∈ t.ops, y.id ≠ o.id) ∧ t.mem = s.mem

/-- R12, R57, R61, R71, R207, R364, R370, R371, R374 and R377 to R379: shots, replays, and errors of memory. Some clauses rest
on readings and choices of the model (notes/assumptions/33, 44). -/
def Obligations.ShotsReplaysAndErrors : Prop :=
  (∀ d a s v, Passes s v
      { reads := [.s a.toNat], writes := [.s d.toNat], long := true, ok := bitsOf (v.w.sreg a.toNat).toNat 16 48 == 0 } →
    let allowed := ∃ c, Tab.lookup v.crew.ctx s.ctxs = some c ∧ c.shots = true
    ∃ (t : State) (n : Nat), WordDone (.snap d a) s v true [.s d.toNat] (t.endRegion v) ∧
      t.ops = s.ops ++ [⟨s.nextId, .result [.s d.toNat (BitVec.ofNat 64 n)] Exc.none, v.src, true, false, s.nextId, s.nextId⟩] ∧
      (¬ allowed → n = 1 ∧ t.shot = s.shot) ∧ (allowed → s.shot ≠ none → n = 2 ∧ t.shot = s.shot) ∧
      (allowed → s.shot = none → n = 0 ∧ Latched s t .snap (some (loWord (v.w.sreg a.toNat))))) ∧
  ReplayForm true .replayTok ∧ ReplayForm false .replayPg ∧
  (∀ s token target ctx, ∃ t, exec (.galleryReplay token target ctx) s = .next t ∧
    Replayed s t ctx (if token then target else pageTarget s ctx target)) ∧
  (∀ s x, ∃ t, exec (.shotTrigger (.from x)) s = .next t ∧ Latched s t x none ∧ t = { s with shot := t.shot }) ∧
  (∀ s n, (n ≤ s.time.toNat → ∃ t, exec (.fabricShotMessage n) s = .next t ∧ Latched s t .fabric none) ∧
    (s.time.toNat < n → exec (.fabricShotMessage n) s = .next { s with shotAt := s.shotAt ++ [BitVec.ofNat 64 n] })) ∧
  (∀ s, exec .shotRelease s = .next { s with shot := none } ∧
    ∀ m, exec (.shotTrigger (.mask m)) s = .next { s with plant := { s.plant with shotMask := m } }) ∧
  (∀ s ctx b c, Tab.lookup ctx s.ctxs = some c →
    (∃ t, exec (.shotPermission ctx b) s = .next t ∧ Tab.lookup ctx t.ctxs = some { c with shots := b } ∧ t = { s with ctxs := t.ctxs }) ∧
    ∃ t, exec (.debugEnableSet ctx b) s = .next t ∧ Tab.lookup ctx t.ctxs = some { c with debug := b } ∧ t = { s with ctxs := t.ctxs }) ∧
  (∀ s pa, (∃ t, exec (.memoryError (.memory pa) false) s = .next t ∧ t.uncorrectable pa 1 = true ∧ t = { s with bad := t.bad }) ∧
    (∃ t, exec (.memoryError (.memory pa) true) s = .next t ∧ t = { s with plant := t.plant }) ∧
    ∃ t, exec (.memoryError (.l2 pa) false) s = .next t ∧ t.uncorrectable pa 1 = true ∧ t = { s with bad := t.bad }) ∧
  (∀ s place, (∀ pa, place ≠ .memory pa) → exec (.memoryError place true) s =
    .next { s with plant := { s.plant with
      corrected := s.plant.corrected + 1
      blockErrors := Tab.set 0 s.plant.blockErrors (s.blockOf place) (Tab.get 0 s.plant.blockErrors (s.blockOf place) + 1) } }) ∧
  (∀ s k w n, Tab.lookup k s.warps = some w → ∀ p ∈ [(0, Reg.v n), (1, .p n), (2, .s n), (3, .b n)],
    ∃ (t : State) (u : Warp), exec (.memoryError (.register k p.1 n) false) s = .next t ∧ Tab.lookup k t.warps = some u ∧
      p.2 ∈ u.bad ∧ u = { w with bad := u.bad } ∧ t = { s with warps := t.warps }) ∧
  (∀ s k c off, Tab.lookup k s.crews = some c → ∃ (t : State) (d : Crew), exec (.memoryError (.spad k off) false) s = .next t ∧
    Tab.lookup k t.crews = some d ∧ granuleOf off ∈ d.spadBad ∧ d = { c with spadBad := d.spadBad } ∧ t = { s with crews := t.crews }) ∧
  (∀ s core n x, (n, x) ∈ (s.core core).l1 → ∃ t, exec (.memoryError (.l1 core n) false) s = .next t ∧
    (n, { x with bad := true }) ∈ (t.core core).l1 ∧ t = { s with cores := t.cores }) ∧
  (∀ s i x, Tab.lookup i s.images = some x → ∃ t, exec (.memoryError (.image i) false) s = .next t ∧
    Tab.lookup i t.images = some { x with bad := true } ∧ t = { s with images := t.images }) ∧
  (∀ s pa, controllerOf pa ∉ s.plant.unused → s.uncorrectable pa 1 = false → granuleOf pa ∈ s.plant.soft → ∃ t, exec (.scrub (.memory pa)) s = .next t ∧
    granuleOf pa ∉ t.plant.soft ∧ t.plant.corrected = s.plant.corrected + 1 ∧ t.plant.scrubAt = pa ∧ t = { s with plant := t.plant }) ∧
  (∀ s pa ctx va, s.uncorrectable pa 1 = true → s.ownerOf (granuleOf pa * 2 ^ Config.granuleLog) = some (ctx, va) →
    let shot := fun (t : State) => (s.plant.shotMask.getLsbD 2 = true → t.shot = s.shot) ∧
      (s.plant.shotMask.getLsbD 2 = false → ∃ y, t.shot = some y ∧ (s.shot = none → y.source = .errorEvent))
    (controllerOf pa ∉ s.plant.unused → ∃ t, exec (.scrub (.memory pa)) s = .next t ∧ Recorded s t ctx causeData 0 ∧
      t.mem = s.mem ∧ t.bad = s.bad ∧ t.plant.scrubAt = pa ∧ shot t) ∧
    (∃ t, exec (.scrub (.l2 pa)) s = .next t ∧ Recorded s t ctx causeData 0 ∧ t.mem = s.mem ∧ t.bad = s.bad ∧ shot t) ∧
    ∃ t, exec (.l2EvictUncorrectable pa) s = .next t ∧ Recorded s t ctx causeData 0 ∧ t.mem = s.mem ∧
      Tab.lookup (pa / 256) t.unflushed = none) ∧
  (∀ s k c off, Tab.lookup k s.crews = some c →
    (granuleOf off ∉ c.spadBad → exec (.scrub (.spad k off)) s = .next s) ∧
    (granuleOf off ∈ c.spadBad → (Tab.lookup c.ctx s.ctxs).isSome = true → ∃ t, exec (.scrub (.spad k off)) s = .next t ∧
      Recorded s t c.ctx causeData 0 ∧ t.crews = s.crews ∧ t.mem = s.mem)) ∧
  (∀ s pa, s.uncorrectable pa 1 = false →
    exec (.l2EvictUncorrectable pa) s = .next s ∧ exec (.scrub (.l2 pa)) s = .next s) ∧
  ∀ s line, ∃ t, exec (.homeShareWriteback line) s = .next t ∧ Tab.lookup line t.unflushed = none ∧ t.mem = s.mem ∧
    (Tab.lookup line s.unflushed ≠ none → ∀ a, a / 256 = line → Tab.get 0 t.dram a = s.byte a) ∧
    (∀ a, a / 256 ≠ line → Tab.get 0 t.dram a = Tab.get 0 s.dram a)

/-- R68, R69, R296, R373 to R377, R380, R381 and R384: telemetry, power, boot, keys, measurements and exports. Some clauses rest
on readings and choices of the model (notes/assumptions/22, 34, 46). -/
def Obligations.PowerBootAndTrust : Prop :=
  (∀ s n, ∃ t r, exec (.telemetryRecord n) s = .next t ∧ t.plant = { s.plant with
      windows := []
      telemetry := s.plant.telemetry ++ [r] } ∧
    t = { s with plant := t.plant } ∧ r.time = s.time ∧ r.watts = n ∧ r.corrected = s.plant.corrected ∧
    r.blocks = s.plant.blockErrors ∧ r.controllers = s.plant.working ∧ r.windows = s.plant.windows ∧
    ∀ place q, place < 1024 → q < 4 → let core := s.coreAt place
      let g := Tab.get Governor.reset (s.core core).gov q
      (core, q, min g.clock s.plant.ceiling, g.supply) ∈ r.quads) ∧
  (∀ s n, let x := if s.plant.plim < n then s.plant.ceiling - 25 else s.plant.ceiling
    exec (.powerWindow n) s = .next { s with plant := { s.plant with ceiling := x } }) ∧
  (∀ s n, let x := if n + 50 < s.plant.plim then min 1800 (s.plant.ceiling + 25) else s.plant.ceiling
    exec (.ceilingRaise n) s = .next { s with plant := { s.plant with ceiling := x } }) ∧
  (∀ s n, let x := if 600 ≤ n ∧ n ≤ 2200 ∧ n % 25 = 0 then n else s.plant.plim
    exec (.plimSet n) s = .next { s with plant := { s.plant with plim := x } }) ∧
  (∀ s r, ∃ t, exec (.boot true r) s = .next t ∧ t.time = s.time ∧ t.fabric.me = s.fabric.me ∧ t.mem = [] ∧ t.warps = [] ∧ t.crews = [] ∧ t.ctxs = [] ∧
    t.trust.stage = 1 ∧ t.trust.code = 0xFF ∧ t.trust.degraded = false ∧ t.trust.fail = 0 ∧ t.trust.rootPorts = (.inReset, .inReset) ∧ ∀ i, i < 16 → t.trust.ms.getD i 0 = 0) ∧
  (∀ s r, s.trust.code = 0xFF → s.trust.ms.length = 16 → ∃ t, exec (.boot false r) s = .next t ∧
    t = { s with trust := t.trust, plant := t.plant, fabric := t.fabric } ∧
    ((∀ c b, r ≠ .block c b) → t = { s with trust := t.trust }) ∧
    (∀ d, r = .good d → t.trust.rootPorts = if s.trust.stage = 1 then (.headframe, .inReset)
      else if s.trust.stage = 3 then (.inReset, .inReset) else s.trust.rootPorts) ∧
    (∀ d, r = .good d → 1 ≤ s.trust.stage → s.trust.stage ≤ 5 → t.trust.stage = s.trust.stage + 1 ∧ t.trust.code = 0xFF ∧
      ∀ i, i < 16 → t.trust.ms.getD i 0 =
        if (i, s.trust.stage) ∈ [(0, 1), (1, 2), (2, 3), (3, 5)] then sha384 (bigBytes (s.trust.ms.getD i 0) ++ bigBytes d)
        else s.trust.ms.getD i 0) ∧
    (∀ d, r = .good d → s.trust.stage = 6 → t.trust.code = 0 ∧ t.trust.stage = 6) ∧
    (r = .bad → ∀ p ∈ [(1, 0x01), (2, 0x02), (5, 0x20)], s.trust.stage = p.1 → t.trust.code = p.2 ∧ t.trust.stage = p.1) ∧
    (∀ c b, r = .block c b → s.trust.stage = 4 → 0x10 ≤ c → c ≤ 0x1F → t.trust.stage = 4 ∧ t.trust.code = 0xFF ∧
      t.trust.degraded = true ∧ t.trust.fail = (if s.trust.fail = 0 then c else s.trust.fail) ∧
      (∀ n, (b = .stack n ∧ n < 8 → n ∈ t.plant.unused) ∧ (b = .channel n ∧ n < 24 → 8 + n ∈ t.plant.unused) ∧
        (b = .dieLink n → fabricPorts + n ∈ t.fabric.down) ∧ (b = .fabricPort n ∧ n < fabricPorts → n ∈ t.fabric.down)))) ∧
  (∀ s r, s.trust.code ≠ 0xFF → (∀ second, r ≠ .rootPort second) → exec (.boot false r) s = .next s) ∧
  (∀ s second, (s.trust.stage < 4 → exec (.boot false (.rootPort second)) s = .next s) ∧
    (4 ≤ s.trust.stage → ∃ t, exec (.boot false (.rootPort second)) s = .next t ∧ t = { s with trust := t.trust } ∧
      t.trust = { s.trust with rootPorts := t.trust.rootPorts } ∧
      t.trust.rootPorts = if second then (s.trust.rootPorts.1, .gallery) else (.gallery, s.trust.rootPorts.2))) ∧
  (∀ s good d, (s.trust.stage = 2 → s.trust.code = 0x02 → good = true → s.trust.ms.length = 16 →
      ∃ t, exec (.recoveryImage good d) s = .next t ∧ t.trust.stage = 3 ∧ t.trust.code = 0xFF ∧
        t.trust.ms.getD 1 0 = sha384 (bigBytes (s.trust.ms.getD 1 0) ++ bigBytes d)) ∧
    (good = false → exec (.recoveryImage good d) s = .next s)) ∧
  (∀ s slot d, s.trust.ms.length = 16 → (4 ≤ slot → slot ≤ 15 → Config.allows 0 slot = true → ∃ t, exec (.msExtend slot d) s = .next t ∧ t = { s with trust := t.trust } ∧
      ∀ i, i < 16 → t.trust.ms.getD i 0 =
        if i = slot then sha384 (bigBytes (s.trust.ms.getD i 0) ++ bigBytes d) else s.trust.ms.getD i 0) ∧
    (slot < 4 ∨ 15 < slot ∨ Config.allows 0 slot = false → exec (.msExtend slot d) s = .next s)) ∧
  (∀ s nonce, Config.allows 1 0 = false → exec (.attestationReport nonce) s = .next s) ∧
  (∀ s (nonce : BitVec 384), Config.allows 1 0 = true → ∃ t, exec (.attestationReport nonce) s = .next t ∧ t = { s with trust := t.trust } ∧ t.trust.report.length = 928 ∧
    t.trust.report.take 48 = bigBytes nonce ∧ t.trust.report.drop 832 = bigBytes (Config.sign (t.trust.report.take 832)) ∧
    (∀ i, i < 16 → (t.trust.report.drop (48 + 48 * i)).take 48 = bigBytes (s.trust.ms.getD i 0)) ∧
    leNat ((t.trust.report.drop 816).take 8) = s.time.toNat) ∧
  (∀ s ctx slot, (1 ≤ slot → slot ≤ 255 → Tab.lookup slot s.trust.keys = none → (∃ c, Tab.lookup ctx s.ctxs = some c) →
      s.slotOf ctx = none → Config.allows 2 ctx = true →
      ∃ t, exec (.keySlotAssign ctx slot) s = .next t ∧ Tab.lookup slot t.trust.keys = some ctx ∧ t = { s with trust := t.trust } ∧
        ∀ k, k ≠ slot → Tab.lookup k t.trust.keys = Tab.lookup k s.trust.keys) ∧
    ((Tab.lookup slot s.trust.keys).isSome = true ∨ s.slotOf ctx ≠ none ∨ Config.allows 2 ctx = false →
      exec (.keySlotAssign ctx slot) s = .next s)) ∧
  ∀ s ctx, let key := s.keyNo ((s.slotOf ctx).getD 0)
    (Config.allows 3 ctx = false → exec (.snapshotExportGate ctx) s = .next s) ∧
    (Config.allows 3 ctx = true → (∀ i, s.imageOf ctx = some i → exec (.snapshotExportGate ctx) s =
        .next { s with trust := { s.trust with exports := s.trust.exports ++ [((ctx, some i), key)] } }) ∧
      (s.imageOf ctx = none → s.shot ≠ none → exec (.snapshotExportGate ctx) s =
        .next { s with trust := { s.trust with exports := s.trust.exports ++ [((ctx, none), key)] } }) ∧
      (s.imageOf ctx = none → s.shot = none → exec (.snapshotExportGate ctx) s = .next s))

/-- R53, with R52, R54 to R57, R59, R61, R71, R75 and R85: a class-W fault of a fragment none of whose slices holds a filled trap slot parks the
fragment under an entry of the wait table, with its record in the fault queue, and leaves every register, every byte of memory and
every other fragment as they were.  Where a slice of the fragment holds a filled slot, the fault, and a trap that was raised then,
is a double trap: a record with that cause, and the context stops.  The lanes of that record, and that an illegal word is judged
before a hazard and a hazard before bad data, are the model's choice (notes/assumptions/8 and 43). -/
def Obligations.FaultsAndDoubleTraps : Prop :=
  (∀ s k n w f x pos fpc back, HasFrag s k n w f → w.inTrap f.mask = true →
    let ctx := s.ctxOfCrew w.crew
    let t := s.takeFault k n x pos fpc back
    (∃ r, PostsThenStops s t ctx r ∧ (pos < 8 → DoubleTrapRecord r (w.active f))) ∧ Stopped s t ctx) ∧
  (∀ s k n w f, HasFrag s k n w f → f.atBoundary = true →
    (w.inTrap f.mask = true ∧ f.raised ≠ []) ∨ (∃ x ∈ f.raised, x.inTrap = true) →
    let ctx := s.ctxOfCrew w.crew
    ∃ t r, exec (.trapEntry k n) s = .next t ∧ PostsThenStops s t ctx r ∧ DoubleTrapRecord r (w.active f) ∧ Stopped s t ctx) ∧
  (∀ s k n w f x pos fpc back c, HasFrag s k n w f → w.inTrap f.mask = false → x.granule = none → pos < 8 → x.cause < 256 →
    Tab.lookup (s.ctxOfCrew w.crew) s.ctxs = some c →
    let ctx := s.ctxOfCrew w.crew
    let t := s.takeFault k n x pos fpc back
    ∃ r e u, Posts s t ctx r ∧ (r.getD 0 0).extractLsb' 24 8 = BitVec.ofNat 8 x.cause ∧ (r.getD 0 0).extractLsb' 8 8 = f.mask ∧
      (r.getD 0 0).extractLsb' 0 8 = BitVec.ofNat 8 pos ∧ r.getD 1 0 = x.lanes ∧ r.getD 2 0 = x.other ∧ r.getD 6 0 = w.recCount ∧
      r.getD 11 0 = x.info ∧ r.getD 14 0 = fpc.extractLsb' 0 32 ∧ r.getD 15 0 = fpc.extractLsb' 32 32 ∧
      Tab.lookup k t.warps = some u ∧ u.frag n = some { f with
        state := .parked
        clause := none
        suspended := false
        waitOp := none
        pc := fpc
        park := some (e, back)
        raised := if back = .replay then [] else f.raised } ∧
      (e ≠ 0 → Tab.lookup e t.waits = some (.token ctx k n)) ∧
      (f.state ≠ .parked → (∃ m, 1 ≤ m ∧ m < 4096 ∧ Tab.lookup m s.waits = none) → e ≠ 0 ∧ Tab.lookup e s.waits = none) ∧
      (∀ m, m ≠ n → u.frag m = w.frag m) ∧ u.v = w.v ∧ u.s = w.s ∧ u.p = w.p ∧ u.b = w.b ∧ u.tags = w.tags ∧ u.flags = w.flags ∧
      u.xc = w.xc ∧ u.oc = w.oc ∧ (∀ j, (u.slice j).cm = (w.slice j).cm ∧ (u.slice j).stack = (w.slice j).stack) ∧
      (∀ j, j ≠ k → Tab.lookup j t.warps = Tab.lookup j s.warps) ∧ t.mem = s.mem ∧ t.ops = s.ops ∧ t.crews = s.crews) ∧
  (∀ (v : View) (sh : Shape),
    let bad := sh.ok = false ∨ (∃ r ∈ sh.reads ++ sh.writes ++ sh.also, v.w.hasReg r = false) ∨
      (sh.long = true ∧ sh.writes ≠ [] ∧ (if v.c.issued = 0 then v.c.setA else v.c.setB) = 15)
    let early := ∃ r ∈ v.guardReads ++ sh.reads ++ sh.writes ++ sh.also, ∃ q ∈ v.w.pending, q.slices &&& v.f.mask ≠ 0 ∧ r ∈ q.regs
    let failing := ∃ r ∈ v.guardReads ++ sh.reads, r ∈ v.w.bad
    (bad → v.check sh = some { cause := 0x01, lanes := v.act, info := v.c.words.getD v.c.pos 0 }) ∧
    (¬ bad → early → v.check sh = some { cause := 0x03, lanes := v.act }) ∧
    (¬ bad → ¬ early → failing → v.check sh = some { cause := 0x15, lanes := v.act }) ∧
    (¬ bad → ¬ early → ¬ failing → v.check sh = none))

/-- A step runs the word at the position of the fragment that has the issue slot, as the instruction that the word decodes to; a
word that stands for no instruction, or breaks a limit of its fields, raises illegal-instruction (R88); between clauses the word
at the PC is run when it is a header (R82, R387).  What the agenda asks for comes first.  With a step time goes on, and nothing
but time, ages, timers, due shots, the state in which a fragment waits between clauses, caches that hold more than their size, and
what waits at homes for a token or a lease change by it.  A step of Gallery is none before Headframe has released the control cluster
(R373).  The agenda, the order of turns and the passing of time are the model's own
(notes/assumptions/2 and 3). -/
def Obligations.StepRunsTheDecodedInstruction : Prop :=
  (∀ s k n w f c i, s.agenda = [] → s.cur = some (k, n) → s.fragOf k n = some (w, f) → f.clause = some c →
    decode (c.words.getD c.pos 0) = .ok i → i.wf = true → StepRuns s s i) ∧
  (∀ s k n w f c, s.agenda = [] → s.cur = some (k, n) → s.fragOf k n = some (w, f) → f.clause = some c →
    (∀ i, decode (c.words.getD c.pos 0) = .ok i → i.wf = false) →
    step s = .next (s.takeFault k n { cause := 0x01, lanes := w.active f, info := c.words.getD c.pos 0 } c.pos c.header
      .replay).tick) ∧
  (∀ s k n w f c h i, s.agenda = [] → s.cur = some (k, n) → s.fragOf k n = some (w, f) → f.clause = none →
    Tab.lookup w.crew s.crews = some c → s.fetchWord c.ctx c.core f.pc = .ok h → h.extractLsb' 25 7 = 0x7F → decode h = .ok i →
    i.wf = true → StepRuns s s i) ∧
  (∀ s k n w f c h, s.agenda = [] → s.cur = some (k, n) → s.fragOf k n = some (w, f) → f.clause = none →
    Tab.lookup w.crew s.crews = some c → s.fetchWord c.ctx c.core f.pc = .ok h → h.extractLsb' 25 7 ≠ 0x7F →
    step s = .next (s.takeFault k n { cause := 0x01, lanes := w.active f, info := h } 0 f.pc .replay).tick) ∧
  (∀ s i rest, s.agenda = .event i :: rest →
    (galleryStep i = false ∨ 4 ≤ s.trust.stage → StepRuns s { s with agenda := rest } i) ∧
    (galleryStep i = true → s.trust.stage < 4 → step s = .next (State.tick { s with agenda := rest }))) ∧
  (∀ s k n rest w f c i, s.agenda = .issue k n :: rest → s.fragOf k n = some (w, f) →
    State.mayIssue { s with agenda := rest } k w f = true → f.clause = some c → decode (c.words.getD c.pos 0) = .ok i →
    i.wf = true → StepRuns s (State.mapFrag { s with
      agenda := rest
      cur := some (k, n) } k n fun f => { f with suspended := false }) i) ∧
  (∀ s : State, s.tick = { s with
      time := s.time + BitVec.ofNat 64 (Config.ticks s.freeCtr)
      freeCtr := s.freeCtr + 1
      warps := s.tick.warps
      shot := s.tick.shot
      shotAt := s.tick.shotAt
      outside := s.tick.outside
      ctxs := s.tick.ctxs
      mem := s.tick.mem
      dram := s.tick.dram
      directory := s.tick.directory
      bad := s.tick.bad
      unflushed := s.tick.unflushed
      cores := s.tick.cores } ∧
    (s.outside = [] → s.tick.outside = [] ∧ s.tick.ctxs = s.ctxs) ∧
    (s.outside = [] → (∀ e ∈ s.cores, e.2.l1.length ≤ l1Lines) → s.unflushed.length ≤ homeLines → s.directory.length ≤ nearLines →
      s.tick.mem = s.mem ∧ s.tick.dram = s.dram ∧ s.tick.directory = s.directory ∧ s.tick.bad = s.bad ∧
        s.tick.unflushed = s.unflushed ∧ s.tick.cores = s.cores) ∧
    (∀ (k : Nat) (w : Warp), Tab.lookup k s.warps = some w → ∃ (u : Warp), Tab.lookup k s.tick.warps = some u ∧
      u = { w with
        wtimer := u.wtimer
        frags := u.frags } ∧ u.frags.length = w.frags.length ∧
      (u.wtimer = w.wtimer ∨ u.wtimer = w.wtimer + BitVec.ofNat 64 (Config.cycles s.freeCtr)) ∧
      ∀ (j : Nat) (f g : Frag), w.frags[j]? = some f → u.frags[j]? = some g → g = { f with
        state := g.state
        age := g.age } ∧ (f.atBoundary = false → g.state = f.state) ∧
          (g.state = f.state ∨ g.state ∈ [FragState.ready, .trapped, .flagWait, .held])) ∧
    (s.shotAt = [] → s.tick.shot = s.shot ∧ s.tick.shotAt = []))

/-- Words that the spec writes out for its examples, one or more of every family, decode to the instructions they stand for; a
word of an unassigned major, with an unlisted X or with a nonzero reserved bit decodes to none (R88). -/
def Obligations.SpecWordsDecode : Prop :=
  decode 0x020FFF40 = .ok (.bra 0 0 0 (BitVec.ofInt 16 (-12))) ∧ decode 0x02900041 = .ok (.brs 2 0 4) ∧
  decode 0x04005030 = .ok (.rptImm 10 3) ∧ decode 0x07FE0007 = .ok (.regang 0xFF) ∧ decode 0x08221200 = .ok (.setm 0x1109) ∧
  decode 0x12183011 = .ok (.subI 6 6 1) ∧ decode 0x10041036 = .ok (.idiv 1 2 3) ∧ decode 0x14203860 = .ok (.andBits 8 7 6) ∧
  decode 0x16145853 = .ok (.shlI 5 11 5) ∧ decode 0x18243802 = .ok (.popc 9 7) ∧ decode 0x3C040800 = .ok (.notBitsS 1 1) ∧
  decode 0x1E041804 = .ok (.cmpGtI 1 3 0) ∧ decode 0x2404103C = .ok (.sel 1 2 3 1 4) ∧ decode 0x2A0C1013 = .ok (.shflXorI 3 2 1) ∧
  decode 0x2C080818 = .ok (.scanAdd 2 1 1) ∧ decode 0x58080802 = .ok (.fsqrt 2 1) ∧ decode 0xA2000821 = .ok (.mmaQ 0 1 2) ∧
  decode 0xB0083283 = .ok (.collNse 2 6 5) ∧ decode 0xBA241200 = .ok (.launch 9 2 4) ∧ decode 0xBC000050 = .ok (.trap 5) ∧
  decode 0xBE1C3010 = .ok (.sys 7 6 1) ∧ decode 0xC6001000 = .ok (.replayTok 2) ∧
  (∀ w : Word, (w.extractLsb' 25 7).toNat ∈ ([0x00, 0x24, 0x25, 0x26, 0x27, 0x34, 0x35, 0x36, 0x37, 0x4C, 0x4D, 0x4E, 0x4F, 0x56, 0x57] ++
      (List.range 27).map (0x64 + ·) : List Nat) → ∃ r, decode w = .error r) ∧
  (∃ r, decode 0x02000109 = .error r) ∧ ∃ r, decode 0x06000015 = .error r

/-- The encoder and the decoder agree: every instruction that has a word, with its operands at every value that their fields hold,
decodes from its word; every word that decodes is the word of its instruction; and in memory the four bytes of a word stand lowest
address first. -/
def Obligations.WordsAndInstructionsAgree : Prop :=
  (∀ i : Instr, i.isWord = true → decode (encode i) = .ok i) ∧
  (∀ w i, decode w = .ok i → i.isWord = true ∧ encode i = w) ∧
  (∀ i rest, i.isWord = true → decodeBytes (wordBytes (encode i) ++ rest) = .ok (i, rest))

/-- R46, R67, R373, R376 and R381: what the spec gives of the module after power-on: the boot stages begin at stage 1 with code
0xFF and zero measurement slots, the power limit is 2,200 W and the clock ceiling 1,800 MHz, every die has one drift reserved for
the cage, and no context, crew, warp, launch or request is there.  The memory is in its canonical form.  That an unlisted byte
reads 0, and the values of notes/assumptions/9, are the model's choice. -/
def Obligations.ResetState : Prop :=
  State.reset.trust.stage = 1 ∧ State.reset.trust.code = 0xFF ∧ State.reset.trust.degraded = false ∧
  State.reset.trust.ms = List.replicate 16 0 ∧ State.reset.plant.plim = 2200 ∧ State.reset.plant.ceiling = 1800 ∧
  State.reset.cage = [1, 1, 1, 1] ∧ State.reset.cageGoal = [1, 1, 1, 1] ∧ State.reset.placement = [[], [], [], []] ∧
  State.reset.ctxs = [] ∧ State.reset.crews = [] ∧ State.reset.warps = [] ∧ State.reset.launches = [] ∧ State.reset.ops = [] ∧
  State.reset.waits = [] ∧ State.reset.shot = none ∧ State.reset.memOk = true ∧ Memory.wf State.reset.dram = true ∧
  ∀ a, State.reset.byte a = 0

/-- Every step keeps the canonical form of memory: the addresses listed rise, and no byte is listed that reads as an unlisted
one; so equal memories are equal data. -/
def Obligations.MemoryFormKept : Prop :=
  ∀ s t, s.memOk = true → Memory.wf s.dram = true → step s = .next t → t.memOk = true ∧ Memory.wf t.dram = true

/-- R274 and R348: when a crew with scratchpad starts, on either way of placement, its scratchpad is zero and no macro armed, and
its accumulator tiles are zero, SPATIAL and empty; when a run of a stope kernel starts, the registers, predicates, flags, MODE and
mask stack of each of its units are as the spec sets them. -/
def Obligations.CrewsAndUnitsStartClear : Prop :=
  (∀ s core k l, s.coreFree core = true → s.returning (s.driftAt core) = [] → Tab.lookup k s.launches = some l →
    s.startFree k l = true → 1 ≤ l.spad →
    (∃ o g, earliest (s.incomplete (s.driftAt core)) = some (o, g, k)) ∨ (earliest (s.incomplete (s.driftAt core)) = none ∧
      (∃ cls g, s.head = some (cls, k, g)) ∧ s.bestDrift l.ctx = some (s.driftAt core)) →
    ∃ t c, exec (.crewPlacement core) s = .next t ∧ Tab.lookup s.nextId t.crews = some c ∧ c.launch = k ∧ c.spadMacros = l.spad ∧
      (∀ a, Tab.get 0 c.spad a = 0) ∧ (∀ m, Tab.lookup m c.macros = none) ∧ c.arming = [] ∧
      ∀ q i, (∀ row col, (c.tile q i).elem row col = 0) ∧ (c.tile q i).level = 0 ∧ (c.tile q i).empty = true) ∧
  (∀ s id o r us, s.op id = some o → o.kind = .stopeRun r false us → s.writesLeft o = false → s.runBlocked o r = false → s.fenced o = false →
    ∃ t us', exec (.stopeRunStart id) s = .next t ∧ t.op id = some { o with kind := .stopeRun r true us' } ∧
      ∀ b, b < 32 → r.banks.getLsbD b = true → ∃ u f, Tab.lookup b us' = some u ∧ (∀ n, u.w.vreg n = Lanes.zero) ∧
        (∀ n, u.w.pred n = 0) ∧ u.w.flags = 0 ∧ (∀ j, (u.w.slice j).flags = 0 ∧ (u.w.slice j).stack = []) ∧ u.w.frags = [f] ∧
        f.mode = 0x00000020 ∧ u.w.sreg 0 = BitVec.ofNat 64 (r.columns b) ∧ u.w.sreg 1 = r.arg ∧
        u.w.sreg 2 = BitVec.ofNat 64 r.lines ∧ u.w.sreg 3 = BitVec.ofNat 64 (32 * r.chan + b))
end

