-- ==== Sys2Proof/Laws/Tab.lean ====
section
/-! SUPPORT. Laws of tables: what a table lists after a write, and that its numbers go on rising. -/

namespace Sys2Proof

variable {α : Type}

@[simp] theorem Tab.lookup_nil (k : Nat) : Tab.lookup k ([] : Tab α) = none := rfl

theorem Tab.lookup_cons (k j : Nat) (v : α) (t : Tab α) :
    Tab.lookup k ((j, v) :: t) = if k = j then some v else Tab.lookup k t := rfl

@[simp] theorem Tab.lookup_put_self (k : Nat) (v : α) (t : Tab α) : Tab.lookup k (Tab.put k v t) = some v := by
  induction t with
  | nil => simp [Tab.put, Tab.lookup]
  | cons e t ih =>
    obtain ⟨j, u⟩ := e
    simp only [Tab.put]
    split
    · simp [Tab.lookup]
    · split
      · simp [Tab.lookup]
      · simp_all [Tab.lookup]

theorem Tab.lookup_put_ne {k j : Nat} (h : k ≠ j) (v : α) (t : Tab α) :
    Tab.lookup k (Tab.put j v t) = Tab.lookup k t := by
  induction t with
  | nil => simp [Tab.put, Tab.lookup, h]
  | cons e t ih =>
    obtain ⟨i, u⟩ := e
    simp only [Tab.put]
    split
    · simp [Tab.lookup, h]
    · split
      · subst_vars; simp [Tab.lookup, h]
      · simp [Tab.lookup, ih]

theorem Tab.lookup_put (k j : Nat) (v : α) (t : Tab α) :
    Tab.lookup k (Tab.put j v t) = if k = j then some v else Tab.lookup k t := by
  split
  · subst_vars; exact Tab.lookup_put_self ..
  · exact Tab.lookup_put_ne ‹_› ..

@[simp] theorem Tab.lookup_erase_self (k : Nat) (t : Tab α) : Tab.lookup k (Tab.erase k t) = none := by
  induction t with
  | nil => rfl
  | cons e t ih =>
    obtain ⟨j, u⟩ := e
    simp only [Tab.erase]
    split
    · exact ih
    · simp [Tab.lookup, *]

theorem Tab.lookup_erase_ne {k j : Nat} (h : k ≠ j) (t : Tab α) : Tab.lookup k (Tab.erase j t) = Tab.lookup k t := by
  induction t with
  | nil => rfl
  | cons e t ih =>
    obtain ⟨i, u⟩ := e
    simp only [Tab.erase]
    split
    · subst_vars; simp [Tab.lookup, h, ih]
    · simp [Tab.lookup, ih]

/-- A table's value, by what it lists. -/
theorem Tab.get_eq (d : α) (t : Tab α) (k : Nat) : Tab.get d t k = (Tab.lookup k t).getD d := by
  unfold Tab.get
  cases Tab.lookup k t <;> rfl

/-- What a table reads after a write. -/
theorem Tab.get_set [DecidableEq α] (d : α) (t : Tab α) (k j : Nat) (v : α) :
    Tab.get d (Tab.set d t j v) k = if k = j then v else Tab.get d t k := by
  simp only [Tab.get_eq, Tab.set]
  by_cases hv : v = d <;> by_cases hk : k = j
  · subst_vars; simp
  · simp [hv, hk, Tab.lookup_erase_ne]
  · subst_vars; simp [hv]
  · simp [hv, hk, Tab.lookup_put_ne]

@[simp] theorem Tab.get_set_self [DecidableEq α] (d : α) (t : Tab α) (k : Nat) (v : α) :
    Tab.get d (Tab.set d t k v) k = v := by simp [Tab.get_set]

theorem Tab.get_put (d : α) (t : Tab α) (k j : Nat) (v : α) :
    Tab.get d (Tab.put j v t) k = if k = j then v else Tab.get d t k := by
  simp only [Tab.get_eq, Tab.lookup_put]
  split <;> rfl

theorem Tab.put_put (k : Nat) (u v : α) (t : Tab α) : Tab.put k v (Tab.put k u t) = Tab.put k v t := by
  induction t with
  | nil => simp [Tab.put]
  | cons e t ih =>
    obtain ⟨j, x⟩ := e
    simp only [Tab.put]
    split
    · simp [Tab.put]
    · split
      · simp [Tab.put]
      · simp [Tab.put, *]

/-! ## Rising numbers -/

/-- Does a number lie below every number of a table? -/
def Tab.below (k : Nat) (t : Tab α) : Prop := ∀ e ∈ t, k < e.1

theorem Tab.sorted_cons {k : Nat} {v : α} {t : Tab α} :
    Tab.sorted ((k, v) :: t) = true ↔ Tab.below k t ∧ Tab.sorted t = true := by
  induction t generalizing k v with
  | nil => simp [Tab.sorted, Tab.below]
  | cons e t ih =>
    obtain ⟨j, u⟩ := e
    simp only [Tab.sorted, Bool.and_eq_true, decide_eq_true_eq, Tab.below, List.mem_cons, forall_eq_or_imp]
    constructor
    · rintro ⟨h, hs⟩
      refine ⟨⟨h, fun e he => ?_⟩, hs⟩
      exact Nat.lt_trans h ((ih.mp hs).1 e he)
    · rintro ⟨⟨h, _⟩, hs⟩
      exact ⟨h, hs⟩

theorem Tab.mem_put {k : Nat} {v : α} {t : Tab α} {e : Nat × α} (h : e ∈ Tab.put k v t) : e = (k, v) ∨ e ∈ t := by
  induction t with
  | nil => exact .inl (List.mem_singleton.mp h)
  | cons f t ih =>
    obtain ⟨j, u⟩ := f
    simp only [Tab.put] at h
    split at h
    · exact List.mem_cons.mp h
    · split at h
      · exact (List.mem_cons.mp h).imp_right (.tail _)
      · rcases List.mem_cons.mp h with rfl | h
        · exact .inr (.head _)
        · exact (ih h).imp_right (.tail _)

theorem Tab.mem_erase {k : Nat} {t : Tab α} {e : Nat × α} (h : e ∈ Tab.erase k t) : e ∈ t := by
  induction t with
  | nil => exact h
  | cons f t ih =>
    obtain ⟨j, u⟩ := f
    simp only [Tab.erase] at h
    split at h
    · exact .tail _ (ih h)
    · rcases List.mem_cons.mp h with rfl | h
      · exact .head _
      · exact .tail _ (ih h)

/-- Listing a value keeps the numbers rising. -/
theorem Tab.sorted_put {k : Nat} {v : α} {t : Tab α} (h : Tab.sorted t = true) : Tab.sorted (Tab.put k v t) = true := by
  induction t with
  | nil => rfl
  | cons f t ih =>
    obtain ⟨j, u⟩ := f
    obtain ⟨hb, hs⟩ := Tab.sorted_cons.mp h
    simp only [Tab.put]
    split
    · refine Tab.sorted_cons.mpr ⟨fun e he => ?_, h⟩
      rcases List.mem_cons.mp he with rfl | he
      · assumption
      · exact Nat.lt_trans ‹_› (hb e he)
    · split
      · subst_vars
        exact Tab.sorted_cons.mpr ⟨hb, hs⟩
      · refine Tab.sorted_cons.mpr ⟨fun e he => ?_, ih hs⟩
        rcases Tab.mem_put he with rfl | he
        · show j < k
          omega
        · exact hb e he

/-- Unlisting a number keeps the numbers rising. -/
theorem Tab.sorted_erase {k : Nat} {t : Tab α} (h : Tab.sorted t = true) : Tab.sorted (Tab.erase k t) = true := by
  induction t with
  | nil => rfl
  | cons f t ih =>
    obtain ⟨j, u⟩ := f
    obtain ⟨hb, hs⟩ := Tab.sorted_cons.mp h
    simp only [Tab.erase]
    split
    · exact ih hs
    · exact Tab.sorted_cons.mpr ⟨fun e he => hb e (Tab.mem_erase he), ih hs⟩

/-- A write keeps the canonical form of a table. -/
theorem Tab.set_wf [DecidableEq α] {d : α} {t : Tab α} {k : Nat} {v : α}
    (h : (Tab.sorted t && Tab.noneIs d t) = true) :
    (Tab.sorted (Tab.set d t k v) && Tab.noneIs d (Tab.set d t k v)) = true := by
  simp only [Bool.and_eq_true, Tab.noneIs, List.all_eq_true, decide_eq_true_eq] at h ⊢
  unfold Tab.set
  split
  · exact ⟨Tab.sorted_erase h.1, fun e he => h.2 e (Tab.mem_erase he)⟩
  · refine ⟨Tab.sorted_put h.1, fun e he => ?_⟩
    rcases Tab.mem_put he with rfl | he
    · assumption
    · exact h.2 e he

theorem Tab.lookup_mapVals {β : Type} (f : Nat → α → β) (k : Nat) (t : Tab α) :
    Tab.lookup k (Tab.mapVals f t) = (Tab.lookup k t).map (f k) := by
  induction t with
  | nil => rfl
  | cons e t ih =>
    obtain ⟨j, u⟩ := e
    simp only [Tab.mapVals, List.map_cons, Tab.lookup] at ih ⊢
    split
    · subst_vars; rfl
    · exact ih

/-! ## Lanes -/

theorem Lanes.get_ofFn (f : Nat → Word) {n : Nat} (h : n < 32) : (Lanes.ofFn f).get n = f n := by
  simp [Lanes.ofFn, Lanes.get, List.getD_eq_getElem?_getD, h]

end Sys2Proof
end

