-- ==== Sys2Proof/Laws/State.lean ====
section
/-! SUPPORT. One lemma per field for each update of the state and of a warp: what the field holds after it. -/

namespace Sys2Proof.Machine


/-! ## A warp put back -/

@[simp] theorem State.setWarp_agenda (s : State) (k : Nat) (w : Warp) :
    (s.setWarp k w).agenda = s.agenda := rfl
@[simp] theorem State.setWarp_cur (s : State) (k : Nat) (w : Warp) :
    (s.setWarp k w).cur = s.cur := rfl
@[simp] theorem State.setWarp_freeCtr (s : State) (k : Nat) (w : Warp) :
    (s.setWarp k w).freeCtr = s.freeCtr := rfl
@[simp] theorem State.setWarp_nextId (s : State) (k : Nat) (w : Warp) :
    (s.setWarp k w).nextId = s.nextId := rfl
@[simp] theorem State.setWarp_time (s : State) (k : Nat) (w : Warp) :
    (s.setWarp k w).time = s.time := rfl
@[simp] theorem State.setWarp_mem (s : State) (k : Nat) (w : Warp) :
    (s.setWarp k w).mem = s.mem := rfl
@[simp] theorem State.setWarp_dram (s : State) (k : Nat) (w : Warp) :
    (s.setWarp k w).dram = s.dram := rfl
@[simp] theorem State.setWarp_unflushed (s : State) (k : Nat) (w : Warp) :
    (s.setWarp k w).unflushed = s.unflushed := rfl
@[simp] theorem State.setWarp_bad (s : State) (k : Nat) (w : Warp) :
    (s.setWarp k w).bad = s.bad := rfl
@[simp] theorem State.setWarp_directory (s : State) (k : Nat) (w : Warp) :
    (s.setWarp k w).directory = s.directory := rfl
@[simp] theorem State.setWarp_leases (s : State) (k : Nat) (w : Warp) :
    (s.setWarp k w).leases = s.leases := rfl
@[simp] theorem State.setWarp_tlb (s : State) (k : Nat) (w : Warp) :
    (s.setWarp k w).tlb = s.tlb := rfl
@[simp] theorem State.setWarp_ops (s : State) (k : Nat) (w : Warp) :
    (s.setWarp k w).ops = s.ops := rfl
@[simp] theorem State.setWarp_waits (s : State) (k : Nat) (w : Warp) :
    (s.setWarp k w).waits = s.waits := rfl
@[simp] theorem State.setWarp_crews (s : State) (k : Nat) (w : Warp) :
    (s.setWarp k w).crews = s.crews := rfl
@[simp] theorem State.setWarp_warps (s : State) (k : Nat) (w : Warp) :
    (s.setWarp k w).warps = Tab.put k w s.warps := rfl
@[simp] theorem State.setWarp_cores (s : State) (k : Nat) (w : Warp) :
    (s.setWarp k w).cores = s.cores := rfl
@[simp] theorem State.setWarp_launches (s : State) (k : Nat) (w : Warp) :
    (s.setWarp k w).launches = s.launches := rfl
@[simp] theorem State.setWarp_queues (s : State) (k : Nat) (w : Warp) :
    (s.setWarp k w).queues = s.queues := rfl
@[simp] theorem State.setWarp_placement (s : State) (k : Nat) (w : Warp) :
    (s.setWarp k w).placement = s.placement := rfl
@[simp] theorem State.setWarp_cage (s : State) (k : Nat) (w : Warp) :
    (s.setWarp k w).cage = s.cage := rfl
@[simp] theorem State.setWarp_cageGoal (s : State) (k : Nat) (w : Warp) :
    (s.setWarp k w).cageGoal = s.cageGoal := rfl
@[simp] theorem State.setWarp_ctxs (s : State) (k : Nat) (w : Warp) :
    (s.setWarp k w).ctxs = s.ctxs := rfl
@[simp] theorem State.setWarp_channels (s : State) (k : Nat) (w : Warp) :
    (s.setWarp k w).channels = s.channels := rfl
@[simp] theorem State.setWarp_images (s : State) (k : Nat) (w : Warp) :
    (s.setWarp k w).images = s.images := rfl
@[simp] theorem State.setWarp_fabric (s : State) (k : Nat) (w : Warp) :
    (s.setWarp k w).fabric = s.fabric := rfl
@[simp] theorem State.setWarp_trust (s : State) (k : Nat) (w : Warp) :
    (s.setWarp k w).trust = s.trust := rfl
@[simp] theorem State.setWarp_shot (s : State) (k : Nat) (w : Warp) :
    (s.setWarp k w).shot = s.shot := rfl
@[simp] theorem State.setWarp_shotAt (s : State) (k : Nat) (w : Warp) :
    (s.setWarp k w).shotAt = s.shotAt := rfl
@[simp] theorem State.setWarp_plant (s : State) (k : Nat) (w : Warp) :
    (s.setWarp k w).plant = s.plant := rfl

/-! ## A warp, a fragment, a context or a crew changed -/

@[simp] theorem State.mapWarp_agenda (s : State) (k : Nat) (g : Warp → Warp) :
    (s.mapWarp k g).agenda = s.agenda := by
  unfold State.mapWarp; split <;> rfl
@[simp] theorem State.mapWarp_cur (s : State) (k : Nat) (g : Warp → Warp) :
    (s.mapWarp k g).cur = s.cur := by
  unfold State.mapWarp; split <;> rfl
@[simp] theorem State.mapWarp_freeCtr (s : State) (k : Nat) (g : Warp → Warp) :
    (s.mapWarp k g).freeCtr = s.freeCtr := by
  unfold State.mapWarp; split <;> rfl
@[simp] theorem State.mapWarp_nextId (s : State) (k : Nat) (g : Warp → Warp) :
    (s.mapWarp k g).nextId = s.nextId := by
  unfold State.mapWarp; split <;> rfl
@[simp] theorem State.mapWarp_time (s : State) (k : Nat) (g : Warp → Warp) :
    (s.mapWarp k g).time = s.time := by
  unfold State.mapWarp; split <;> rfl
@[simp] theorem State.mapWarp_mem (s : State) (k : Nat) (g : Warp → Warp) :
    (s.mapWarp k g).mem = s.mem := by
  unfold State.mapWarp; split <;> rfl
@[simp] theorem State.mapWarp_dram (s : State) (k : Nat) (g : Warp → Warp) :
    (s.mapWarp k g).dram = s.dram := by
  unfold State.mapWarp; split <;> rfl
@[simp] theorem State.mapWarp_unflushed (s : State) (k : Nat) (g : Warp → Warp) :
    (s.mapWarp k g).unflushed = s.unflushed := by
  unfold State.mapWarp; split <;> rfl
@[simp] theorem State.mapWarp_bad (s : State) (k : Nat) (g : Warp → Warp) :
    (s.mapWarp k g).bad = s.bad := by
  unfold State.mapWarp; split <;> rfl
@[simp] theorem State.mapWarp_directory (s : State) (k : Nat) (g : Warp → Warp) :
    (s.mapWarp k g).directory = s.directory := by
  unfold State.mapWarp; split <;> rfl
@[simp] theorem State.mapWarp_leases (s : State) (k : Nat) (g : Warp → Warp) :
    (s.mapWarp k g).leases = s.leases := by
  unfold State.mapWarp; split <;> rfl
@[simp] theorem State.mapWarp_tlb (s : State) (k : Nat) (g : Warp → Warp) :
    (s.mapWarp k g).tlb = s.tlb := by
  unfold State.mapWarp; split <;> rfl
@[simp] theorem State.mapWarp_ops (s : State) (k : Nat) (g : Warp → Warp) :
    (s.mapWarp k g).ops = s.ops := by
  unfold State.mapWarp; split <;> rfl
@[simp] theorem State.mapWarp_waits (s : State) (k : Nat) (g : Warp → Warp) :
    (s.mapWarp k g).waits = s.waits := by
  unfold State.mapWarp; split <;> rfl
@[simp] theorem State.mapWarp_crews (s : State) (k : Nat) (g : Warp → Warp) :
    (s.mapWarp k g).crews = s.crews := by
  unfold State.mapWarp; split <;> rfl
@[simp] theorem State.mapWarp_cores (s : State) (k : Nat) (g : Warp → Warp) :
    (s.mapWarp k g).cores = s.cores := by
  unfold State.mapWarp; split <;> rfl
@[simp] theorem State.mapWarp_launches (s : State) (k : Nat) (g : Warp → Warp) :
    (s.mapWarp k g).launches = s.launches := by
  unfold State.mapWarp; split <;> rfl
@[simp] theorem State.mapWarp_queues (s : State) (k : Nat) (g : Warp → Warp) :
    (s.mapWarp k g).queues = s.queues := by
  unfold State.mapWarp; split <;> rfl
@[simp] theorem State.mapWarp_placement (s : State) (k : Nat) (g : Warp → Warp) :
    (s.mapWarp k g).placement = s.placement := by
  unfold State.mapWarp; split <;> rfl
@[simp] theorem State.mapWarp_cage (s : State) (k : Nat) (g : Warp → Warp) :
    (s.mapWarp k g).cage = s.cage := by
  unfold State.mapWarp; split <;> rfl
@[simp] theorem State.mapWarp_cageGoal (s : State) (k : Nat) (g : Warp → Warp) :
    (s.mapWarp k g).cageGoal = s.cageGoal := by
  unfold State.mapWarp; split <;> rfl
@[simp] theorem State.mapWarp_ctxs (s : State) (k : Nat) (g : Warp → Warp) :
    (s.mapWarp k g).ctxs = s.ctxs := by
  unfold State.mapWarp; split <;> rfl
@[simp] theorem State.mapWarp_channels (s : State) (k : Nat) (g : Warp → Warp) :
    (s.mapWarp k g).channels = s.channels := by
  unfold State.mapWarp; split <;> rfl
@[simp] theorem State.mapWarp_images (s : State) (k : Nat) (g : Warp → Warp) :
    (s.mapWarp k g).images = s.images := by
  unfold State.mapWarp; split <;> rfl
@[simp] theorem State.mapWarp_fabric (s : State) (k : Nat) (g : Warp → Warp) :
    (s.mapWarp k g).fabric = s.fabric := by
  unfold State.mapWarp; split <;> rfl
@[simp] theorem State.mapWarp_trust (s : State) (k : Nat) (g : Warp → Warp) :
    (s.mapWarp k g).trust = s.trust := by
  unfold State.mapWarp; split <;> rfl
@[simp] theorem State.mapWarp_shot (s : State) (k : Nat) (g : Warp → Warp) :
    (s.mapWarp k g).shot = s.shot := by
  unfold State.mapWarp; split <;> rfl
@[simp] theorem State.mapWarp_shotAt (s : State) (k : Nat) (g : Warp → Warp) :
    (s.mapWarp k g).shotAt = s.shotAt := by
  unfold State.mapWarp; split <;> rfl
@[simp] theorem State.mapWarp_plant (s : State) (k : Nat) (g : Warp → Warp) :
    (s.mapWarp k g).plant = s.plant := by
  unfold State.mapWarp; split <;> rfl
@[simp] theorem State.mapFrag_agenda (s : State) (k n : Nat) (g : Frag → Frag) :
    (s.mapFrag k n g).agenda = s.agenda := by
  unfold State.mapFrag; split <;> rfl
@[simp] theorem State.mapFrag_cur (s : State) (k n : Nat) (g : Frag → Frag) :
    (s.mapFrag k n g).cur = s.cur := by
  unfold State.mapFrag; split <;> rfl
@[simp] theorem State.mapFrag_freeCtr (s : State) (k n : Nat) (g : Frag → Frag) :
    (s.mapFrag k n g).freeCtr = s.freeCtr := by
  unfold State.mapFrag; split <;> rfl
@[simp] theorem State.mapFrag_nextId (s : State) (k n : Nat) (g : Frag → Frag) :
    (s.mapFrag k n g).nextId = s.nextId := by
  unfold State.mapFrag; split <;> rfl
@[simp] theorem State.mapFrag_time (s : State) (k n : Nat) (g : Frag → Frag) :
    (s.mapFrag k n g).time = s.time := by
  unfold State.mapFrag; split <;> rfl
@[simp] theorem State.mapFrag_mem (s : State) (k n : Nat) (g : Frag → Frag) :
    (s.mapFrag k n g).mem = s.mem := by
  unfold State.mapFrag; split <;> rfl
@[simp] theorem State.mapFrag_dram (s : State) (k n : Nat) (g : Frag → Frag) :
    (s.mapFrag k n g).dram = s.dram := by
  unfold State.mapFrag; split <;> rfl
@[simp] theorem State.mapFrag_unflushed (s : State) (k n : Nat) (g : Frag → Frag) :
    (s.mapFrag k n g).unflushed = s.unflushed := by
  unfold State.mapFrag; split <;> rfl
@[simp] theorem State.mapFrag_bad (s : State) (k n : Nat) (g : Frag → Frag) :
    (s.mapFrag k n g).bad = s.bad := by
  unfold State.mapFrag; split <;> rfl
@[simp] theorem State.mapFrag_directory (s : State) (k n : Nat) (g : Frag → Frag) :
    (s.mapFrag k n g).directory = s.directory := by
  unfold State.mapFrag; split <;> rfl
@[simp] theorem State.mapFrag_leases (s : State) (k n : Nat) (g : Frag → Frag) :
    (s.mapFrag k n g).leases = s.leases := by
  unfold State.mapFrag; split <;> rfl
@[simp] theorem State.mapFrag_tlb (s : State) (k n : Nat) (g : Frag → Frag) :
    (s.mapFrag k n g).tlb = s.tlb := by
  unfold State.mapFrag; split <;> rfl
@[simp] theorem State.mapFrag_ops (s : State) (k n : Nat) (g : Frag → Frag) :
    (s.mapFrag k n g).ops = s.ops := by
  unfold State.mapFrag; split <;> rfl
@[simp] theorem State.mapFrag_waits (s : State) (k n : Nat) (g : Frag → Frag) :
    (s.mapFrag k n g).waits = s.waits := by
  unfold State.mapFrag; split <;> rfl
@[simp] theorem State.mapFrag_crews (s : State) (k n : Nat) (g : Frag → Frag) :
    (s.mapFrag k n g).crews = s.crews := by
  unfold State.mapFrag; split <;> rfl
@[simp] theorem State.mapFrag_cores (s : State) (k n : Nat) (g : Frag → Frag) :
    (s.mapFrag k n g).cores = s.cores := by
  unfold State.mapFrag; split <;> rfl
@[simp] theorem State.mapFrag_launches (s : State) (k n : Nat) (g : Frag → Frag) :
    (s.mapFrag k n g).launches = s.launches := by
  unfold State.mapFrag; split <;> rfl
@[simp] theorem State.mapFrag_queues (s : State) (k n : Nat) (g : Frag → Frag) :
    (s.mapFrag k n g).queues = s.queues := by
  unfold State.mapFrag; split <;> rfl
@[simp] theorem State.mapFrag_placement (s : State) (k n : Nat) (g : Frag → Frag) :
    (s.mapFrag k n g).placement = s.placement := by
  unfold State.mapFrag; split <;> rfl
@[simp] theorem State.mapFrag_cage (s : State) (k n : Nat) (g : Frag → Frag) :
    (s.mapFrag k n g).cage = s.cage := by
  unfold State.mapFrag; split <;> rfl
@[simp] theorem State.mapFrag_cageGoal (s : State) (k n : Nat) (g : Frag → Frag) :
    (s.mapFrag k n g).cageGoal = s.cageGoal := by
  unfold State.mapFrag; split <;> rfl
@[simp] theorem State.mapFrag_ctxs (s : State) (k n : Nat) (g : Frag → Frag) :
    (s.mapFrag k n g).ctxs = s.ctxs := by
  unfold State.mapFrag; split <;> rfl
@[simp] theorem State.mapFrag_channels (s : State) (k n : Nat) (g : Frag → Frag) :
    (s.mapFrag k n g).channels = s.channels := by
  unfold State.mapFrag; split <;> rfl
@[simp] theorem State.mapFrag_images (s : State) (k n : Nat) (g : Frag → Frag) :
    (s.mapFrag k n g).images = s.images := by
  unfold State.mapFrag; split <;> rfl
@[simp] theorem State.mapFrag_fabric (s : State) (k n : Nat) (g : Frag → Frag) :
    (s.mapFrag k n g).fabric = s.fabric := by
  unfold State.mapFrag; split <;> rfl
@[simp] theorem State.mapFrag_trust (s : State) (k n : Nat) (g : Frag → Frag) :
    (s.mapFrag k n g).trust = s.trust := by
  unfold State.mapFrag; split <;> rfl
@[simp] theorem State.mapFrag_shot (s : State) (k n : Nat) (g : Frag → Frag) :
    (s.mapFrag k n g).shot = s.shot := by
  unfold State.mapFrag; split <;> rfl
@[simp] theorem State.mapFrag_shotAt (s : State) (k n : Nat) (g : Frag → Frag) :
    (s.mapFrag k n g).shotAt = s.shotAt := by
  unfold State.mapFrag; split <;> rfl
@[simp] theorem State.mapFrag_plant (s : State) (k n : Nat) (g : Frag → Frag) :
    (s.mapFrag k n g).plant = s.plant := by
  unfold State.mapFrag; split <;> rfl
@[simp] theorem State.mapCtx_agenda (s : State) (k : Nat) (g : Context → Context) :
    (s.mapCtx k g).agenda = s.agenda := by
  unfold State.mapCtx; split <;> rfl
@[simp] theorem State.mapCtx_cur (s : State) (k : Nat) (g : Context → Context) :
    (s.mapCtx k g).cur = s.cur := by
  unfold State.mapCtx; split <;> rfl
@[simp] theorem State.mapCtx_freeCtr (s : State) (k : Nat) (g : Context → Context) :
    (s.mapCtx k g).freeCtr = s.freeCtr := by
  unfold State.mapCtx; split <;> rfl
@[simp] theorem State.mapCtx_nextId (s : State) (k : Nat) (g : Context → Context) :
    (s.mapCtx k g).nextId = s.nextId := by
  unfold State.mapCtx; split <;> rfl
@[simp] theorem State.mapCtx_time (s : State) (k : Nat) (g : Context → Context) :
    (s.mapCtx k g).time = s.time := by
  unfold State.mapCtx; split <;> rfl
@[simp] theorem State.mapCtx_mem (s : State) (k : Nat) (g : Context → Context) :
    (s.mapCtx k g).mem = s.mem := by
  unfold State.mapCtx; split <;> rfl
@[simp] theorem State.mapCtx_dram (s : State) (k : Nat) (g : Context → Context) :
    (s.mapCtx k g).dram = s.dram := by
  unfold State.mapCtx; split <;> rfl
@[simp] theorem State.mapCtx_unflushed (s : State) (k : Nat) (g : Context → Context) :
    (s.mapCtx k g).unflushed = s.unflushed := by
  unfold State.mapCtx; split <;> rfl
@[simp] theorem State.mapCtx_bad (s : State) (k : Nat) (g : Context → Context) :
    (s.mapCtx k g).bad = s.bad := by
  unfold State.mapCtx; split <;> rfl
@[simp] theorem State.mapCtx_directory (s : State) (k : Nat) (g : Context → Context) :
    (s.mapCtx k g).directory = s.directory := by
  unfold State.mapCtx; split <;> rfl
@[simp] theorem State.mapCtx_leases (s : State) (k : Nat) (g : Context → Context) :
    (s.mapCtx k g).leases = s.leases := by
  unfold State.mapCtx; split <;> rfl
@[simp] theorem State.mapCtx_tlb (s : State) (k : Nat) (g : Context → Context) :
    (s.mapCtx k g).tlb = s.tlb := by
  unfold State.mapCtx; split <;> rfl
@[simp] theorem State.mapCtx_ops (s : State) (k : Nat) (g : Context → Context) :
    (s.mapCtx k g).ops = s.ops := by
  unfold State.mapCtx; split <;> rfl
@[simp] theorem State.mapCtx_waits (s : State) (k : Nat) (g : Context → Context) :
    (s.mapCtx k g).waits = s.waits := by
  unfold State.mapCtx; split <;> rfl
@[simp] theorem State.mapCtx_crews (s : State) (k : Nat) (g : Context → Context) :
    (s.mapCtx k g).crews = s.crews := by
  unfold State.mapCtx; split <;> rfl
@[simp] theorem State.mapCtx_warps (s : State) (k : Nat) (g : Context → Context) :
    (s.mapCtx k g).warps = s.warps := by
  unfold State.mapCtx; split <;> rfl
@[simp] theorem State.mapCtx_cores (s : State) (k : Nat) (g : Context → Context) :
    (s.mapCtx k g).cores = s.cores := by
  unfold State.mapCtx; split <;> rfl
@[simp] theorem State.mapCtx_launches (s : State) (k : Nat) (g : Context → Context) :
    (s.mapCtx k g).launches = s.launches := by
  unfold State.mapCtx; split <;> rfl
@[simp] theorem State.mapCtx_queues (s : State) (k : Nat) (g : Context → Context) :
    (s.mapCtx k g).queues = s.queues := by
  unfold State.mapCtx; split <;> rfl
@[simp] theorem State.mapCtx_placement (s : State) (k : Nat) (g : Context → Context) :
    (s.mapCtx k g).placement = s.placement := by
  unfold State.mapCtx; split <;> rfl
@[simp] theorem State.mapCtx_cage (s : State) (k : Nat) (g : Context → Context) :
    (s.mapCtx k g).cage = s.cage := by
  unfold State.mapCtx; split <;> rfl
@[simp] theorem State.mapCtx_cageGoal (s : State) (k : Nat) (g : Context → Context) :
    (s.mapCtx k g).cageGoal = s.cageGoal := by
  unfold State.mapCtx; split <;> rfl
@[simp] theorem State.mapCtx_channels (s : State) (k : Nat) (g : Context → Context) :
    (s.mapCtx k g).channels = s.channels := by
  unfold State.mapCtx; split <;> rfl
@[simp] theorem State.mapCtx_images (s : State) (k : Nat) (g : Context → Context) :
    (s.mapCtx k g).images = s.images := by
  unfold State.mapCtx; split <;> rfl
@[simp] theorem State.mapCtx_fabric (s : State) (k : Nat) (g : Context → Context) :
    (s.mapCtx k g).fabric = s.fabric := by
  unfold State.mapCtx; split <;> rfl
@[simp] theorem State.mapCtx_trust (s : State) (k : Nat) (g : Context → Context) :
    (s.mapCtx k g).trust = s.trust := by
  unfold State.mapCtx; split <;> rfl
@[simp] theorem State.mapCtx_shot (s : State) (k : Nat) (g : Context → Context) :
    (s.mapCtx k g).shot = s.shot := by
  unfold State.mapCtx; split <;> rfl
@[simp] theorem State.mapCtx_shotAt (s : State) (k : Nat) (g : Context → Context) :
    (s.mapCtx k g).shotAt = s.shotAt := by
  unfold State.mapCtx; split <;> rfl
@[simp] theorem State.mapCtx_plant (s : State) (k : Nat) (g : Context → Context) :
    (s.mapCtx k g).plant = s.plant := by
  unfold State.mapCtx; split <;> rfl
@[simp] theorem State.mapCrew_agenda (s : State) (k : Nat) (g : Crew → Crew) :
    (s.mapCrew k g).agenda = s.agenda := by
  unfold State.mapCrew; split <;> rfl
@[simp] theorem State.mapCrew_cur (s : State) (k : Nat) (g : Crew → Crew) :
    (s.mapCrew k g).cur = s.cur := by
  unfold State.mapCrew; split <;> rfl
@[simp] theorem State.mapCrew_freeCtr (s : State) (k : Nat) (g : Crew → Crew) :
    (s.mapCrew k g).freeCtr = s.freeCtr := by
  unfold State.mapCrew; split <;> rfl
@[simp] theorem State.mapCrew_nextId (s : State) (k : Nat) (g : Crew → Crew) :
    (s.mapCrew k g).nextId = s.nextId := by
  unfold State.mapCrew; split <;> rfl
@[simp] theorem State.mapCrew_time (s : State) (k : Nat) (g : Crew → Crew) :
    (s.mapCrew k g).time = s.time := by
  unfold State.mapCrew; split <;> rfl
@[simp] theorem State.mapCrew_mem (s : State) (k : Nat) (g : Crew → Crew) :
    (s.mapCrew k g).mem = s.mem := by
  unfold State.mapCrew; split <;> rfl
@[simp] theorem State.mapCrew_dram (s : State) (k : Nat) (g : Crew → Crew) :
    (s.mapCrew k g).dram = s.dram := by
  unfold State.mapCrew; split <;> rfl
@[simp] theorem State.mapCrew_unflushed (s : State) (k : Nat) (g : Crew → Crew) :
    (s.mapCrew k g).unflushed = s.unflushed := by
  unfold State.mapCrew; split <;> rfl
@[simp] theorem State.mapCrew_bad (s : State) (k : Nat) (g : Crew → Crew) :
    (s.mapCrew k g).bad = s.bad := by
  unfold State.mapCrew; split <;> rfl
@[simp] theorem State.mapCrew_directory (s : State) (k : Nat) (g : Crew → Crew) :
    (s.mapCrew k g).directory = s.directory := by
  unfold State.mapCrew; split <;> rfl
@[simp] theorem State.mapCrew_leases (s : State) (k : Nat) (g : Crew → Crew) :
    (s.mapCrew k g).leases = s.leases := by
  unfold State.mapCrew; split <;> rfl
@[simp] theorem State.mapCrew_tlb (s : State) (k : Nat) (g : Crew → Crew) :
    (s.mapCrew k g).tlb = s.tlb := by
  unfold State.mapCrew; split <;> rfl
@[simp] theorem State.mapCrew_ops (s : State) (k : Nat) (g : Crew → Crew) :
    (s.mapCrew k g).ops = s.ops := by
  unfold State.mapCrew; split <;> rfl
@[simp] theorem State.mapCrew_waits (s : State) (k : Nat) (g : Crew → Crew) :
    (s.mapCrew k g).waits = s.waits := by
  unfold State.mapCrew; split <;> rfl
@[simp] theorem State.mapCrew_warps (s : State) (k : Nat) (g : Crew → Crew) :
    (s.mapCrew k g).warps = s.warps := by
  unfold State.mapCrew; split <;> rfl
@[simp] theorem State.mapCrew_cores (s : State) (k : Nat) (g : Crew → Crew) :
    (s.mapCrew k g).cores = s.cores := by
  unfold State.mapCrew; split <;> rfl
@[simp] theorem State.mapCrew_launches (s : State) (k : Nat) (g : Crew → Crew) :
    (s.mapCrew k g).launches = s.launches := by
  unfold State.mapCrew; split <;> rfl
@[simp] theorem State.mapCrew_queues (s : State) (k : Nat) (g : Crew → Crew) :
    (s.mapCrew k g).queues = s.queues := by
  unfold State.mapCrew; split <;> rfl
@[simp] theorem State.mapCrew_placement (s : State) (k : Nat) (g : Crew → Crew) :
    (s.mapCrew k g).placement = s.placement := by
  unfold State.mapCrew; split <;> rfl
@[simp] theorem State.mapCrew_cage (s : State) (k : Nat) (g : Crew → Crew) :
    (s.mapCrew k g).cage = s.cage := by
  unfold State.mapCrew; split <;> rfl
@[simp] theorem State.mapCrew_cageGoal (s : State) (k : Nat) (g : Crew → Crew) :
    (s.mapCrew k g).cageGoal = s.cageGoal := by
  unfold State.mapCrew; split <;> rfl
@[simp] theorem State.mapCrew_ctxs (s : State) (k : Nat) (g : Crew → Crew) :
    (s.mapCrew k g).ctxs = s.ctxs := by
  unfold State.mapCrew; split <;> rfl
@[simp] theorem State.mapCrew_channels (s : State) (k : Nat) (g : Crew → Crew) :
    (s.mapCrew k g).channels = s.channels := by
  unfold State.mapCrew; split <;> rfl
@[simp] theorem State.mapCrew_images (s : State) (k : Nat) (g : Crew → Crew) :
    (s.mapCrew k g).images = s.images := by
  unfold State.mapCrew; split <;> rfl
@[simp] theorem State.mapCrew_fabric (s : State) (k : Nat) (g : Crew → Crew) :
    (s.mapCrew k g).fabric = s.fabric := by
  unfold State.mapCrew; split <;> rfl
@[simp] theorem State.mapCrew_trust (s : State) (k : Nat) (g : Crew → Crew) :
    (s.mapCrew k g).trust = s.trust := by
  unfold State.mapCrew; split <;> rfl
@[simp] theorem State.mapCrew_shot (s : State) (k : Nat) (g : Crew → Crew) :
    (s.mapCrew k g).shot = s.shot := by
  unfold State.mapCrew; split <;> rfl
@[simp] theorem State.mapCrew_shotAt (s : State) (k : Nat) (g : Crew → Crew) :
    (s.mapCrew k g).shotAt = s.shotAt := by
  unfold State.mapCrew; split <;> rfl
@[simp] theorem State.mapCrew_plant (s : State) (k : Nat) (g : Crew → Crew) :
    (s.mapCrew k g).plant = s.plant := by
  unfold State.mapCrew; split <;> rfl

/-! ## A core changed, a request added, the issue slot left -/

@[simp] theorem State.mapCore_agenda (s : State) (n : Nat) (g : Core → Core) :
    (s.mapCore n g).agenda = s.agenda := rfl
@[simp] theorem State.mapCore_cur (s : State) (n : Nat) (g : Core → Core) :
    (s.mapCore n g).cur = s.cur := rfl
@[simp] theorem State.mapCore_freeCtr (s : State) (n : Nat) (g : Core → Core) :
    (s.mapCore n g).freeCtr = s.freeCtr := rfl
@[simp] theorem State.mapCore_nextId (s : State) (n : Nat) (g : Core → Core) :
    (s.mapCore n g).nextId = s.nextId := rfl
@[simp] theorem State.mapCore_time (s : State) (n : Nat) (g : Core → Core) :
    (s.mapCore n g).time = s.time := rfl
@[simp] theorem State.mapCore_mem (s : State) (n : Nat) (g : Core → Core) :
    (s.mapCore n g).mem = s.mem := rfl
@[simp] theorem State.mapCore_dram (s : State) (n : Nat) (g : Core → Core) :
    (s.mapCore n g).dram = s.dram := rfl
@[simp] theorem State.mapCore_unflushed (s : State) (n : Nat) (g : Core → Core) :
    (s.mapCore n g).unflushed = s.unflushed := rfl
@[simp] theorem State.mapCore_bad (s : State) (n : Nat) (g : Core → Core) :
    (s.mapCore n g).bad = s.bad := rfl
@[simp] theorem State.mapCore_directory (s : State) (n : Nat) (g : Core → Core) :
    (s.mapCore n g).directory = s.directory := rfl
@[simp] theorem State.mapCore_leases (s : State) (n : Nat) (g : Core → Core) :
    (s.mapCore n g).leases = s.leases := rfl
@[simp] theorem State.mapCore_tlb (s : State) (n : Nat) (g : Core → Core) :
    (s.mapCore n g).tlb = s.tlb := rfl
@[simp] theorem State.mapCore_ops (s : State) (n : Nat) (g : Core → Core) :
    (s.mapCore n g).ops = s.ops := rfl
@[simp] theorem State.mapCore_waits (s : State) (n : Nat) (g : Core → Core) :
    (s.mapCore n g).waits = s.waits := rfl
@[simp] theorem State.mapCore_crews (s : State) (n : Nat) (g : Core → Core) :
    (s.mapCore n g).crews = s.crews := rfl
@[simp] theorem State.mapCore_warps (s : State) (n : Nat) (g : Core → Core) :
    (s.mapCore n g).warps = s.warps := rfl
@[simp] theorem State.mapCore_cores (s : State) (n : Nat) (g : Core → Core) :
    (s.mapCore n g).cores = Tab.set Core.empty s.cores n (g (s.core n)) := rfl
@[simp] theorem State.mapCore_launches (s : State) (n : Nat) (g : Core → Core) :
    (s.mapCore n g).launches = s.launches := rfl
@[simp] theorem State.mapCore_queues (s : State) (n : Nat) (g : Core → Core) :
    (s.mapCore n g).queues = s.queues := rfl
@[simp] theorem State.mapCore_placement (s : State) (n : Nat) (g : Core → Core) :
    (s.mapCore n g).placement = s.placement := rfl
@[simp] theorem State.mapCore_cage (s : State) (n : Nat) (g : Core → Core) :
    (s.mapCore n g).cage = s.cage := rfl
@[simp] theorem State.mapCore_cageGoal (s : State) (n : Nat) (g : Core → Core) :
    (s.mapCore n g).cageGoal = s.cageGoal := rfl
@[simp] theorem State.mapCore_ctxs (s : State) (n : Nat) (g : Core → Core) :
    (s.mapCore n g).ctxs = s.ctxs := rfl
@[simp] theorem State.mapCore_channels (s : State) (n : Nat) (g : Core → Core) :
    (s.mapCore n g).channels = s.channels := rfl
@[simp] theorem State.mapCore_images (s : State) (n : Nat) (g : Core → Core) :
    (s.mapCore n g).images = s.images := rfl
@[simp] theorem State.mapCore_fabric (s : State) (n : Nat) (g : Core → Core) :
    (s.mapCore n g).fabric = s.fabric := rfl
@[simp] theorem State.mapCore_trust (s : State) (n : Nat) (g : Core → Core) :
    (s.mapCore n g).trust = s.trust := rfl
@[simp] theorem State.mapCore_shot (s : State) (n : Nat) (g : Core → Core) :
    (s.mapCore n g).shot = s.shot := rfl
@[simp] theorem State.mapCore_shotAt (s : State) (n : Nat) (g : Core → Core) :
    (s.mapCore n g).shotAt = s.shotAt := rfl
@[simp] theorem State.mapCore_plant (s : State) (n : Nat) (g : Core → Core) :
    (s.mapCore n g).plant = s.plant := rfl
@[simp] theorem State.addOp_agenda (s : State) (src : Src) (kind : OpKind) (granted completed : Bool) :
    (s.addOp src kind granted completed).agenda = s.agenda := rfl
@[simp] theorem State.addOp_cur (s : State) (src : Src) (kind : OpKind) (granted completed : Bool) :
    (s.addOp src kind granted completed).cur = s.cur := rfl
@[simp] theorem State.addOp_freeCtr (s : State) (src : Src) (kind : OpKind) (granted completed : Bool) :
    (s.addOp src kind granted completed).freeCtr = s.freeCtr := rfl
@[simp] theorem State.addOp_nextId (s : State) (src : Src) (kind : OpKind) (granted completed : Bool) :
    (s.addOp src kind granted completed).nextId = s.nextId + 1 := rfl
@[simp] theorem State.addOp_time (s : State) (src : Src) (kind : OpKind) (granted completed : Bool) :
    (s.addOp src kind granted completed).time = s.time := rfl
@[simp] theorem State.addOp_mem (s : State) (src : Src) (kind : OpKind) (granted completed : Bool) :
    (s.addOp src kind granted completed).mem = s.mem := rfl
@[simp] theorem State.addOp_dram (s : State) (src : Src) (kind : OpKind) (granted completed : Bool) :
    (s.addOp src kind granted completed).dram = s.dram := rfl
@[simp] theorem State.addOp_unflushed (s : State) (src : Src) (kind : OpKind) (granted completed : Bool) :
    (s.addOp src kind granted completed).unflushed = s.unflushed := rfl
@[simp] theorem State.addOp_bad (s : State) (src : Src) (kind : OpKind) (granted completed : Bool) :
    (s.addOp src kind granted completed).bad = s.bad := rfl
@[simp] theorem State.addOp_directory (s : State) (src : Src) (kind : OpKind) (granted completed : Bool) :
    (s.addOp src kind granted completed).directory = s.directory := rfl
@[simp] theorem State.addOp_leases (s : State) (src : Src) (kind : OpKind) (granted completed : Bool) :
    (s.addOp src kind granted completed).leases = s.leases := rfl
@[simp] theorem State.addOp_tlb (s : State) (src : Src) (kind : OpKind) (granted completed : Bool) :
    (s.addOp src kind granted completed).tlb = s.tlb := rfl
@[simp] theorem State.addOp_ops (s : State) (src : Src) (kind : OpKind) (granted completed : Bool) :
    (s.addOp src kind granted completed).ops = s.ops ++ [⟨s.nextId, kind, src, granted, completed, s.nextId, s.nextId⟩] := rfl
@[simp] theorem State.addOp_waits (s : State) (src : Src) (kind : OpKind) (granted completed : Bool) :
    (s.addOp src kind granted completed).waits = s.waits := rfl
@[simp] theorem State.addOp_crews (s : State) (src : Src) (kind : OpKind) (granted completed : Bool) :
    (s.addOp src kind granted completed).crews = s.crews := rfl
@[simp] theorem State.addOp_warps (s : State) (src : Src) (kind : OpKind) (granted completed : Bool) :
    (s.addOp src kind granted completed).warps = s.warps := rfl
@[simp] theorem State.addOp_cores (s : State) (src : Src) (kind : OpKind) (granted completed : Bool) :
    (s.addOp src kind granted completed).cores = s.cores := rfl
@[simp] theorem State.addOp_launches (s : State) (src : Src) (kind : OpKind) (granted completed : Bool) :
    (s.addOp src kind granted completed).launches = s.launches := rfl
@[simp] theorem State.addOp_queues (s : State) (src : Src) (kind : OpKind) (granted completed : Bool) :
    (s.addOp src kind granted completed).queues = s.queues := rfl
@[simp] theorem State.addOp_placement (s : State) (src : Src) (kind : OpKind) (granted completed : Bool) :
    (s.addOp src kind granted completed).placement = s.placement := rfl
@[simp] theorem State.addOp_cage (s : State) (src : Src) (kind : OpKind) (granted completed : Bool) :
    (s.addOp src kind granted completed).cage = s.cage := rfl
@[simp] theorem State.addOp_cageGoal (s : State) (src : Src) (kind : OpKind) (granted completed : Bool) :
    (s.addOp src kind granted completed).cageGoal = s.cageGoal := rfl
@[simp] theorem State.addOp_ctxs (s : State) (src : Src) (kind : OpKind) (granted completed : Bool) :
    (s.addOp src kind granted completed).ctxs = s.ctxs := rfl
@[simp] theorem State.addOp_channels (s : State) (src : Src) (kind : OpKind) (granted completed : Bool) :
    (s.addOp src kind granted completed).channels = s.channels := rfl
@[simp] theorem State.addOp_images (s : State) (src : Src) (kind : OpKind) (granted completed : Bool) :
    (s.addOp src kind granted completed).images = s.images := rfl
@[simp] theorem State.addOp_fabric (s : State) (src : Src) (kind : OpKind) (granted completed : Bool) :
    (s.addOp src kind granted completed).fabric = s.fabric := rfl
@[simp] theorem State.addOp_trust (s : State) (src : Src) (kind : OpKind) (granted completed : Bool) :
    (s.addOp src kind granted completed).trust = s.trust := rfl
@[simp] theorem State.addOp_shot (s : State) (src : Src) (kind : OpKind) (granted completed : Bool) :
    (s.addOp src kind granted completed).shot = s.shot := rfl
@[simp] theorem State.addOp_shotAt (s : State) (src : Src) (kind : OpKind) (granted completed : Bool) :
    (s.addOp src kind granted completed).shotAt = s.shotAt := rfl
@[simp] theorem State.addOp_plant (s : State) (src : Src) (kind : OpKind) (granted completed : Bool) :
    (s.addOp src kind granted completed).plant = s.plant := rfl
@[simp] theorem State.addPart_agenda (s : State) (first : Nat) (src : Src) (kind : OpKind) (granted : Bool) :
    (s.addPart first src kind granted).agenda = s.agenda := rfl
@[simp] theorem State.addPart_cur (s : State) (first : Nat) (src : Src) (kind : OpKind) (granted : Bool) :
    (s.addPart first src kind granted).cur = s.cur := rfl
@[simp] theorem State.addPart_freeCtr (s : State) (first : Nat) (src : Src) (kind : OpKind) (granted : Bool) :
    (s.addPart first src kind granted).freeCtr = s.freeCtr := rfl
@[simp] theorem State.addPart_nextId (s : State) (first : Nat) (src : Src) (kind : OpKind) (granted : Bool) :
    (s.addPart first src kind granted).nextId = s.nextId + 1 := rfl
@[simp] theorem State.addPart_time (s : State) (first : Nat) (src : Src) (kind : OpKind) (granted : Bool) :
    (s.addPart first src kind granted).time = s.time := rfl
@[simp] theorem State.addPart_mem (s : State) (first : Nat) (src : Src) (kind : OpKind) (granted : Bool) :
    (s.addPart first src kind granted).mem = s.mem := rfl
@[simp] theorem State.addPart_dram (s : State) (first : Nat) (src : Src) (kind : OpKind) (granted : Bool) :
    (s.addPart first src kind granted).dram = s.dram := rfl
@[simp] theorem State.addPart_unflushed (s : State) (first : Nat) (src : Src) (kind : OpKind) (granted : Bool) :
    (s.addPart first src kind granted).unflushed = s.unflushed := rfl
@[simp] theorem State.addPart_bad (s : State) (first : Nat) (src : Src) (kind : OpKind) (granted : Bool) :
    (s.addPart first src kind granted).bad = s.bad := rfl
@[simp] theorem State.addPart_directory (s : State) (first : Nat) (src : Src) (kind : OpKind) (granted : Bool) :
    (s.addPart first src kind granted).directory = s.directory := rfl
@[simp] theorem State.addPart_leases (s : State) (first : Nat) (src : Src) (kind : OpKind) (granted : Bool) :
    (s.addPart first src kind granted).leases = s.leases := rfl
@[simp] theorem State.addPart_tlb (s : State) (first : Nat) (src : Src) (kind : OpKind) (granted : Bool) :
    (s.addPart first src kind granted).tlb = s.tlb := rfl
@[simp] theorem State.addPart_ops (s : State) (first : Nat) (src : Src) (kind : OpKind) (granted : Bool) :
    (s.addPart first src kind granted).ops = s.ops ++ [⟨s.nextId, kind, src, granted, false, s.nextId, first⟩] := rfl
@[simp] theorem State.addPart_waits (s : State) (first : Nat) (src : Src) (kind : OpKind) (granted : Bool) :
    (s.addPart first src kind granted).waits = s.waits := rfl
@[simp] theorem State.addPart_crews (s : State) (first : Nat) (src : Src) (kind : OpKind) (granted : Bool) :
    (s.addPart first src kind granted).crews = s.crews := rfl
@[simp] theorem State.addPart_warps (s : State) (first : Nat) (src : Src) (kind : OpKind) (granted : Bool) :
    (s.addPart first src kind granted).warps = s.warps := rfl
@[simp] theorem State.addPart_cores (s : State) (first : Nat) (src : Src) (kind : OpKind) (granted : Bool) :
    (s.addPart first src kind granted).cores = s.cores := rfl
@[simp] theorem State.addPart_launches (s : State) (first : Nat) (src : Src) (kind : OpKind) (granted : Bool) :
    (s.addPart first src kind granted).launches = s.launches := rfl
@[simp] theorem State.addPart_queues (s : State) (first : Nat) (src : Src) (kind : OpKind) (granted : Bool) :
    (s.addPart first src kind granted).queues = s.queues := rfl
@[simp] theorem State.addPart_placement (s : State) (first : Nat) (src : Src) (kind : OpKind) (granted : Bool) :
    (s.addPart first src kind granted).placement = s.placement := rfl
@[simp] theorem State.addPart_cage (s : State) (first : Nat) (src : Src) (kind : OpKind) (granted : Bool) :
    (s.addPart first src kind granted).cage = s.cage := rfl
@[simp] theorem State.addPart_cageGoal (s : State) (first : Nat) (src : Src) (kind : OpKind) (granted : Bool) :
    (s.addPart first src kind granted).cageGoal = s.cageGoal := rfl
@[simp] theorem State.addPart_ctxs (s : State) (first : Nat) (src : Src) (kind : OpKind) (granted : Bool) :
    (s.addPart first src kind granted).ctxs = s.ctxs := rfl
@[simp] theorem State.addPart_channels (s : State) (first : Nat) (src : Src) (kind : OpKind) (granted : Bool) :
    (s.addPart first src kind granted).channels = s.channels := rfl
@[simp] theorem State.addPart_images (s : State) (first : Nat) (src : Src) (kind : OpKind) (granted : Bool) :
    (s.addPart first src kind granted).images = s.images := rfl
@[simp] theorem State.addPart_fabric (s : State) (first : Nat) (src : Src) (kind : OpKind) (granted : Bool) :
    (s.addPart first src kind granted).fabric = s.fabric := rfl
@[simp] theorem State.addPart_trust (s : State) (first : Nat) (src : Src) (kind : OpKind) (granted : Bool) :
    (s.addPart first src kind granted).trust = s.trust := rfl
@[simp] theorem State.addPart_shot (s : State) (first : Nat) (src : Src) (kind : OpKind) (granted : Bool) :
    (s.addPart first src kind granted).shot = s.shot := rfl
@[simp] theorem State.addPart_shotAt (s : State) (first : Nat) (src : Src) (kind : OpKind) (granted : Bool) :
    (s.addPart first src kind granted).shotAt = s.shotAt := rfl
@[simp] theorem State.addPart_plant (s : State) (first : Nat) (src : Src) (kind : OpKind) (granted : Bool) :
    (s.addPart first src kind granted).plant = s.plant := rfl
@[simp] theorem State.release_agenda (s : State) (k n : Nat) :
    (s.release k n).agenda = s.agenda := by
  unfold State.release; split <;> rfl
@[simp] theorem State.release_freeCtr (s : State) (k n : Nat) :
    (s.release k n).freeCtr = s.freeCtr := by
  unfold State.release; split <;> rfl
@[simp] theorem State.release_nextId (s : State) (k n : Nat) :
    (s.release k n).nextId = s.nextId := by
  unfold State.release; split <;> rfl
@[simp] theorem State.release_time (s : State) (k n : Nat) :
    (s.release k n).time = s.time := by
  unfold State.release; split <;> rfl
@[simp] theorem State.release_mem (s : State) (k n : Nat) :
    (s.release k n).mem = s.mem := by
  unfold State.release; split <;> rfl
@[simp] theorem State.release_dram (s : State) (k n : Nat) :
    (s.release k n).dram = s.dram := by
  unfold State.release; split <;> rfl
@[simp] theorem State.release_unflushed (s : State) (k n : Nat) :
    (s.release k n).unflushed = s.unflushed := by
  unfold State.release; split <;> rfl
@[simp] theorem State.release_bad (s : State) (k n : Nat) :
    (s.release k n).bad = s.bad := by
  unfold State.release; split <;> rfl
@[simp] theorem State.release_directory (s : State) (k n : Nat) :
    (s.release k n).directory = s.directory := by
  unfold State.release; split <;> rfl
@[simp] theorem State.release_leases (s : State) (k n : Nat) :
    (s.release k n).leases = s.leases := by
  unfold State.release; split <;> rfl
@[simp] theorem State.release_tlb (s : State) (k n : Nat) :
    (s.release k n).tlb = s.tlb := by
  unfold State.release; split <;> rfl
@[simp] theorem State.release_ops (s : State) (k n : Nat) :
    (s.release k n).ops = s.ops := by
  unfold State.release; split <;> rfl
@[simp] theorem State.release_waits (s : State) (k n : Nat) :
    (s.release k n).waits = s.waits := by
  unfold State.release; split <;> rfl
@[simp] theorem State.release_crews (s : State) (k n : Nat) :
    (s.release k n).crews = s.crews := by
  unfold State.release; split <;> rfl
@[simp] theorem State.release_warps (s : State) (k n : Nat) :
    (s.release k n).warps = s.warps := by
  unfold State.release; split <;> rfl
@[simp] theorem State.release_cores (s : State) (k n : Nat) :
    (s.release k n).cores = s.cores := by
  unfold State.release; split <;> rfl
@[simp] theorem State.release_launches (s : State) (k n : Nat) :
    (s.release k n).launches = s.launches := by
  unfold State.release; split <;> rfl
@[simp] theorem State.release_queues (s : State) (k n : Nat) :
    (s.release k n).queues = s.queues := by
  unfold State.release; split <;> rfl
@[simp] theorem State.release_placement (s : State) (k n : Nat) :
    (s.release k n).placement = s.placement := by
  unfold State.release; split <;> rfl
@[simp] theorem State.release_cage (s : State) (k n : Nat) :
    (s.release k n).cage = s.cage := by
  unfold State.release; split <;> rfl
@[simp] theorem State.release_cageGoal (s : State) (k n : Nat) :
    (s.release k n).cageGoal = s.cageGoal := by
  unfold State.release; split <;> rfl
@[simp] theorem State.release_ctxs (s : State) (k n : Nat) :
    (s.release k n).ctxs = s.ctxs := by
  unfold State.release; split <;> rfl
@[simp] theorem State.release_channels (s : State) (k n : Nat) :
    (s.release k n).channels = s.channels := by
  unfold State.release; split <;> rfl
@[simp] theorem State.release_images (s : State) (k n : Nat) :
    (s.release k n).images = s.images := by
  unfold State.release; split <;> rfl
@[simp] theorem State.release_fabric (s : State) (k n : Nat) :
    (s.release k n).fabric = s.fabric := by
  unfold State.release; split <;> rfl
@[simp] theorem State.release_trust (s : State) (k n : Nat) :
    (s.release k n).trust = s.trust := by
  unfold State.release; split <;> rfl
@[simp] theorem State.release_shot (s : State) (k n : Nat) :
    (s.release k n).shot = s.shot := by
  unfold State.release; split <;> rfl
@[simp] theorem State.release_shotAt (s : State) (k n : Nat) :
    (s.release k n).shotAt = s.shotAt := by
  unfold State.release; split <;> rfl
@[simp] theorem State.release_plant (s : State) (k n : Nat) :
    (s.release k n).plant = s.plant := by
  unfold State.release; split <;> rfl

/-! ## Registers of a warp -/

@[simp] theorem Warp.putV_crew (w : Warp) (n : Nat) (m : LaneMask) (x : Lanes) :
    (w.putV n m x).crew = w.crew := rfl
@[simp] theorem Warp.putV_id (w : Warp) (n : Nat) (m : LaneMask) (x : Lanes) :
    (w.putV n m x).id = w.id := rfl
@[simp] theorem Warp.putV_lanes (w : Warp) (n : Nat) (m : LaneMask) (x : Lanes) :
    (w.putV n m x).lanes = w.lanes := rfl
@[simp] theorem Warp.putV_nregs (w : Warp) (n : Nat) (m : LaneMask) (x : Lanes) :
    (w.putV n m x).nregs = w.nregs := rfl
@[simp] theorem Warp.putV_v (w : Warp) (n : Nat) (m : LaneMask) (x : Lanes) :
    (w.putV n m x).v = Tab.set Lanes.zero w.v n (Lanes.merge m x (w.vreg n)) := rfl
@[simp] theorem Warp.putV_p (w : Warp) (n : Nat) (m : LaneMask) (x : Lanes) :
    (w.putV n m x).p = w.p := rfl
@[simp] theorem Warp.putV_s (w : Warp) (n : Nat) (m : LaneMask) (x : Lanes) :
    (w.putV n m x).s = w.s := rfl
@[simp] theorem Warp.putV_b (w : Warp) (n : Nat) (m : LaneMask) (x : Lanes) :
    (w.putV n m x).b = w.b := rfl
@[simp] theorem Warp.putV_tags (w : Warp) (n : Nat) (m : LaneMask) (x : Lanes) :
    (w.putV n m x).tags = w.tags := rfl
@[simp] theorem Warp.putV_slices (w : Warp) (n : Nat) (m : LaneMask) (x : Lanes) :
    (w.putV n m x).slices = w.slices := rfl
@[simp] theorem Warp.putV_frags (w : Warp) (n : Nat) (m : LaneMask) (x : Lanes) :
    (w.putV n m x).frags = w.frags := rfl
@[simp] theorem Warp.putV_origLane (w : Warp) (n : Nat) (m : LaneMask) (x : Lanes) :
    (w.putV n m x).origLane = w.origLane := rfl
@[simp] theorem Warp.putV_rdraw (w : Warp) (n : Nat) (m : LaneMask) (x : Lanes) :
    (w.putV n m x).rdraw = w.rdraw := rfl
@[simp] theorem Warp.putV_rseed (w : Warp) (n : Nat) (m : LaneMask) (x : Lanes) :
    (w.putV n m x).rseed = w.rseed := rfl
@[simp] theorem Warp.putV_recCount (w : Warp) (n : Nat) (m : LaneMask) (x : Lanes) :
    (w.putV n m x).recCount = w.recCount := rfl
@[simp] theorem Warp.putV_status (w : Warp) (n : Nat) (m : LaneMask) (x : Lanes) :
    (w.putV n m x).status = w.status := rfl
@[simp] theorem Warp.putV_flags (w : Warp) (n : Nat) (m : LaneMask) (x : Lanes) :
    (w.putV n m x).flags = w.flags := rfl
@[simp] theorem Warp.putV_xc (w : Warp) (n : Nat) (m : LaneMask) (x : Lanes) :
    (w.putV n m x).xc = w.xc := rfl
@[simp] theorem Warp.putV_wtimer (w : Warp) (n : Nat) (m : LaneMask) (x : Lanes) :
    (w.putV n m x).wtimer = w.wtimer := rfl
@[simp] theorem Warp.putV_tmrthr (w : Warp) (n : Nat) (m : LaneMask) (x : Lanes) :
    (w.putV n m x).tmrthr = w.tmrthr := rfl
@[simp] theorem Warp.putV_tvec (w : Warp) (n : Nat) (m : LaneMask) (x : Lanes) :
    (w.putV n m x).tvec = w.tvec := rfl
@[simp] theorem Warp.putV_wt (w : Warp) (n : Nat) (m : LaneMask) (x : Lanes) :
    (w.putV n m x).wt = w.wt := rfl
@[simp] theorem Warp.putV_wsel (w : Warp) (n : Nat) (m : LaneMask) (x : Lanes) :
    (w.putV n m x).wsel = w.wsel := rfl
@[simp] theorem Warp.putV_haarcnt (w : Warp) (n : Nat) (m : LaneMask) (x : Lanes) :
    (w.putV n m x).haarcnt = w.haarcnt := rfl
@[simp] theorem Warp.putV_oc (w : Warp) (n : Nat) (m : LaneMask) (x : Lanes) :
    (w.putV n m x).oc = w.oc := rfl
@[simp] theorem Warp.putV_pending (w : Warp) (n : Nat) (m : LaneMask) (x : Lanes) :
    (w.putV n m x).pending = w.pending := rfl
@[simp] theorem Warp.putV_batch (w : Warp) (n : Nat) (m : LaneMask) (x : Lanes) :
    (w.putV n m x).batch = w.batch := rfl
@[simp] theorem Warp.putV_closedBatches (w : Warp) (n : Nat) (m : LaneMask) (x : Lanes) :
    (w.putV n m x).closedBatches = w.closedBatches := rfl
@[simp] theorem Warp.putV_window (w : Warp) (n : Nat) (m : LaneMask) (x : Lanes) :
    (w.putV n m x).window = w.window := rfl
@[simp] theorem Warp.putV_closing (w : Warp) (n : Nat) (m : LaneMask) (x : Lanes) :
    (w.putV n m x).closing = w.closing := rfl
@[simp] theorem Warp.putV_stopeMasks (w : Warp) (n : Nat) (m : LaneMask) (x : Lanes) :
    (w.putV n m x).stopeMasks = w.stopeMasks := rfl
@[simp] theorem Warp.putV_bad (w : Warp) (n : Nat) (m : LaneMask) (x : Lanes) :
    (w.putV n m x).bad = if m = BitVec.allOnes 32 then w.bad.filter (· != .v n) else w.bad := rfl
@[simp] theorem Warp.putV_evicted (w : Warp) (n : Nat) (m : LaneMask) (x : Lanes) :
    (w.putV n m x).evicted = w.evicted := rfl
@[simp] theorem Warp.putV_retired (w : Warp) (n : Nat) (m : LaneMask) (x : Lanes) :
    (w.putV n m x).retired = w.retired := rfl
@[simp] theorem Warp.setV_crew (w : Warp) (ty n : Nat) (m : LaneMask) (x : Lanes) :
    (w.setV ty n m x).crew = w.crew := by
  unfold Warp.setV; split <;> rfl
@[simp] theorem Warp.setV_id (w : Warp) (ty n : Nat) (m : LaneMask) (x : Lanes) :
    (w.setV ty n m x).id = w.id := by
  unfold Warp.setV; split <;> rfl
@[simp] theorem Warp.setV_lanes (w : Warp) (ty n : Nat) (m : LaneMask) (x : Lanes) :
    (w.setV ty n m x).lanes = w.lanes := by
  unfold Warp.setV; split <;> rfl
@[simp] theorem Warp.setV_nregs (w : Warp) (ty n : Nat) (m : LaneMask) (x : Lanes) :
    (w.setV ty n m x).nregs = w.nregs := by
  unfold Warp.setV; split <;> rfl
@[simp] theorem Warp.setV_p (w : Warp) (ty n : Nat) (m : LaneMask) (x : Lanes) :
    (w.setV ty n m x).p = w.p := by
  unfold Warp.setV; split <;> rfl
@[simp] theorem Warp.setV_s (w : Warp) (ty n : Nat) (m : LaneMask) (x : Lanes) :
    (w.setV ty n m x).s = w.s := by
  unfold Warp.setV; split <;> rfl
@[simp] theorem Warp.setV_b (w : Warp) (ty n : Nat) (m : LaneMask) (x : Lanes) :
    (w.setV ty n m x).b = w.b := by
  unfold Warp.setV; split <;> rfl
@[simp] theorem Warp.setV_slices (w : Warp) (ty n : Nat) (m : LaneMask) (x : Lanes) :
    (w.setV ty n m x).slices = w.slices := by
  unfold Warp.setV; split <;> rfl
@[simp] theorem Warp.setV_frags (w : Warp) (ty n : Nat) (m : LaneMask) (x : Lanes) :
    (w.setV ty n m x).frags = w.frags := by
  unfold Warp.setV; split <;> rfl
@[simp] theorem Warp.setV_origLane (w : Warp) (ty n : Nat) (m : LaneMask) (x : Lanes) :
    (w.setV ty n m x).origLane = w.origLane := by
  unfold Warp.setV; split <;> rfl
@[simp] theorem Warp.setV_rdraw (w : Warp) (ty n : Nat) (m : LaneMask) (x : Lanes) :
    (w.setV ty n m x).rdraw = w.rdraw := by
  unfold Warp.setV; split <;> rfl
@[simp] theorem Warp.setV_rseed (w : Warp) (ty n : Nat) (m : LaneMask) (x : Lanes) :
    (w.setV ty n m x).rseed = w.rseed := by
  unfold Warp.setV; split <;> rfl
@[simp] theorem Warp.setV_recCount (w : Warp) (ty n : Nat) (m : LaneMask) (x : Lanes) :
    (w.setV ty n m x).recCount = w.recCount := by
  unfold Warp.setV; split <;> rfl
@[simp] theorem Warp.setV_status (w : Warp) (ty n : Nat) (m : LaneMask) (x : Lanes) :
    (w.setV ty n m x).status = w.status := by
  unfold Warp.setV; split <;> rfl
@[simp] theorem Warp.setV_flags (w : Warp) (ty n : Nat) (m : LaneMask) (x : Lanes) :
    (w.setV ty n m x).flags = w.flags := by
  unfold Warp.setV; split <;> rfl
@[simp] theorem Warp.setV_xc (w : Warp) (ty n : Nat) (m : LaneMask) (x : Lanes) :
    (w.setV ty n m x).xc = w.xc := by
  unfold Warp.setV; split <;> rfl
@[simp] theorem Warp.setV_wtimer (w : Warp) (ty n : Nat) (m : LaneMask) (x : Lanes) :
    (w.setV ty n m x).wtimer = w.wtimer := by
  unfold Warp.setV; split <;> rfl
@[simp] theorem Warp.setV_tmrthr (w : Warp) (ty n : Nat) (m : LaneMask) (x : Lanes) :
    (w.setV ty n m x).tmrthr = w.tmrthr := by
  unfold Warp.setV; split <;> rfl
@[simp] theorem Warp.setV_tvec (w : Warp) (ty n : Nat) (m : LaneMask) (x : Lanes) :
    (w.setV ty n m x).tvec = w.tvec := by
  unfold Warp.setV; split <;> rfl
@[simp] theorem Warp.setV_wt (w : Warp) (ty n : Nat) (m : LaneMask) (x : Lanes) :
    (w.setV ty n m x).wt = w.wt := by
  unfold Warp.setV; split <;> rfl
@[simp] theorem Warp.setV_wsel (w : Warp) (ty n : Nat) (m : LaneMask) (x : Lanes) :
    (w.setV ty n m x).wsel = w.wsel := by
  unfold Warp.setV; split <;> rfl
@[simp] theorem Warp.setV_haarcnt (w : Warp) (ty n : Nat) (m : LaneMask) (x : Lanes) :
    (w.setV ty n m x).haarcnt = w.haarcnt := by
  unfold Warp.setV; split <;> rfl
@[simp] theorem Warp.setV_oc (w : Warp) (ty n : Nat) (m : LaneMask) (x : Lanes) :
    (w.setV ty n m x).oc = w.oc := by
  unfold Warp.setV; split <;> rfl
@[simp] theorem Warp.setV_pending (w : Warp) (ty n : Nat) (m : LaneMask) (x : Lanes) :
    (w.setV ty n m x).pending = w.pending := by
  unfold Warp.setV; split <;> rfl
@[simp] theorem Warp.setV_batch (w : Warp) (ty n : Nat) (m : LaneMask) (x : Lanes) :
    (w.setV ty n m x).batch = w.batch := by
  unfold Warp.setV; split <;> rfl
@[simp] theorem Warp.setV_closedBatches (w : Warp) (ty n : Nat) (m : LaneMask) (x : Lanes) :
    (w.setV ty n m x).closedBatches = w.closedBatches := by
  unfold Warp.setV; split <;> rfl
@[simp] theorem Warp.setV_window (w : Warp) (ty n : Nat) (m : LaneMask) (x : Lanes) :
    (w.setV ty n m x).window = w.window := by
  unfold Warp.setV; split <;> rfl
@[simp] theorem Warp.setV_closing (w : Warp) (ty n : Nat) (m : LaneMask) (x : Lanes) :
    (w.setV ty n m x).closing = w.closing := by
  unfold Warp.setV; split <;> rfl
@[simp] theorem Warp.setV_stopeMasks (w : Warp) (ty n : Nat) (m : LaneMask) (x : Lanes) :
    (w.setV ty n m x).stopeMasks = w.stopeMasks := by
  unfold Warp.setV; split <;> rfl
@[simp] theorem Warp.setV_evicted (w : Warp) (ty n : Nat) (m : LaneMask) (x : Lanes) :
    (w.setV ty n m x).evicted = w.evicted := by
  unfold Warp.setV; split <;> rfl
@[simp] theorem Warp.setV_retired (w : Warp) (ty n : Nat) (m : LaneMask) (x : Lanes) :
    (w.setV ty n m x).retired = w.retired := by
  unfold Warp.setV; split <;> rfl
@[simp] theorem Warp.setP_crew (w : Warp) (n : Nat) (m x : LaneMask) :
    (w.setP n m x).crew = w.crew := rfl
@[simp] theorem Warp.setP_id (w : Warp) (n : Nat) (m x : LaneMask) :
    (w.setP n m x).id = w.id := rfl
@[simp] theorem Warp.setP_lanes (w : Warp) (n : Nat) (m x : LaneMask) :
    (w.setP n m x).lanes = w.lanes := rfl
@[simp] theorem Warp.setP_nregs (w : Warp) (n : Nat) (m x : LaneMask) :
    (w.setP n m x).nregs = w.nregs := rfl
@[simp] theorem Warp.setP_v (w : Warp) (n : Nat) (m x : LaneMask) :
    (w.setP n m x).v = w.v := rfl
@[simp] theorem Warp.setP_p (w : Warp) (n : Nat) (m x : LaneMask) :
    (w.setP n m x).p = Tab.set 0 w.p n ((w.pred n &&& ~~~ m) ||| (x &&& m)) := rfl
@[simp] theorem Warp.setP_s (w : Warp) (n : Nat) (m x : LaneMask) :
    (w.setP n m x).s = w.s := rfl
@[simp] theorem Warp.setP_b (w : Warp) (n : Nat) (m x : LaneMask) :
    (w.setP n m x).b = w.b := rfl
@[simp] theorem Warp.setP_tags (w : Warp) (n : Nat) (m x : LaneMask) :
    (w.setP n m x).tags = w.tags := rfl
@[simp] theorem Warp.setP_slices (w : Warp) (n : Nat) (m x : LaneMask) :
    (w.setP n m x).slices = w.slices := rfl
@[simp] theorem Warp.setP_frags (w : Warp) (n : Nat) (m x : LaneMask) :
    (w.setP n m x).frags = w.frags := rfl
@[simp] theorem Warp.setP_origLane (w : Warp) (n : Nat) (m x : LaneMask) :
    (w.setP n m x).origLane = w.origLane := rfl
@[simp] theorem Warp.setP_rdraw (w : Warp) (n : Nat) (m x : LaneMask) :
    (w.setP n m x).rdraw = w.rdraw := rfl
@[simp] theorem Warp.setP_rseed (w : Warp) (n : Nat) (m x : LaneMask) :
    (w.setP n m x).rseed = w.rseed := rfl
@[simp] theorem Warp.setP_recCount (w : Warp) (n : Nat) (m x : LaneMask) :
    (w.setP n m x).recCount = w.recCount := rfl
@[simp] theorem Warp.setP_status (w : Warp) (n : Nat) (m x : LaneMask) :
    (w.setP n m x).status = w.status := rfl
@[simp] theorem Warp.setP_flags (w : Warp) (n : Nat) (m x : LaneMask) :
    (w.setP n m x).flags = w.flags := rfl
@[simp] theorem Warp.setP_xc (w : Warp) (n : Nat) (m x : LaneMask) :
    (w.setP n m x).xc = w.xc := rfl
@[simp] theorem Warp.setP_wtimer (w : Warp) (n : Nat) (m x : LaneMask) :
    (w.setP n m x).wtimer = w.wtimer := rfl
@[simp] theorem Warp.setP_tmrthr (w : Warp) (n : Nat) (m x : LaneMask) :
    (w.setP n m x).tmrthr = w.tmrthr := rfl
@[simp] theorem Warp.setP_tvec (w : Warp) (n : Nat) (m x : LaneMask) :
    (w.setP n m x).tvec = w.tvec := rfl
@[simp] theorem Warp.setP_wt (w : Warp) (n : Nat) (m x : LaneMask) :
    (w.setP n m x).wt = w.wt := rfl
@[simp] theorem Warp.setP_wsel (w : Warp) (n : Nat) (m x : LaneMask) :
    (w.setP n m x).wsel = w.wsel := rfl
@[simp] theorem Warp.setP_haarcnt (w : Warp) (n : Nat) (m x : LaneMask) :
    (w.setP n m x).haarcnt = w.haarcnt := rfl
@[simp] theorem Warp.setP_oc (w : Warp) (n : Nat) (m x : LaneMask) :
    (w.setP n m x).oc = w.oc := rfl
@[simp] theorem Warp.setP_pending (w : Warp) (n : Nat) (m x : LaneMask) :
    (w.setP n m x).pending = w.pending := rfl
@[simp] theorem Warp.setP_batch (w : Warp) (n : Nat) (m x : LaneMask) :
    (w.setP n m x).batch = w.batch := rfl
@[simp] theorem Warp.setP_closedBatches (w : Warp) (n : Nat) (m x : LaneMask) :
    (w.setP n m x).closedBatches = w.closedBatches := rfl
@[simp] theorem Warp.setP_window (w : Warp) (n : Nat) (m x : LaneMask) :
    (w.setP n m x).window = w.window := rfl
@[simp] theorem Warp.setP_closing (w : Warp) (n : Nat) (m x : LaneMask) :
    (w.setP n m x).closing = w.closing := rfl
@[simp] theorem Warp.setP_stopeMasks (w : Warp) (n : Nat) (m x : LaneMask) :
    (w.setP n m x).stopeMasks = w.stopeMasks := rfl
@[simp] theorem Warp.setP_bad (w : Warp) (n : Nat) (m x : LaneMask) :
    (w.setP n m x).bad = if m = BitVec.allOnes 32 then w.bad.filter (· != .p n) else w.bad := rfl
@[simp] theorem Warp.setP_evicted (w : Warp) (n : Nat) (m x : LaneMask) :
    (w.setP n m x).evicted = w.evicted := rfl
@[simp] theorem Warp.setP_retired (w : Warp) (n : Nat) (m x : LaneMask) :
    (w.setP n m x).retired = w.retired := rfl
@[simp] theorem Warp.setS_crew (w : Warp) (n : Nat) (x : DWord) :
    (w.setS n x).crew = w.crew := rfl
@[simp] theorem Warp.setS_id (w : Warp) (n : Nat) (x : DWord) :
    (w.setS n x).id = w.id := rfl
@[simp] theorem Warp.setS_lanes (w : Warp) (n : Nat) (x : DWord) :
    (w.setS n x).lanes = w.lanes := rfl
@[simp] theorem Warp.setS_nregs (w : Warp) (n : Nat) (x : DWord) :
    (w.setS n x).nregs = w.nregs := rfl
@[simp] theorem Warp.setS_v (w : Warp) (n : Nat) (x : DWord) :
    (w.setS n x).v = w.v := rfl
@[simp] theorem Warp.setS_p (w : Warp) (n : Nat) (x : DWord) :
    (w.setS n x).p = w.p := rfl
@[simp] theorem Warp.setS_s (w : Warp) (n : Nat) (x : DWord) :
    (w.setS n x).s = Tab.set 0 w.s n x := rfl
@[simp] theorem Warp.setS_b (w : Warp) (n : Nat) (x : DWord) :
    (w.setS n x).b = w.b := rfl
@[simp] theorem Warp.setS_tags (w : Warp) (n : Nat) (x : DWord) :
    (w.setS n x).tags = w.tags := rfl
@[simp] theorem Warp.setS_slices (w : Warp) (n : Nat) (x : DWord) :
    (w.setS n x).slices = w.slices := rfl
@[simp] theorem Warp.setS_frags (w : Warp) (n : Nat) (x : DWord) :
    (w.setS n x).frags = w.frags := rfl
@[simp] theorem Warp.setS_origLane (w : Warp) (n : Nat) (x : DWord) :
    (w.setS n x).origLane = w.origLane := rfl
@[simp] theorem Warp.setS_rdraw (w : Warp) (n : Nat) (x : DWord) :
    (w.setS n x).rdraw = w.rdraw := rfl
@[simp] theorem Warp.setS_rseed (w : Warp) (n : Nat) (x : DWord) :
    (w.setS n x).rseed = w.rseed := rfl
@[simp] theorem Warp.setS_recCount (w : Warp) (n : Nat) (x : DWord) :
    (w.setS n x).recCount = w.recCount := rfl
@[simp] theorem Warp.setS_status (w : Warp) (n : Nat) (x : DWord) :
    (w.setS n x).status = w.status := rfl
@[simp] theorem Warp.setS_flags (w : Warp) (n : Nat) (x : DWord) :
    (w.setS n x).flags = w.flags := rfl
@[simp] theorem Warp.setS_xc (w : Warp) (n : Nat) (x : DWord) :
    (w.setS n x).xc = w.xc := rfl
@[simp] theorem Warp.setS_wtimer (w : Warp) (n : Nat) (x : DWord) :
    (w.setS n x).wtimer = w.wtimer := rfl
@[simp] theorem Warp.setS_tmrthr (w : Warp) (n : Nat) (x : DWord) :
    (w.setS n x).tmrthr = w.tmrthr := rfl
@[simp] theorem Warp.setS_tvec (w : Warp) (n : Nat) (x : DWord) :
    (w.setS n x).tvec = w.tvec := rfl
@[simp] theorem Warp.setS_wt (w : Warp) (n : Nat) (x : DWord) :
    (w.setS n x).wt = w.wt := rfl
@[simp] theorem Warp.setS_wsel (w : Warp) (n : Nat) (x : DWord) :
    (w.setS n x).wsel = w.wsel := rfl
@[simp] theorem Warp.setS_haarcnt (w : Warp) (n : Nat) (x : DWord) :
    (w.setS n x).haarcnt = w.haarcnt := rfl
@[simp] theorem Warp.setS_oc (w : Warp) (n : Nat) (x : DWord) :
    (w.setS n x).oc = w.oc := rfl
@[simp] theorem Warp.setS_pending (w : Warp) (n : Nat) (x : DWord) :
    (w.setS n x).pending = w.pending := rfl
@[simp] theorem Warp.setS_batch (w : Warp) (n : Nat) (x : DWord) :
    (w.setS n x).batch = w.batch := rfl
@[simp] theorem Warp.setS_closedBatches (w : Warp) (n : Nat) (x : DWord) :
    (w.setS n x).closedBatches = w.closedBatches := rfl
@[simp] theorem Warp.setS_window (w : Warp) (n : Nat) (x : DWord) :
    (w.setS n x).window = w.window := rfl
@[simp] theorem Warp.setS_closing (w : Warp) (n : Nat) (x : DWord) :
    (w.setS n x).closing = w.closing := rfl
@[simp] theorem Warp.setS_stopeMasks (w : Warp) (n : Nat) (x : DWord) :
    (w.setS n x).stopeMasks = w.stopeMasks := rfl
@[simp] theorem Warp.setS_bad (w : Warp) (n : Nat) (x : DWord) :
    (w.setS n x).bad = w.bad.filter (· != .s n) := rfl
@[simp] theorem Warp.setS_evicted (w : Warp) (n : Nat) (x : DWord) :
    (w.setS n x).evicted = w.evicted := rfl
@[simp] theorem Warp.setS_retired (w : Warp) (n : Nat) (x : DWord) :
    (w.setS n x).retired = w.retired := rfl
@[simp] theorem Warp.setB_crew (w : Warp) (n : Nat) (x : BitVec 128) :
    (w.setB n x).crew = w.crew := rfl
@[simp] theorem Warp.setB_id (w : Warp) (n : Nat) (x : BitVec 128) :
    (w.setB n x).id = w.id := rfl
@[simp] theorem Warp.setB_lanes (w : Warp) (n : Nat) (x : BitVec 128) :
    (w.setB n x).lanes = w.lanes := rfl
@[simp] theorem Warp.setB_nregs (w : Warp) (n : Nat) (x : BitVec 128) :
    (w.setB n x).nregs = w.nregs := rfl
@[simp] theorem Warp.setB_v (w : Warp) (n : Nat) (x : BitVec 128) :
    (w.setB n x).v = w.v := rfl
@[simp] theorem Warp.setB_p (w : Warp) (n : Nat) (x : BitVec 128) :
    (w.setB n x).p = w.p := rfl
@[simp] theorem Warp.setB_s (w : Warp) (n : Nat) (x : BitVec 128) :
    (w.setB n x).s = w.s := rfl
@[simp] theorem Warp.setB_b (w : Warp) (n : Nat) (x : BitVec 128) :
    (w.setB n x).b = Tab.set 0 w.b n x := rfl
@[simp] theorem Warp.setB_tags (w : Warp) (n : Nat) (x : BitVec 128) :
    (w.setB n x).tags = w.tags := rfl
@[simp] theorem Warp.setB_slices (w : Warp) (n : Nat) (x : BitVec 128) :
    (w.setB n x).slices = w.slices := rfl
@[simp] theorem Warp.setB_frags (w : Warp) (n : Nat) (x : BitVec 128) :
    (w.setB n x).frags = w.frags := rfl
@[simp] theorem Warp.setB_origLane (w : Warp) (n : Nat) (x : BitVec 128) :
    (w.setB n x).origLane = w.origLane := rfl
@[simp] theorem Warp.setB_rdraw (w : Warp) (n : Nat) (x : BitVec 128) :
    (w.setB n x).rdraw = w.rdraw := rfl
@[simp] theorem Warp.setB_rseed (w : Warp) (n : Nat) (x : BitVec 128) :
    (w.setB n x).rseed = w.rseed := rfl
@[simp] theorem Warp.setB_recCount (w : Warp) (n : Nat) (x : BitVec 128) :
    (w.setB n x).recCount = w.recCount := rfl
@[simp] theorem Warp.setB_status (w : Warp) (n : Nat) (x : BitVec 128) :
    (w.setB n x).status = w.status := rfl
@[simp] theorem Warp.setB_flags (w : Warp) (n : Nat) (x : BitVec 128) :
    (w.setB n x).flags = w.flags := rfl
@[simp] theorem Warp.setB_xc (w : Warp) (n : Nat) (x : BitVec 128) :
    (w.setB n x).xc = w.xc := rfl
@[simp] theorem Warp.setB_wtimer (w : Warp) (n : Nat) (x : BitVec 128) :
    (w.setB n x).wtimer = w.wtimer := rfl
@[simp] theorem Warp.setB_tmrthr (w : Warp) (n : Nat) (x : BitVec 128) :
    (w.setB n x).tmrthr = w.tmrthr := rfl
@[simp] theorem Warp.setB_tvec (w : Warp) (n : Nat) (x : BitVec 128) :
    (w.setB n x).tvec = w.tvec := rfl
@[simp] theorem Warp.setB_wt (w : Warp) (n : Nat) (x : BitVec 128) :
    (w.setB n x).wt = w.wt := rfl
@[simp] theorem Warp.setB_wsel (w : Warp) (n : Nat) (x : BitVec 128) :
    (w.setB n x).wsel = w.wsel := rfl
@[simp] theorem Warp.setB_haarcnt (w : Warp) (n : Nat) (x : BitVec 128) :
    (w.setB n x).haarcnt = w.haarcnt := rfl
@[simp] theorem Warp.setB_oc (w : Warp) (n : Nat) (x : BitVec 128) :
    (w.setB n x).oc = w.oc := rfl
@[simp] theorem Warp.setB_pending (w : Warp) (n : Nat) (x : BitVec 128) :
    (w.setB n x).pending = w.pending := rfl
@[simp] theorem Warp.setB_batch (w : Warp) (n : Nat) (x : BitVec 128) :
    (w.setB n x).batch = w.batch := rfl
@[simp] theorem Warp.setB_closedBatches (w : Warp) (n : Nat) (x : BitVec 128) :
    (w.setB n x).closedBatches = w.closedBatches := rfl
@[simp] theorem Warp.setB_window (w : Warp) (n : Nat) (x : BitVec 128) :
    (w.setB n x).window = w.window := rfl
@[simp] theorem Warp.setB_closing (w : Warp) (n : Nat) (x : BitVec 128) :
    (w.setB n x).closing = w.closing := rfl
@[simp] theorem Warp.setB_stopeMasks (w : Warp) (n : Nat) (x : BitVec 128) :
    (w.setB n x).stopeMasks = w.stopeMasks := rfl
@[simp] theorem Warp.setB_bad (w : Warp) (n : Nat) (x : BitVec 128) :
    (w.setB n x).bad = w.bad.filter (· != .b n) := rfl
@[simp] theorem Warp.setB_evicted (w : Warp) (n : Nat) (x : BitVec 128) :
    (w.setB n x).evicted = w.evicted := rfl
@[simp] theorem Warp.setB_retired (w : Warp) (n : Nat) (x : BitVec 128) :
    (w.setB n x).retired = w.retired := rfl
@[simp] theorem Warp.mend_crew (w : Warp) (r : Reg) :
    (w.mend r).crew = w.crew := rfl
@[simp] theorem Warp.mend_id (w : Warp) (r : Reg) :
    (w.mend r).id = w.id := rfl
@[simp] theorem Warp.mend_lanes (w : Warp) (r : Reg) :
    (w.mend r).lanes = w.lanes := rfl
@[simp] theorem Warp.mend_nregs (w : Warp) (r : Reg) :
    (w.mend r).nregs = w.nregs := rfl
@[simp] theorem Warp.mend_v (w : Warp) (r : Reg) :
    (w.mend r).v = w.v := rfl
@[simp] theorem Warp.mend_p (w : Warp) (r : Reg) :
    (w.mend r).p = w.p := rfl
@[simp] theorem Warp.mend_s (w : Warp) (r : Reg) :
    (w.mend r).s = w.s := rfl
@[simp] theorem Warp.mend_b (w : Warp) (r : Reg) :
    (w.mend r).b = w.b := rfl
@[simp] theorem Warp.mend_tags (w : Warp) (r : Reg) :
    (w.mend r).tags = w.tags := rfl
@[simp] theorem Warp.mend_slices (w : Warp) (r : Reg) :
    (w.mend r).slices = w.slices := rfl
@[simp] theorem Warp.mend_frags (w : Warp) (r : Reg) :
    (w.mend r).frags = w.frags := rfl
@[simp] theorem Warp.mend_origLane (w : Warp) (r : Reg) :
    (w.mend r).origLane = w.origLane := rfl
@[simp] theorem Warp.mend_rdraw (w : Warp) (r : Reg) :
    (w.mend r).rdraw = w.rdraw := rfl
@[simp] theorem Warp.mend_rseed (w : Warp) (r : Reg) :
    (w.mend r).rseed = w.rseed := rfl
@[simp] theorem Warp.mend_recCount (w : Warp) (r : Reg) :
    (w.mend r).recCount = w.recCount := rfl
@[simp] theorem Warp.mend_status (w : Warp) (r : Reg) :
    (w.mend r).status = w.status := rfl
@[simp] theorem Warp.mend_flags (w : Warp) (r : Reg) :
    (w.mend r).flags = w.flags := rfl
@[simp] theorem Warp.mend_xc (w : Warp) (r : Reg) :
    (w.mend r).xc = w.xc := rfl
@[simp] theorem Warp.mend_wtimer (w : Warp) (r : Reg) :
    (w.mend r).wtimer = w.wtimer := rfl
@[simp] theorem Warp.mend_tmrthr (w : Warp) (r : Reg) :
    (w.mend r).tmrthr = w.tmrthr := rfl
@[simp] theorem Warp.mend_tvec (w : Warp) (r : Reg) :
    (w.mend r).tvec = w.tvec := rfl
@[simp] theorem Warp.mend_wt (w : Warp) (r : Reg) :
    (w.mend r).wt = w.wt := rfl
@[simp] theorem Warp.mend_wsel (w : Warp) (r : Reg) :
    (w.mend r).wsel = w.wsel := rfl
@[simp] theorem Warp.mend_haarcnt (w : Warp) (r : Reg) :
    (w.mend r).haarcnt = w.haarcnt := rfl
@[simp] theorem Warp.mend_oc (w : Warp) (r : Reg) :
    (w.mend r).oc = w.oc := rfl
@[simp] theorem Warp.mend_pending (w : Warp) (r : Reg) :
    (w.mend r).pending = w.pending := rfl
@[simp] theorem Warp.mend_batch (w : Warp) (r : Reg) :
    (w.mend r).batch = w.batch := rfl
@[simp] theorem Warp.mend_closedBatches (w : Warp) (r : Reg) :
    (w.mend r).closedBatches = w.closedBatches := rfl
@[simp] theorem Warp.mend_window (w : Warp) (r : Reg) :
    (w.mend r).window = w.window := rfl
@[simp] theorem Warp.mend_closing (w : Warp) (r : Reg) :
    (w.mend r).closing = w.closing := rfl
@[simp] theorem Warp.mend_stopeMasks (w : Warp) (r : Reg) :
    (w.mend r).stopeMasks = w.stopeMasks := rfl
@[simp] theorem Warp.mend_evicted (w : Warp) (r : Reg) :
    (w.mend r).evicted = w.evicted := rfl
@[simp] theorem Warp.mend_retired (w : Warp) (r : Reg) :
    (w.mend r).retired = w.retired := rfl

/-! ## Fragments and slices of a warp -/

@[simp] theorem Warp.putFrag_crew (w : Warp) (n : Nat) (f : Frag) :
    (w.putFrag n f).crew = w.crew := rfl
@[simp] theorem Warp.putFrag_id (w : Warp) (n : Nat) (f : Frag) :
    (w.putFrag n f).id = w.id := rfl
@[simp] theorem Warp.putFrag_lanes (w : Warp) (n : Nat) (f : Frag) :
    (w.putFrag n f).lanes = w.lanes := rfl
@[simp] theorem Warp.putFrag_nregs (w : Warp) (n : Nat) (f : Frag) :
    (w.putFrag n f).nregs = w.nregs := rfl
@[simp] theorem Warp.putFrag_v (w : Warp) (n : Nat) (f : Frag) :
    (w.putFrag n f).v = w.v := rfl
@[simp] theorem Warp.putFrag_p (w : Warp) (n : Nat) (f : Frag) :
    (w.putFrag n f).p = w.p := rfl
@[simp] theorem Warp.putFrag_s (w : Warp) (n : Nat) (f : Frag) :
    (w.putFrag n f).s = w.s := rfl
@[simp] theorem Warp.putFrag_b (w : Warp) (n : Nat) (f : Frag) :
    (w.putFrag n f).b = w.b := rfl
@[simp] theorem Warp.putFrag_tags (w : Warp) (n : Nat) (f : Frag) :
    (w.putFrag n f).tags = w.tags := rfl
@[simp] theorem Warp.putFrag_slices (w : Warp) (n : Nat) (f : Frag) :
    (w.putFrag n f).slices = w.slices := rfl
@[simp] theorem Warp.putFrag_frags (w : Warp) (n : Nat) (f : Frag) :
    (w.putFrag n f).frags = w.frags.map fun g => if fragNo g.mask == n then f else g := rfl
@[simp] theorem Warp.putFrag_origLane (w : Warp) (n : Nat) (f : Frag) :
    (w.putFrag n f).origLane = w.origLane := rfl
@[simp] theorem Warp.putFrag_rdraw (w : Warp) (n : Nat) (f : Frag) :
    (w.putFrag n f).rdraw = w.rdraw := rfl
@[simp] theorem Warp.putFrag_rseed (w : Warp) (n : Nat) (f : Frag) :
    (w.putFrag n f).rseed = w.rseed := rfl
@[simp] theorem Warp.putFrag_recCount (w : Warp) (n : Nat) (f : Frag) :
    (w.putFrag n f).recCount = w.recCount := rfl
@[simp] theorem Warp.putFrag_status (w : Warp) (n : Nat) (f : Frag) :
    (w.putFrag n f).status = w.status := rfl
@[simp] theorem Warp.putFrag_flags (w : Warp) (n : Nat) (f : Frag) :
    (w.putFrag n f).flags = w.flags := rfl
@[simp] theorem Warp.putFrag_xc (w : Warp) (n : Nat) (f : Frag) :
    (w.putFrag n f).xc = w.xc := rfl
@[simp] theorem Warp.putFrag_wtimer (w : Warp) (n : Nat) (f : Frag) :
    (w.putFrag n f).wtimer = w.wtimer := rfl
@[simp] theorem Warp.putFrag_tmrthr (w : Warp) (n : Nat) (f : Frag) :
    (w.putFrag n f).tmrthr = w.tmrthr := rfl
@[simp] theorem Warp.putFrag_tvec (w : Warp) (n : Nat) (f : Frag) :
    (w.putFrag n f).tvec = w.tvec := rfl
@[simp] theorem Warp.putFrag_wt (w : Warp) (n : Nat) (f : Frag) :
    (w.putFrag n f).wt = w.wt := rfl
@[simp] theorem Warp.putFrag_wsel (w : Warp) (n : Nat) (f : Frag) :
    (w.putFrag n f).wsel = w.wsel := rfl
@[simp] theorem Warp.putFrag_haarcnt (w : Warp) (n : Nat) (f : Frag) :
    (w.putFrag n f).haarcnt = w.haarcnt := rfl
@[simp] theorem Warp.putFrag_oc (w : Warp) (n : Nat) (f : Frag) :
    (w.putFrag n f).oc = w.oc := rfl
@[simp] theorem Warp.putFrag_pending (w : Warp) (n : Nat) (f : Frag) :
    (w.putFrag n f).pending = w.pending := rfl
@[simp] theorem Warp.putFrag_batch (w : Warp) (n : Nat) (f : Frag) :
    (w.putFrag n f).batch = w.batch := rfl
@[simp] theorem Warp.putFrag_closedBatches (w : Warp) (n : Nat) (f : Frag) :
    (w.putFrag n f).closedBatches = w.closedBatches := rfl
@[simp] theorem Warp.putFrag_window (w : Warp) (n : Nat) (f : Frag) :
    (w.putFrag n f).window = w.window := rfl
@[simp] theorem Warp.putFrag_closing (w : Warp) (n : Nat) (f : Frag) :
    (w.putFrag n f).closing = w.closing := rfl
@[simp] theorem Warp.putFrag_stopeMasks (w : Warp) (n : Nat) (f : Frag) :
    (w.putFrag n f).stopeMasks = w.stopeMasks := rfl
@[simp] theorem Warp.putFrag_bad (w : Warp) (n : Nat) (f : Frag) :
    (w.putFrag n f).bad = w.bad := rfl
@[simp] theorem Warp.putFrag_evicted (w : Warp) (n : Nat) (f : Frag) :
    (w.putFrag n f).evicted = w.evicted := rfl
@[simp] theorem Warp.putFrag_retired (w : Warp) (n : Nat) (f : Frag) :
    (w.putFrag n f).retired = w.retired := rfl
@[simp] theorem Warp.setSlice_crew (w : Warp) (k : Nat) (x : Slice) :
    (w.setSlice k x).crew = w.crew := rfl
@[simp] theorem Warp.setSlice_id (w : Warp) (k : Nat) (x : Slice) :
    (w.setSlice k x).id = w.id := rfl
@[simp] theorem Warp.setSlice_lanes (w : Warp) (k : Nat) (x : Slice) :
    (w.setSlice k x).lanes = w.lanes := rfl
@[simp] theorem Warp.setSlice_nregs (w : Warp) (k : Nat) (x : Slice) :
    (w.setSlice k x).nregs = w.nregs := rfl
@[simp] theorem Warp.setSlice_v (w : Warp) (k : Nat) (x : Slice) :
    (w.setSlice k x).v = w.v := rfl
@[simp] theorem Warp.setSlice_p (w : Warp) (k : Nat) (x : Slice) :
    (w.setSlice k x).p = w.p := rfl
@[simp] theorem Warp.setSlice_s (w : Warp) (k : Nat) (x : Slice) :
    (w.setSlice k x).s = w.s := rfl
@[simp] theorem Warp.setSlice_b (w : Warp) (k : Nat) (x : Slice) :
    (w.setSlice k x).b = w.b := rfl
@[simp] theorem Warp.setSlice_tags (w : Warp) (k : Nat) (x : Slice) :
    (w.setSlice k x).tags = w.tags := rfl
@[simp] theorem Warp.setSlice_slices (w : Warp) (k : Nat) (x : Slice) :
    (w.setSlice k x).slices = w.slices.set k x := rfl
@[simp] theorem Warp.setSlice_frags (w : Warp) (k : Nat) (x : Slice) :
    (w.setSlice k x).frags = w.frags := rfl
@[simp] theorem Warp.setSlice_origLane (w : Warp) (k : Nat) (x : Slice) :
    (w.setSlice k x).origLane = w.origLane := rfl
@[simp] theorem Warp.setSlice_rdraw (w : Warp) (k : Nat) (x : Slice) :
    (w.setSlice k x).rdraw = w.rdraw := rfl
@[simp] theorem Warp.setSlice_rseed (w : Warp) (k : Nat) (x : Slice) :
    (w.setSlice k x).rseed = w.rseed := rfl
@[simp] theorem Warp.setSlice_recCount (w : Warp) (k : Nat) (x : Slice) :
    (w.setSlice k x).recCount = w.recCount := rfl
@[simp] theorem Warp.setSlice_status (w : Warp) (k : Nat) (x : Slice) :
    (w.setSlice k x).status = w.status := rfl
@[simp] theorem Warp.setSlice_flags (w : Warp) (k : Nat) (x : Slice) :
    (w.setSlice k x).flags = w.flags := rfl
@[simp] theorem Warp.setSlice_xc (w : Warp) (k : Nat) (x : Slice) :
    (w.setSlice k x).xc = w.xc := rfl
@[simp] theorem Warp.setSlice_wtimer (w : Warp) (k : Nat) (x : Slice) :
    (w.setSlice k x).wtimer = w.wtimer := rfl
@[simp] theorem Warp.setSlice_tmrthr (w : Warp) (k : Nat) (x : Slice) :
    (w.setSlice k x).tmrthr = w.tmrthr := rfl
@[simp] theorem Warp.setSlice_tvec (w : Warp) (k : Nat) (x : Slice) :
    (w.setSlice k x).tvec = w.tvec := rfl
@[simp] theorem Warp.setSlice_wt (w : Warp) (k : Nat) (x : Slice) :
    (w.setSlice k x).wt = w.wt := rfl
@[simp] theorem Warp.setSlice_wsel (w : Warp) (k : Nat) (x : Slice) :
    (w.setSlice k x).wsel = w.wsel := rfl
@[simp] theorem Warp.setSlice_haarcnt (w : Warp) (k : Nat) (x : Slice) :
    (w.setSlice k x).haarcnt = w.haarcnt := rfl
@[simp] theorem Warp.setSlice_oc (w : Warp) (k : Nat) (x : Slice) :
    (w.setSlice k x).oc = w.oc := rfl
@[simp] theorem Warp.setSlice_pending (w : Warp) (k : Nat) (x : Slice) :
    (w.setSlice k x).pending = w.pending := rfl
@[simp] theorem Warp.setSlice_batch (w : Warp) (k : Nat) (x : Slice) :
    (w.setSlice k x).batch = w.batch := rfl
@[simp] theorem Warp.setSlice_closedBatches (w : Warp) (k : Nat) (x : Slice) :
    (w.setSlice k x).closedBatches = w.closedBatches := rfl
@[simp] theorem Warp.setSlice_window (w : Warp) (k : Nat) (x : Slice) :
    (w.setSlice k x).window = w.window := rfl
@[simp] theorem Warp.setSlice_closing (w : Warp) (k : Nat) (x : Slice) :
    (w.setSlice k x).closing = w.closing := rfl
@[simp] theorem Warp.setSlice_stopeMasks (w : Warp) (k : Nat) (x : Slice) :
    (w.setSlice k x).stopeMasks = w.stopeMasks := rfl
@[simp] theorem Warp.setSlice_bad (w : Warp) (k : Nat) (x : Slice) :
    (w.setSlice k x).bad = w.bad := rfl
@[simp] theorem Warp.setSlice_evicted (w : Warp) (k : Nat) (x : Slice) :
    (w.setSlice k x).evicted = w.evicted := rfl
@[simp] theorem Warp.setSlice_retired (w : Warp) (k : Nat) (x : Slice) :
    (w.setSlice k x).retired = w.retired := rfl

end Sys2Proof.Machine
end

