-- ==== Sys2Proof/Laws/Issue.lean ====
section
/-! SUPPORT. Laws of the issue of a word: the course that `issueWord` takes, and how a fragment goes on. -/

namespace Sys2Proof.Machine

/-! ## Warps and fragments by number -/

@[simp] theorem State.mapWarp_some {s : State} {k : Nat} {w : Warp} (h : Tab.lookup k s.warps = some w) (g : Warp → Warp) :
    s.mapWarp k g = s.setWarp k (g w) := by simp [State.mapWarp, h]

theorem State.mapFrag_some {s : State} {k n : Nat} {w : Warp} (h : Tab.lookup k s.warps = some w) (g : Frag → Frag) :
    s.mapFrag k n g = s.setWarp k { w with frags := w.frags.map fun f => if fragNo f.mask == n then g f else f } := by
  simp [State.mapFrag, h]

@[simp] theorem State.lookup_setWarp (s : State) (k : Nat) (w : Warp) : Tab.lookup k (s.setWarp k w).warps = some w := by
  simp

@[simp] theorem State.setWarp_setWarp (s : State) (k : Nat) (w x : Warp) : (s.setWarp k w).setWarp k x = s.setWarp k x := by
  simp [State.setWarp, Tab.put_put]

@[simp] theorem State.fragOf_setWarp (s : State) (k n : Nat) (w : Warp) :
    (s.setWarp k w).fragOf k n = (w.frag n).map fun f => (w, f) := by
  simp [State.fragOf]

/-- A fragment found by its number has that number. -/
theorem Warp.frag_no {w : Warp} {n : Nat} {f : Frag} (h : w.frag n = some f) : fragNo f.mask = n := by
  have := List.find?_some h
  simpa using this

/-! ## The view -/

/-- What the view of an issuing fragment says of the state. -/
theorem State.view_spec {s : State} {v : View} (h : s.view = some v) :
    s.cur = some (v.key, v.no) ∧ Tab.lookup v.key s.warps = some v.w ∧ v.w.frag v.no = some v.f ∧
      Tab.lookup v.w.crew s.crews = some v.crew ∧ v.f.clause = some v.c ∧ v.act = v.w.active v.f := by
  unfold State.view at h
  split at h
  · cases h
  · split at h
    · cases h
    · split at h
      · split at h
        · cases h
          simp_all
        · cases h
      · cases h

/-! ## Issue -/

/-- A word that passes the checks at its issue has its effect, and what it came to is settled. -/
theorem issueWord_passes {shape : View → Shape} {body : View → State → Res} {s : State} {v : View} (h : s.view = some v)
    (hc : v.check (shape v) = none) : issueWord shape body s = .next (s.settle v (shape v) (body v s)) := by
  simp [issueWord, h, hc]

/-- A word that fails a check at its issue raises what the check says, and has no effect. -/
theorem issueWord_fails {shape : View → Shape} {body : View → State → Res} {s : State} {v : View} {x : FaultInfo}
    (h : s.view = some v) (hc : v.check (shape v) = some x) :
    issueWord shape body s = .next (s.takeFault v.key v.no x v.c.pos v.c.header .replay) := by
  simp [issueWord, h, hc]

/-- A word always answers a next state when a fragment issues. -/
theorem issueWord_total {shape : View → Shape} {body : View → State → Res} {s : State} {v : View} (h : s.view = some v) :
    ∃ t, issueWord shape body s = .next t := by
  cases hc : v.check (shape v) with
  | none => exact ⟨_, issueWord_passes h hc⟩
  | some x => exact ⟨_, issueWord_fails h hc⟩

/-- What a word came to, once its effect is had: for words that are not long-latency, or write no register. -/
theorem State.settle_done {s t : State} {v : View} {sh : Shape} {ex : Bool} (h : (sh.long && !sh.writes.isEmpty) = false) :
    s.settle v sh (.done t ex) = s.after t v sh.long none false ex := by
  simp only [State.settle, h, Bool.false_eq_true, if_false]

/-- A word that only changes its warp. -/
theorem onWarp_view {s : State} {v : View} (h : s.view = some v) (g : Warp → Warp) :
    onWarp v s g = .done (s.setWarp v.key (g v.w)) := by
  unfold onWarp
  rw [State.mapWarp_some (State.view_spec h).2.1]

/-- The word after it is the next of its clause. -/
theorem State.after_mid {undo s : State} {v : View} {w : Warp} {f : Frag} {long branch : Bool}
    (hf : s.fragOf v.key v.no = some (w, f)) (hp : v.c.pos + 1 < v.c.words.length)
    (hc : s.cur = some (v.key, v.no)) :
    undo.after s v long none branch false =
      s.mapFrag v.key v.no fun f => { f with
        clause := some { v.c with pos := v.c.pos + 1, long := none, issued := v.c.issued + long.toNat }
        state := w.goingState f.mask, suspended := false, waitOp := none } := by
  have hw : Tab.lookup v.key s.warps = some w ∧ w.frag v.no = some f := by
    unfold State.fragOf at hf
    split at hf
    · cases hf
    · rename_i x hx
      cases hfr : x.frag v.no with
      | none => simp [hfr] at hf
      | some y =>
        simp only [hfr, Option.map_some, Option.some.injEq, Prod.mk.injEq] at hf
        obtain ⟨rfl, rfl⟩ := hf
        exact ⟨hx, hfr⟩
  unfold State.after
  simp [hf, hp, hc]

end Sys2Proof.Machine
end

