-- ==== Sys2Proof/Laws/Memory.lean ====
section
/-! SUPPORT. Laws of memory: what a byte reads after a write, and that every write of memory keeps its canonical form. -/

namespace Sys2Proof.Machine

/-- One byte written keeps the canonical form. -/
theorem Memory.wf_set {m : Tab (BitVec 8)} (h : Memory.wf m = true) (a : Nat) (b : BitVec 8) :
    Memory.wf (Tab.set 0 m a b) = true := Tab.set_wf h

/-- Bytes written keep the canonical form. -/
theorem Memory.wf_putBytes {m : Tab (BitVec 8)} (h : Memory.wf m = true) (a : Nat) (bs : List (BitVec 8)) :
    Memory.wf (putBytes m a bs) = true := by
  induction bs generalizing m a with
  | nil => exact h
  | cons b bs ih => exact ih (Memory.wf_set h a b) (a + 1)

@[simp] theorem State.homeWrites_mem (s : State) (ws : List Nat) (a : Nat) (bs : List (BitVec 8)) :
    (s.homeWrites ws a bs).mem = putBytes s.mem a bs := by
  unfold State.homeWrites
  cases bs <;> rfl

@[simp] theorem State.homeWrites_dram (s : State) (ws : List Nat) (a : Nat) (bs : List (BitVec 8)) :
    (s.homeWrites ws a bs).dram = s.dram := by
  unfold State.homeWrites
  cases bs <;> rfl

@[simp] theorem State.homeWrites_ctxs (s : State) (ws : List Nat) (a : Nat) (bs : List (BitVec 8)) :
    (s.homeWrites ws a bs).ctxs = s.ctxs := by
  unfold State.homeWrites
  cases bs <;> rfl

@[simp] theorem State.homeWrites_warps (s : State) (ws : List Nat) (a : Nat) (bs : List (BitVec 8)) :
    (s.homeWrites ws a bs).warps = s.warps := by
  unfold State.homeWrites
  cases bs <;> rfl

@[simp] theorem State.homeWrites_launches (s : State) (ws : List Nat) (a : Nat) (bs : List (BitVec 8)) :
    (s.homeWrites ws a bs).launches = s.launches := by
  unfold State.homeWrites
  cases bs <;> rfl

@[simp] theorem State.homeWrites_crews (s : State) (ws : List Nat) (a : Nat) (bs : List (BitVec 8)) :
    (s.homeWrites ws a bs).crews = s.crews := by
  unfold State.homeWrites
  cases bs <;> rfl

@[simp] theorem State.homeWrites_cores (s : State) (ws : List Nat) (a : Nat) (bs : List (BitVec 8)) :
    (s.homeWrites ws a bs).cores = s.cores := by
  unfold State.homeWrites
  cases bs <;> rfl

@[simp] theorem State.homeWrites_ops (s : State) (ws : List Nat) (a : Nat) (bs : List (BitVec 8)) :
    (s.homeWrites ws a bs).ops = s.ops := by
  unfold State.homeWrites
  cases bs <;> rfl

@[simp] theorem State.homeWrite_mem (s : State) (w a : Nat) (bs : List (BitVec 8)) :
    (s.homeWrite w a bs).mem = putBytes s.mem a bs := State.homeWrites_mem s [w] a bs

@[simp] theorem State.homeWrite_dram (s : State) (w a : Nat) (bs : List (BitVec 8)) :
    (s.homeWrite w a bs).dram = s.dram := State.homeWrites_dram s [w] a bs

@[simp] theorem State.homeWrite_ctxs (s : State) (w a : Nat) (bs : List (BitVec 8)) :
    (s.homeWrite w a bs).ctxs = s.ctxs := State.homeWrites_ctxs s [w] a bs

@[simp] theorem State.homeWrite_warps (s : State) (w a : Nat) (bs : List (BitVec 8)) :
    (s.homeWrite w a bs).warps = s.warps := State.homeWrites_warps s [w] a bs

@[simp] theorem State.homeWrite_launches (s : State) (w a : Nat) (bs : List (BitVec 8)) :
    (s.homeWrite w a bs).launches = s.launches := State.homeWrites_launches s [w] a bs

@[simp] theorem State.homeWrite_crews (s : State) (w a : Nat) (bs : List (BitVec 8)) :
    (s.homeWrite w a bs).crews = s.crews := State.homeWrites_crews s [w] a bs

@[simp] theorem State.homeWrite_cores (s : State) (w a : Nat) (bs : List (BitVec 8)) :
    (s.homeWrite w a bs).cores = s.cores := State.homeWrites_cores s [w] a bs

@[simp] theorem State.homeWrite_ops (s : State) (w a : Nat) (bs : List (BitVec 8)) :
    (s.homeWrite w a bs).ops = s.ops := State.homeWrites_ops s [w] a bs

/-- A write of several warps at the home keeps the canonical form. -/
theorem State.homeWrites_memOk {s : State} (h : s.memOk = true) (ws : List Nat) (a : Nat) (bs : List (BitVec 8)) :
    (s.homeWrites ws a bs).memOk = true := by
  simpa [State.memOk] using Memory.wf_putBytes h a bs

/-- A write at the home keeps the canonical form. -/
theorem State.homeWrite_memOk {s : State} (h : s.memOk = true) (w a : Nat) (bs : List (BitVec 8)) :
    (s.homeWrite w a bs).memOk = true := by
  simpa [State.memOk] using Memory.wf_putBytes h a bs

theorem State.memOk_congr {s t : State} (h : t.mem = s.mem) : t.memOk = s.memOk := by
  unfold State.memOk; rw [h]

/-- The bytes of a table after a write. -/
theorem get_putBytes (m : Tab (BitVec 8)) (a : Nat) (bs : List (BitVec 8)) (x : Nat) :
    Tab.get 0 (putBytes m a bs) x = if a ≤ x ∧ x < a + bs.length then bs.getD (x - a) 0 else Tab.get 0 m x := by
  induction bs generalizing m a with
  | nil =>
    rw [putBytes, if_neg]
    simp only [List.length_nil]
    omega
  | cons b bs ih =>
    simp only [putBytes, ih, Tab.get_set, List.length_cons]
    rcases Nat.lt_trichotomy x a with h | rfl | h
    · rw [if_neg (by omega), if_neg (by omega), if_neg (by omega)]
    · rw [if_neg (by omega), if_pos rfl, if_pos (by omega)]
      simp
    · have e : x - a = x - (a + 1) + 1 := by omega
      by_cases hx : x < a + (bs.length + 1)
      · rw [if_pos (by omega), if_pos (by omega), e, List.getD_cons_succ]
      · rw [if_neg (by omega), if_neg (by omega), if_neg (by omega)]

/-- Read after write, and what a write leaves alone. -/
theorem State.homeWrite_byte (s : State) (w a : Nat) (bs : List (BitVec 8)) (x : Nat) :
    (s.homeWrite w a bs).byte x = if a ≤ x ∧ x < a + bs.length then bs.getD (x - a) 0 else s.byte x := by
  unfold State.byte
  rw [State.homeWrite_mem, get_putBytes]

/-- A number of `n` bytes survives being written out as bytes. -/
theorem leNat_leBytes (x n : Nat) : leNat (leBytes x n) = x % 256 ^ n := by
  induction n generalizing x with
  | zero => simp [leBytes, leNat, Nat.mod_one]
  | succ n ih =>
    simp only [leBytes, leNat, ih, BitVec.toNat_ofNat]
    rw [show 256 ^ (n + 1) = 256 * 256 ^ n by rw [Nat.pow_succ, Nat.mul_comm], Nat.mod_mul]

@[simp] theorem leBytes_length (x n : Nat) : (leBytes x n).length = n := by
  induction n generalizing x with
  | zero => rfl
  | succ n ih => simp [leBytes, ih]

/-- A record written keeps the canonical form. -/
theorem State.writeRecord_memOk {s t : State} {ctx v : Nat} {q r : RecordQueue} (h : s.memOk = true)
    (e : s.writeRecord ctx v q = some (t, r)) : t.memOk = true := by
  unfold State.writeRecord at e
  split at e
  · cases e
  · split at e
    · cases e
    · split at e
      · cases e
      · injection e with e
        injection e with e _
        subst e
        exact State.homeWrite_memOk (State.homeWrite_memOk h ..) ..

/-- A launch's STATUS written keeps the canonical form. -/
theorem State.writeStatus_memOk {s : State} (h : s.memOk = true) (l code : Nat) : (s.writeStatus l code).memOk = true := by
  unfold State.writeStatus
  split
  · exact h
  · dsimp only
    split
    · exact h
    · refine State.homeWrite_memOk ?_ ..
      exact h

/-- The record of a unit's fault leaves memory as it is. -/
@[simp] theorem State.unitRecord_mem (s : State) (o : Op) (chan bank : Nat) (x : Nat × Nat × Addr × Nat) :
    (s.unitRecord o chan bank x).mem = s.mem := by
  unfold State.unitRecord State.errorShot State.takeShot State.postFault State.mapCtx
  repeat' split
  all_goals rfl

/-- A fold of steps that leave memory as it is leaves it so. -/
theorem foldl_mem {α : Type} (f : State → α → State) (h : ∀ s x, (f s x).mem = s.mem) (l : List α) (s : State) :
    (l.foldl f s).mem = s.mem := by
  induction l generalizing s with
  | nil => rfl
  | cons a l ih => rw [List.foldl_cons, ih, h]

/-- The records that are due leave memory as it is. -/
@[simp] theorem State.dueRecords_mem (s : State) (ctx : Nat) : (s.dueRecords ctx).mem = s.mem := by
  refine foldl_mem _ (fun s o => ?_) _ _
  split
  · split
    · rfl
    · refine foldl_mem _ (fun s u => ?_) _ _
      split
      · split
        · rfl
        · exact State.unitRecord_mem ..
      · rfl
  · rfl

/-- A context stopped keeps the canonical form. -/
theorem State.stopContext_memOk {s : State} (h : s.memOk = true) (ctx : Nat) : (s.stopContext ctx).memOk = true := by
  unfold State.stopContext
  generalize (s.launches.filter fun e => e.2.ctx == ctx && decide (e.2.status < 3)).map (·.1) = l
  have d : (s.dueRecords ctx).memOk = true := by unfold State.memOk at h ⊢; rw [State.dueRecords_mem]; exact h
  show State.memOk (l.foldl _ (s.dueRecords ctx)) = true
  generalize s.dueRecords ctx = u at d ⊢
  induction l generalizing u with
  | nil => exact d
  | cons a l ih => exact ih _ (State.writeStatus_memOk d a _)

end Sys2Proof.Machine
end

