-- ==== Sys2Proof/Laws/Operands.lean ====
section
/-! SUPPORT. Laws of operands: what registers read after a write of lanes. -/

namespace Sys2Proof.Machine

/-- What a lane register reads after a write of lanes. -/
theorem Warp.vreg_putV (w : Warp) (d r : Nat) (m : LaneMask) (x : Lanes) {n : Nat} (hn : n < 32) :
    ((w.putV d m x).vreg r).get n = if r = d ∧ m.getLsbD n = true then x.get n else (w.vreg r).get n := by
  simp only [Warp.vreg, Warp.putV_v, Tab.get_set]
  split
  · subst_vars
    simp only [Lanes.merge, Lanes.get_ofFn _ hn, true_and]
  · simp [*]

/-- What a lane register reads after a write of lanes that tags its tile. -/
theorem Warp.vreg_setV (w : Warp) (ty d r : Nat) (m : LaneMask) (x : Lanes) {n : Nat} (hn : n < 32) :
    ((w.setV ty d m x).vreg r).get n = if r = d ∧ m.getLsbD n = true then x.get n else (w.vreg r).get n := by
  unfold Warp.setV
  split
  · subst_vars; simp
  · exact Warp.vreg_putV w d r m x hn

/-- The tag of a tile after a write of lanes. -/
theorem Warp.tag_setV (w : Warp) (ty d i : Nat) (m : LaneMask) (x : Lanes) :
    (w.setV ty d m x).tag i = if m ≠ 0 ∧ i = d / 8 then ⟨ty, 0, 0⟩ else w.tag i := by
  unfold Warp.setV
  split
  · simp [*]
  · rename_i hm
    simp only [Warp.tag, Tab.get_set, ne_eq, hm, not_false_eq_true, true_and]

/-- A predicate after a write of lanes. -/
theorem Warp.pred_setP (w : Warp) (d r : Nat) (m x : LaneMask) (n : Nat) :
    ((w.setP d m x).pred r).getLsbD n = if r = d ∧ m.getLsbD n = true then x.getLsbD n else (w.pred r).getLsbD n := by
  simp only [Warp.pred, Warp.setP_p, Tab.get_set]
  by_cases hr : r = d
  · subst hr
    rw [if_pos rfl]
    by_cases hn : n < 32
    · rw [BitVec.getLsbD_or, BitVec.getLsbD_and, BitVec.getLsbD_and, BitVec.getLsbD_not]
      cases hm : m.getLsbD n <;> simp [hn]
    · have hm : m.getLsbD n = false := BitVec.getLsbD_of_ge _ _ (by omega)
      simp only [hm, BitVec.getLsbD_or, BitVec.getLsbD_and, BitVec.getLsbD_not, Bool.and_false, Bool.or_false, Bool.not_false,
        Bool.and_true, Bool.false_eq_true, and_false, if_false]
      simpa using BitVec.lt_of_getLsbD
  · simp [hr]

/-- A uniform register after a write. -/
theorem Warp.sreg_setS (w : Warp) (d r : Nat) (x : DWord) : (w.setS d x).sreg r = if r = d then x else w.sreg r := by
  simp [Warp.sreg, Tab.get_set]

/-- A buffer record after a write. -/
theorem Warp.breg_setB (w : Warp) (d r : Nat) (x : BitVec 128) : (w.setB d x).breg r = if r = d then x else w.breg r := by
  simp [Warp.breg, Tab.get_set]

/-! ## Writing results to lanes -/

/-- A lane write changes lane registers and tags of a warp alone, and which registers hold an error. -/
theorem Warp.setV_frame (w : Warp) (ty d : Nat) (m : LaneMask) (x : Lanes) :
    w.setV ty d m x = { w with v := (w.setV ty d m x).v, tags := (w.setV ty d m x).tags, bad := (w.setV ty d m x).bad } := by
  unfold Warp.setV; split <;> rfl

/-- Two lane writes in a row change those alone. -/
theorem Warp.lanes_frame_trans {w u : Warp} (h : u = { w with v := u.v, tags := u.tags, bad := u.bad }) (x : Tab Lanes)
    (y : Tab Tag) (z : List Reg) :
    ({ u with v := x, tags := y, bad := z } : Warp) = { w with v := x, tags := y, bad := z } := by rw [h]

/-- Writing lanes of a register, or of a pair, changes those alone. -/
theorem Warp.writeLanes_frame (w : Warp) (ty : Nat) (wide : Bool) (d : Nat) (m : LaneMask) (f : Nat → Nat) :
    w.writeLanes ty wide d m f =
      { w with v := (w.writeLanes ty wide d m f).v, tags := (w.writeLanes ty wide d m f).tags,
               bad := (w.writeLanes ty wide d m f).bad } := by
  unfold Warp.writeLanes
  cases wide
  · exact Warp.setV_frame ..
  · exact (Warp.setV_frame ..).trans (Warp.lanes_frame_trans (Warp.setV_frame ..) _ _ _)

/-- What a lane register reads after lanes of a register, or of a pair, were written. -/
theorem Warp.vreg_writeLanes (w : Warp) (ty : Nat) (wide : Bool) (d r : Nat) (m : LaneMask) (f : Nat → Nat) {n : Nat}
    (hn : n < 32) :
    ((w.writeLanes ty wide d m f).vreg r).get n =
      if m.getLsbD n = true ∧ r = d then BitVec.ofNat 32 (f n)
      else if m.getLsbD n = true ∧ wide = true ∧ r = d + 1 then BitVec.ofNat 32 (f n / 2 ^ 32)
      else (w.vreg r).get n := by
  unfold Warp.writeLanes
  cases wide
  · simp [Warp.vreg_setV _ _ _ _ _ _ hn, Lanes.get_ofFn _ hn, and_comm]
  · simp only [if_true, Warp.vreg_setV _ _ _ _ _ _ hn, Lanes.get_ofFn _ hn]
    by_cases h1 : r = d
    · subst h1; simp
    · by_cases h2 : r = d + 1
      · subst h2; simp
      · simp [h1, h2]

/-- The bits that an operand reads after they were written. -/
theorem Warp.laneBits_writeLanes (w : Warp) (ty : Nat) (wide : Bool) (d : Nat) (m : LaneMask) (f : Nat → Nat) {n : Nat}
    (hn : n < 32) (hm : m.getLsbD n = true) :
    (w.writeLanes ty wide d m f).laneBits wide d n = f n % 2 ^ (if wide then 64 else 32) := by
  unfold Warp.laneBits
  cases wide
  · simp [Warp.vreg_writeLanes _ _ _ _ _ _ _ hn, hm]
  · simp only [if_true, Warp.vreg_writeLanes _ _ _ _ _ _ _ hn, hm, true_and, BitVec.toNat_ofNat]
    simp
    omega

/-- The tag of a tile after lanes were written. -/
theorem Warp.tag_writeLanes (w : Warp) (ty : Nat) (wide : Bool) (d : Nat) (m : LaneMask) (f : Nat → Nat) (i : Nat)
    (h : wide = true → d % 2 = 0) :
    (w.writeLanes ty wide d m f).tag i = if m ≠ 0 ∧ i = d / 8 then ⟨ty, 0, 0⟩ else w.tag i := by
  unfold Warp.writeLanes
  cases wide
  · simp [Warp.tag_setV]
  · have := h rfl
    have e : (d + 1) / 8 = d / 8 := by omega
    simp only [if_true, Warp.tag_setV, e]
    split <;> simp_all

/-! ## Masks given lane by lane -/

theorem getLsbD_bit {k n : Nat} (hn : n < 32) : (BitVec.ofNat 32 (2 ^ k)).getLsbD n = decide (k = n) := by
  rw [BitVec.getLsbD_ofNat, Nat.testBit_two_pow]
  simp [hn]

theorem getLsbD_foldl_or (f : Nat → Bool) (l : List Nat) (m : LaneMask) {n : Nat} (hn : n < 32) :
    (l.foldl (fun m k => if f k then m ||| BitVec.ofNat 32 (2 ^ k) else m) m).getLsbD n = (m.getLsbD n || (l.contains n && f n)) := by
  induction l generalizing m with
  | nil => simp
  | cons k l ih =>
    rw [List.foldl_cons, ih, List.contains_cons]
    by_cases hk : n = k
    · subst hk
      cases hf : f n
      · simp
      · rw [if_pos rfl, BitVec.getLsbD_or, getLsbD_bit hn]; simp
    · cases hf : f k
      · simp [beq_false_of_ne hk]
      · rw [if_pos rfl, BitVec.getLsbD_or, getLsbD_bit hn]; simp [beq_false_of_ne hk, Ne.symm hk]

/-- The mask whose bit n is `f n`, read back. -/
theorem maskOf_getLsbD (f : Nat → Bool) {n : Nat} (hn : n < 32) : (maskOf f).getLsbD n = f n := by
  unfold maskOf
  rw [getLsbD_foldl_or f _ _ hn]
  simp [hn]

end Sys2Proof.Machine
end

