-- ==== Sys2Proof/Tests/Slice0.lean ====
section
/-! SUPPORT. Tests: words as the spec writes them, terms that are ill formed, results that the spec gives, and witnesses for
the hypotheses of the statements. -/

namespace Sys2Proof.Tests

open Sys2Proof.Machine Sys2Proof.Cert

set_option Elab.async false

/-! ## States of one warp -/

/-- A slice with some lanes active and the rest exited. -/
def sliceOf (cm : BitVec 4) : Slice := ⟨cm, ~~~ cm, [], [], none, 0⟩

/-- Four active lanes of one slice. -/
def warp0 : Warp :=
  { Warp.blank with
    crew := 1
    lanes := 4
    nregs := 128
    v := [(1, [5, 6, 7, 8]), (2, [1, 2, 3, 4]), (6, [0x80000000])]
    p := [(1, 5), (2, 15)]
    s := [(1, 15), (2, 9)]
    slices := sliceOf 15 :: List.replicate 7 (sliceOf 0)
    tmrthr := 3
    wtimer := 4 }

/-- A state in which the one fragment of a warp is about to issue a word, which the clause's `more` words follow. -/
def at' (i : Instr) (mode : Word := 0x20) (w : Warp := warp0) (mask : SliceMask := 1) (more : List Word := []) : State :=
  { State.reset with
    cur := some (64, 0)
    nextId := 10
    ctxs := [(0, soloCtx)]
    crews := [(1, { Crew.blank with spadMacros := 32 })]
    warps := [(64, { w with
      frags := [{ Frag.start mask 0x1000 mode with clause := some ⟨0x1000, encode i :: more, 0, 0, 15, 1, 0, none, 10⟩ }] })] }

/-- What issues there. -/
def view' (s : State) : View :=
  s.view.getD ⟨0, 0, Warp.blank, Frag.start 0 0 0, ⟨0, [], 0, 0, 0, 0, 0, none, 0⟩, Crew.blank, 0⟩

/-- A word that passes the checks at its issue, in such a state. -/
def Issues (sh : View → Shape) (i : Instr) (mode : Word := 0x20) (w : Warp := warp0) : Prop :=
  Passes (at' i mode w) (view' (at' i mode w)) (sh (view' (at' i mode w)))

/-- The state after an instruction. -/
def after' (i : Instr) (s : State) : State :=
  match exec i s with
  | .next t => t
  | _ => State.reset

/-- The warp after a word. -/
def done (i : Instr) (mode : Word := 0x20) (w : Warp := warp0) : Warp :=
  (Tab.lookup 64 (after' i (at' i mode w)).warps).getD Warp.blank

/-- A warp whose slice 0 has a stack. -/
def stacked (l : List StackEntry) (ends : List Addr := []) (trap : Option TrapSlot := none) : Warp :=
  { warp0 with slices := ⟨15, 0, l, ends, trap, 0⟩ :: List.replicate 7 (sliceOf 0) }

/-! ## Witnesses for the statements about arithmetic -/

theorem witness_IntegerArithmetic : Issues (shapeR 3 1 2) (.add 3 1 2) ∧ Issues (shapeI 3 1) (.addI 3 1 7) ∧
    Issues (shapeS 3 1 2) (.addS 3 1 2) ∧ Issues (shapeSI 3 1) (.addSi 3 1 7) := ⟨⟨by decide, by decide⟩,
  ⟨by decide, by decide⟩, ⟨by decide, by decide⟩, by decide, by decide⟩
theorem witness_IntegerLogicAndShifts : Issues (shapeR 0 126 126) (.shl 0 126 126) 0 ∧ Issues (shapeI 126 0) (.rotI 126 0 7) 0 :=
  ⟨⟨by decide, by decide⟩, by decide, by decide⟩
theorem witness_IntegerUnaryAndMoves : Issues (shapeI 3 1) (.clz 3 1) ∧ Issues (shapeSI 63 1) (.absS 63 1) ∧
    Issues (fun v => { writes := laneRegs (typeWide v.type) 126, ok := pairOk (typeWide v.type) 126 }) (.movImm 126 1) 0 :=
  ⟨⟨by decide, by decide⟩, ⟨by decide, by decide⟩, by decide, by decide⟩
theorem witness_IntegerArithmetic_carry : Issues (fun v => shapeCarry (shapeR 3 1 2 false v)) (.addc 3 1 2) := ⟨by decide, by decide⟩
theorem witness_IntegerDivision : Issues (shapeR 3 1 2 true) (.idiv 3 1 2) ∧ Issues (shapeSI 3 1 true) (.iremSi 3 1 0) :=
  ⟨⟨by decide, by decide⟩, by decide, by decide⟩
theorem witness_IntegerCompares : Issues (fun v => { shapeR 0 1 2 false v with writes := [.p 7] }) (.cmpLt 7 1 2) ∧
    Issues (fun _ => { reads := [.s 1], writes := [.p 0] }) (.cmpEqSi 0 1 3) := ⟨⟨by decide, by decide⟩, by decide, by decide⟩
theorem witness_MultiplyAddFieldsSelect : Issues (shapeRD 3 1 2) (.mad 3 1 2) ∧ Issues (shapeSD 3 1 2) (.bfiS 3 1 2) ∧
    Issues (fun v => { shapeR 3 1 2 false v with reads := .p 4 :: (shapeR 3 1 2 false v).reads }) (.sel 3 1 2 1 4) :=
  ⟨⟨by decide, by decide⟩, ⟨by decide, by decide⟩, by decide, by decide⟩
theorem witness_LaneMasksAndMoves : Issues (fun _ => { reads := [.sr 0], writes := [.v 3] }) (.laneLe 3) ∧
    Issues (fun v => { reads := [.s 63], writes := laneRegs (typeWide v.type) 3, ok := pairOk (typeWide v.type) 3 }) (.s2v 3 63) ∧
    Issues (fun _ => { reads := [.p 0, .p 7], writes := [.p 1] }) (.pxor 1 0 7) :=
  ⟨⟨by decide, by decide⟩, ⟨by decide, by decide⟩, by decide, by decide⟩
theorem witness_FloatLongWords : Issues (shapeF fpType 4 2 6 true) (.fdiv 4 2 6) 0xE0 ∧ Issues (shapeF1 fpType 3 1 true) (.fsqrt 3 1) 0x140 :=
  ⟨⟨by decide, by decide⟩, by decide, by decide⟩
theorem witness_FloatChoiceAndCompare : Issues (shapeF isFloat 3 1 2) (.fmin 3 1 2) 0x100 ∧
    Issues (fun v => { reads := laneRegs (typeWide v.type) 1, writes := [.v 3], ok := pairOk (typeWide v.type) 1 && isFloat v.type }) (.fclass 3 1) 0x100 := ⟨⟨by decide, by decide⟩, by decide, by decide⟩
theorem witness_FloatConversions : Issues (fun v =>
      { reads := laneRegs (typeWide 13) 1, writes := laneRegs (typeWide v.type) 3, ok := pairOk (typeWide 13) 1 && pairOk (typeWide v.type) 3 && decide (13 < 14) }) (.fcvt 3 1 13) 0x100 ∧
    Issues (fun v => { reads := .s 1 :: tileRegs 1, writes := packedList v.type 32, long := true, ok := packType v.type && 32 % packedRegs v.type == 0 && decide (1 < 16) && (v.w.tag 1).fmt == 8 }) (.qcvt 32 1 1) 0x160 ∧
    Issues (fun _ => { reads := [.v 1], writes := [.v 1] }) (.had32 1 1) :=
  ⟨⟨by decide, by decide⟩, ⟨by decide, by decide⟩, by decide, by decide⟩
theorem witness_GeneratorPackingFlags : Issues (fun v => { reads := [.v 1, .v 3], writes := [.v 3], ok := moveType v.type && decide (3 * elemWidth v.type < 32) }) (.pack 3 1 3) 0xA0 ∧
    (at' (.rdflg 3 6)).raisersLeft 64 = false ∧ Issues (fun _ => { writes := [.s 3], ok := decide (6 < 7) }) (.rdflg 3 6) :=
  ⟨⟨by decide, by decide⟩, by decide, by decide, by decide⟩
theorem witness_CrossLaneWords : Issues (fun v => { reads := .s 1 :: .v 2 :: laneRegs (typeWide v.type) 3, writes := laneRegs (typeWide v.type) 3, ok := pairOk (typeWide v.type) 3 }) (.shflIdx 3 1 2) ∧
    Issues (fun _ => { reads := [.s 1, .p 1], writes := [.v 3] }) (.ballot 3 1 1) := ⟨⟨by decide, by decide⟩, by decide, by decide⟩
theorem witness_ReductionsAndScans : Issues (fun v => { reads := .s 1 :: laneRegs (typeWide v.type) 2, writes := laneRegs (typeWide v.type) 3, ok := pairOk (typeWide v.type) 3 && pairOk (typeWide v.type) 2 && combineOk v.type 0 })
    (.scanAdd 3 2 1) 0x100 := ⟨by decide, by decide⟩
theorem witness_RoundingToAType : (13 < 14 ∧ isFloat 13 = true ∧ 0 < 1 ∧ 0 < 3) ∧ (0 < 14 ∧ isFloat 0 = false) ∧ 2 ^ 51 - 1 < 2 ^ 51 := by decide
theorem witness_FloatArithmetic : Issues (fun v => { shapeRD 3 1 2 v with ok := (shapeF fpType 3 1 2 false v).ok }) (.ffma 3 1 2) 0x100 ∧
    Issues (shapeFI fpType 3 1 2) (.faddI 3 1 2) 0x100 ∧ fpType 10 = true := ⟨⟨by decide, by decide⟩, ⟨by decide, by decide⟩, by decide⟩
theorem witness_FloatChoiceAndCompare_values : isFloat 8 = true ∧ 0x80000000 < 2 ^ elemWidth 8 ∧
    (readFloat 8 false 0x7FC00001).isNan = true ∧ (readFloat 8 false 0x80000000).isNan = false ∧
    RanksBelow (readFloat 8 false 0x80000000) (readFloat 8 false 0) ∧ RanksBelow (readFloat 8 false 0xFF800000) (readFloat 8 false 0) ∧
    ¬ RanksBelow (readFloat 8 false 0) (readFloat 8 false 0) := by
  obtain ⟨d, h⟩ : ∃ d, readFloat 8 false 0 = .num false 0 d := ⟨_, rfl⟩
  refine ⟨by decide, by decide, by decide, by decide, .inr ⟨_, _, rfl, rfl⟩, .inl rfl, ?_⟩
  rw [h]
  rintro (h | ⟨b, d, h, -⟩)
  · simp [lessThan, sgn] at h
  · simp at h
theorem witness_FloatConversions_values : (13 < 14 ∧ 0 < 14 ∧ 15 < 2 ^ elemWidth 13) ∧ (List.replicate 8 0).length = 8 ∧
    (∀ s n d, FVal.num s n d ∈ [FVal.num true 3 2, .inf true] → 0 < d) ∧ (∀ s n d, FVal.num false 1 4 = .num s n d → 0 < d) := by
  refine ⟨by decide, rfl, fun s n d h => ?_, fun s n d h => ?_⟩ <;> simp at h <;> omega
theorem witness_ReductionsAndScans_values : combineOk 0 5 = true ∧ combineOk 8 2 = true ∧ (31 < 32 ∧ 5 < 6) ∧
    (List.replicate 32 (none : Option Nat)).length = 32 := by decide

/-! ## Witnesses for the statements about control -/

/-- An entry of each kind, its target at 0x1100. -/
def entry (k : EntryKind) (count : Word := 0) (aux : BitVec 8 := 0) : StackEntry := ⟨k, 15, aux, 0x1100, count⟩

theorem witness_StructuredWords : Issues (fun _ => { reads := [.p 1] }) (.ifThen 1 0 4) ∧
    Issues (fun _ => {}) (.elseThen 4) 0x20 (stacked [entry .ifEntry]) ∧
    allTopsAre (view' (at' .endif 0x20 (stacked [entry .ifEntry]))) .ifEntry ∧
    someStackFull (view' (at' (.loop 4) 0x20 (stacked (List.replicate 16 (entry .ifEntry))))) := by
  refine ⟨⟨by decide, by decide⟩, ⟨by decide, by decide⟩, ?_, 0, by decide, by decide, by decide⟩
  intro k hk h
  have : k = 0 := by revert h; revert hk; revert k; decide
  subst this
  exact ⟨entry .ifEntry, [], rfl, rfl⟩
theorem witness_ExitRepeatMark : Issues (fun _ => { reads := [.s 2], ok := (3 : BitVec 7) != 0 }) (.rptReg 2 3) ∧
    ((view' (at' (.rptReg 2 3))).w.sreg 2).toNat % 2 ^ 32 = 9 ∧
    (at' (.rptReg 2 3)).fetch 0 0 0x1010 = none ∧ Issues (fun _ => {}) .exit :=
  ⟨⟨by decide, by decide⟩, by decide, by decide, by decide, by decide⟩
theorem witness_BranchesAndCalls : Issues (fun _ => { reads := [.p 2] }) (.bra 2 0 1 4) ∧
    (view' (at' (.bra 2 0 1 4))).act &&& (view' (at' (.bra 2 0 1 4))).w.pred 2 = (view' (at' (.bra 2 0 1 4))).act ∧
    (view' (at' (.bra 2 0 1 4))).act ≠ 0 ∧ (view' (at' (.bra 1 0 1 4))).act &&& (view' (at' (.bra 1 0 1 4))).w.pred 1 = 5 :=
  ⟨⟨by decide, by decide⟩, by decide, by decide, by decide⟩
theorem witness_WordsAndClauseEnds : Issues (fun _ => {}) .nop ∧ (view' (at' .nop)).c.words.length ≤ (view' (at' .nop)).c.pos + 1 :=
  ⟨⟨by decide, by decide⟩, by decide⟩
theorem witness_CountedLoopGoesRound :
    let s := at' .nop 0x20 (stacked [entry .rptEntry 2] [0x1004])
    Passes s (view' s) {} ∧ (view' s).f.region = none ∧
      (sliceList (view' s).f.mask).find? (fun k => !((view' s).w.slice k).finished) = some 0 ∧
      ((view' s).w.slice 0).stack = [entry .rptEntry 2] ∧ ((view' s).w.slice 0).endsLoop (view' s).addr = true ∧
      s.badTarget (view' s) 0x1100 = false := ⟨⟨by decide, by decide⟩, by decide, by decide, by decide, by decide, by decide⟩
theorem witness_ModeAndLongImmediates : Issues (fun _ => { ok := modeOk 0x1109 }) (.setm 0x1109) ∧
    Issues (fun _ => { reads := [.s 1] }) (.setmReg 1) ∧
    Passes (at' (.lim 5) 0x20 warp0 1 [0x0C000009, 0x12041000]) (view' (at' (.lim 5) 0x20 warp0 1 [0x0C000009, 0x12041000])) {} ∧
    isLimh 0x0C000009 = true ∧ takesLong 0x12041000 = true :=
  ⟨⟨by decide, by decide⟩, ⟨by decide, by decide⟩, ⟨by decide, by decide⟩, by decide, by decide⟩
theorem witness_SpecialRegisters : readable 0x25 = true ∧
    Issues (fun _ => { reads := [.sr 0x25], writes := laneRegs (srWide 0x25) 4, ok := pairOk (srWide 0x25) 4 }) (.rdsr 4 0x25) ∧
    Issues (fun _ => { reads := [.s 1] }) (.wrsr 0x10 1) := ⟨by decide, ⟨by decide, by decide⟩, by decide, by decide⟩

/-- A fragment between clauses, with a cause raised. -/
def between (tvec : DWord := 0) (trap : Option TrapSlot := none) (inTrap : Bool := false) : State :=
  { at' .nop with
    cur := none
    warps := [(64, { (stacked [] [] trap) with
      tvec := tvec
      frags := [{ Frag.start 1 0x1000 0x20 with raised := [⟨0x22, 5, 15, inTrap⟩] }] })] }

theorem witness_TrapsAreTakenAndLeft :
    (∃ w f, HasFrag (between 0x2000) 64 0 w f ∧ f.atBoundary = true ∧ w.tmrthr ≠ 0 ∧ w.tmrthr.toNat ≤ w.wtimer.toNat ∧
      (w.raiseTimer f).1.inTrap (w.raiseTimer f).2.mask = false ∧ (∀ y ∈ (w.raiseTimer f).2.raised, y.inTrap = false) ∧
      (w.raiseTimer f).2.raised.foldl (fun l x => insertWaiting x l) (w.raiseTimer f).2.waiting = [⟨0x21, 4, 15, false⟩, ⟨0x22, 5, 15, false⟩] ∧
      (w.raiseTimer f).1.tvec ≠ 0 ∧ (between 0x2000).badHeader 0 0 (w.raiseTimer f).1.tvec = false) ∧
    (∃ w f, HasFrag (between 0x2000 (some ⟨0x1000, 15, 0x22, 5⟩)) 64 0 w f ∧ (w.raiseTimer f).1.inTrap (w.raiseTimer f).2.mask = true ∧
      (w.raiseTimer f).2.raised ≠ []) ∧
    (∃ w f y, HasFrag (between 0x2000 none true) 64 0 w f ∧ (w.raiseTimer f).1.inTrap (w.raiseTimer f).2.mask = false ∧
      y ∈ (w.raiseTimer f).2.raised ∧ y.inTrap = true) ∧
    (∃ w f, HasFrag between 64 0 w f ∧ (w.raiseTimer f).1.tvec = 0) ∧
    Issues (fun _ => {}) .rtt 0x20 (stacked [] [] (some ⟨0x1000, 15, 0x22, 5⟩)) :=
  ⟨⟨_, _, ⟨rfl, rfl⟩, by decide, by decide, by decide, by decide, by decide, by decide, by decide, by decide⟩,
    ⟨_, _, ⟨rfl, rfl⟩, by decide, by decide⟩,
    ⟨_, _, ⟨0x22, 5, 15, true⟩, ⟨rfl, rfl⟩, by decide, by decide, rfl⟩, ⟨_, _, ⟨rfl, rfl⟩, by decide⟩, by decide, by decide⟩
theorem witness_FaultsAndDoubleTraps :
    (∃ w f, HasFrag (between 0x2000 (some ⟨0x1000, 15, 0x22, 5⟩)) 64 0 w f ∧ f.atBoundary = true ∧ w.inTrap f.mask = true ∧ f.raised ≠ []) ∧
    (∃ w f x, HasFrag (between 0x2000 none true) 64 0 w f ∧ f.atBoundary = true ∧ x ∈ f.raised ∧ x.inTrap = true) ∧
    (∃ w f, HasFrag (at' .nop) 64 0 w f ∧ w.inTrap f.mask = false ∧ f.state ≠ .parked ∧
      Tab.lookup ((at' .nop).ctxOfCrew w.crew) (at' .nop).ctxs = some soloCtx ∧ Tab.lookup 1 (at' .nop).waits = none) ∧
    (let v := view' (at' (.add 3 1 2) 0x20 { warp0 with bad := [.v 1] })
     ¬ ((shapeR 3 1 2 false v).ok = false) ∧ (.v 1 : Reg) ∈ (shapeR 3 1 2 false v).reads ∧ (.v 1 : Reg) ∈ v.w.bad) ∧
    (let v := view' (at' (.add 3 1 2) 0x20 { warp0 with pending := [⟨3, [.v 3], 1, 1⟩] })
     (.v 3 : Reg) ∈ (shapeR 3 1 2 false v).writes ∧ (1 : SliceMask) &&& v.f.mask ≠ 0) :=
  ⟨⟨_, _, ⟨rfl, rfl⟩, by decide, by decide, by decide⟩, ⟨_, _, ⟨0x22, 5, 15, true⟩, ⟨rfl, rfl⟩, by decide, by decide, rfl⟩,
    ⟨_, _, ⟨rfl, rfl⟩, by decide, by decide, rfl, rfl⟩, by decide, by decide⟩

/-! ## Witnesses for the statements about memory -/

/-- A record of 64 elements of 4 bytes from 0x2000 on. -/
def rec4 : BitVec 128 := BitVec.ofNat 128 (0x2000 + 2 * 2 ^ 64 + 4 * 2 ^ 72 + 64 * 2 ^ 96)

/-- A warp with that record in b1 and in b2. -/
def warp1 : Warp := { warp0 with b := [(1, rec4), (2, rec4)] }

/-- A state about to issue a word, with the first 64 KiB mapped to themselves, and with requests in flight. -/
def mapped (i : Instr) (ops : List Op := []) (mode : Word := 0x20) (w : Warp := warp1) : State :=
  { at' i mode w with tlb := [(0, [⟨0, 0, 16, 0x1F, 0⟩])], ops := ops }

/-- A word that passes the checks there. -/
def IssuesMapped (sh : View → Shape) (i : Instr) (mode : Word := 0x20) : Prop :=
  Passes (mapped i [] mode) (view' (mapped i [] mode)) (sh (view' (mapped i [] mode)))

/-- A request of the warp, granted. -/
def request (k : OpKind) (granted : Bool := true) : Op := ⟨9, k, (view' (mapped .nop)).src, granted, false, 9, 9⟩

/-- A request that has been accepted. -/
def accepted (k : OpKind) : Op := { request k with completed := true }
/-- A state with one request in flight. -/
def flying (k : OpKind) (granted : Bool := true) : State := mapped .nop [request k granted]

/-- The access of lane 0 to the 4 bytes at 0x2000. -/
def access0 (data : List (BitVec 8) := []) : Access := ⟨0, 0x2000, .pa 0x2000, 4, data, none⟩

/-- The page that it reaches. -/
def page0 : Page := ⟨.plain, 0, 16, 0⟩

/-- What the load word of the one load request keeps: no draws, and nothing written besides its lanes. -/
def one : LoadWord := ⟨9, 3, 4, ⟨0, Lanes.zero⟩, [], true⟩

/-- The address in the on-chip map of byte `off` of a space of the crew in row and column 0. -/
def chipAddr (space off : Nat) : Addr := BitVec.ofNat 64 (2 ^ 56 + space * 2 ^ 21 + off)

/-- A state with an accepted or a waiting request to the map, the window of its warp open. -/
def reaching (k : OpKind) (completed : Bool := true) : State :=
  { mapped .nop [{ request k with completed := completed }] 0x20 { warp1 with window := true } with
    launches := [(0, ⟨0, 0x140000, soloRecord, [], [], 2, 0, some 0, [(0, 0)]⟩)] }
theorem witness_FragmentAndWarpEvents :
    (∃ w f c, HasFrag between 64 0 w f ∧ Tab.lookup w.crew between.crews = some c ∧ c.state = .resident ∧ w.evicted = false ∧
      w.retired = false ∧ f.atBoundary = true ∧ f.state ≠ .flagWait ∧ f.state ≠ .held ∧ between.startWait c.ctx c.core 64 w f = none) ∧
    (∃ w f, HasFrag (at' .nop) 64 0 w f ∧ f.atBoundary = false) ∧ Issues (fun _ => {}) (.regang 1) ∧
    (view' (at' (.regang 1))).f.mask &&& ~~~ 1 = 0 ∧ (view' (at' (.regang 0xFE))).f.mask &&& ~~~ 0xFE ≠ 0 :=
  ⟨⟨_, _, _, ⟨rfl, rfl⟩, rfl, rfl, rfl, rfl, by decide, by decide, by decide, by decide⟩, ⟨_, _, ⟨rfl, rfl⟩, by decide⟩,
    ⟨by decide, by decide⟩, by decide, by decide⟩
theorem witness_FragmentAndWarpEvents_ends :
    let w : Warp := { warp0 with slices := List.replicate 8 ⟨15, 15, [], [], none, 0⟩, frags := [{ Frag.start 1 0x1000 0x20 with state := .done }] }
    let s : State := { at' .nop with cur := none, warps := [(64, w)] }
    Tab.lookup 64 s.warps = some w ∧ w.retired = false ∧ (∀ f ∈ w.frags, f.state = .done) ∧ w.oc = ⟨0, 0, 0, 0, 0⟩ ∧
      (∀ x ∈ w.slices, x.flags = 0) ∧ (∀ o ∈ s.ops, o.src.warp = 64 → o.completed = true) := by decide

/-- A warp of two fragments that wait at `join`, each in a slice with a MARK entry. -/
def parted (second : FragState := .regang) : State :=
  let f : Frag := { Frag.start 1 0x1000 0x20 with
    clause := some ⟨0x1000, [0x06000005], 0, 0, 15, 1, 0, none, 10⟩, state := .regang, suspended := true, gang := some (0x1004, 3) }
  let x : Slice := ⟨15, 0, [⟨.markEntry, 15, 3, 0x1100, 0⟩], [], none, 0⟩
  { at' .nop with
    cur := none
    warps := [(64, { warp0 with slices := x :: x :: List.replicate 6 (sliceOf 0), frags := [f, { f with mask := 2, state := second }] })] }

theorem witness_FragmentAndWarpEvents_join :
    (let v := view' (at' .join 0x20 (stacked [⟨.markEntry, 15, 3, 0x1100, 0⟩]))
     Issues (fun _ => {}) .join 0x20 (stacked [⟨.markEntry, 15, 3, 0x1100, 0⟩]) ∧ (v.w.slice 0).stack = [⟨.markEntry, 15, 3, 0x1100, 0⟩] ∧
       v.f.mask &&& ~~~ 3 = 0) ∧
    (∃ w f c crew, HasFrag parted 64 0 w f ∧ f.state = .regang ∧ f.gang = some (0x1004, 3) ∧ f.clause = some c ∧
      Tab.lookup w.crew parted.crews = some crew ∧ (∀ g ∈ w.ganging 3, g.state = .regang ∧ g.gang = some (0x1004, 3) ∧ g.mode = f.mode) ∧
      (w.ganging 3).length = 2 ∧ w.sameDepth 3 = true) ∧
    (∃ w f, HasFrag (parted .ready) 64 0 w f ∧ f.state = .regang ∧ f.gang = some (0x1004, 3) ∧ ∃ g ∈ w.ganging 3, g.state ≠ .regang) :=
  ⟨⟨⟨by decide, by decide⟩, by decide, by decide⟩,
    ⟨_, _, _, _, ⟨rfl, rfl⟩, rfl, rfl, rfl, rfl, by decide, by decide, by decide⟩, _, _, ⟨rfl, rfl⟩, rfl, rfl, by decide⟩
theorem witness_FencesCountersAndCaches : Issues (fun _ => { ok := (0x3F : BitVec 6) != 0 }) (.fenceAr 0x3F) ∧
    LoadsDone (at' (.fenceAcq 1)) 64 10 ∧ AllPerformed (at' (.fenceAr 0x3F)) 64 10 ∧
    Released ((at' (.fenceAr 0x3F)).releaseCore 0) 64 10 0x3F ∧ ¬ LoadsDone (flying (.load one page0 true [access0] [])) 64 10 ∧
    ¬ AllPerformed (flying (.store none Exc.none [access0 [1, 2, 3, 4]])) 64 10 ∧
    Issues (fun _ => { ok := decide ((4 : BitVec 3).toNat < 5) }) (.waitc 127 4) ∧ counter warp0 4 ≤ 127 ∧
    Issues (fun _ => { long := true }) .closew :=
  ⟨⟨by decide, by decide⟩, by unfold LoadsDone; decide, by unfold AllPerformed Released; decide,
    by unfold Released; decide, by unfold LoadsDone; decide,
    by unfold AllPerformed Released; decide, ⟨by decide, by decide⟩, by decide, by decide, by decide⟩
theorem witness_FencesCountersAndCaches_window :
    (view' (at' .closew)).w.window = false ∧
    (let s := { reaching (.store none Exc.none [⟨0, chipAddr 2 0, .map (chipAddr 2 0), 4, [1, 2, 3, 4], none⟩]) with nextId := 10 }
     s.windowBusy 64 10 = true ∧ s.windowBusy 65 10 = false ∧ ((Tab.lookup 64 s.warps).map (·.window)) = some true) := by decide
theorem witness_CrewBarrierAndRegrouping_bar :
    (let s := at' .bar 0x20 warp0 1 [0x06000000]
     let v := view' s
     Passes s v { long := true, ok := modeGuard v.f.mode == 0 } ∧ AllPerformed s v.key (since s v) ∧ v.word = 0x7A000000 ∧
       v.c.pos + 1 < v.c.words.length ∧ (v.w.slices.any fun x => !x.finished) = true ∧ v.w.retired = false ∧ ListedOnce s v.w.crew ∧
       ∀ e ∈ unfinishedOf s v.w.crew, ∀ f ∈ e.2.frags, f.state = .done ∨ (e.1 = v.key ∧ fragNo f.mask = v.no)) ∧
    ¬ AllPerformed (flying (.store none Exc.none [access0 [1, 2, 3, 4]])) 64 10 :=
  ⟨⟨⟨by decide, by decide⟩, by unfold AllPerformed Released; decide, by decide, by decide, by decide, by decide,
    by unfold ListedOnce; decide, by decide⟩,
    by unfold AllPerformed Released; decide⟩

/-- A state whose one fragment waits at a word of its crew. -/
def waiting (i : Instr) (op : Option Nat := none) (more : List Word := []) (ops : List Op := []) : State :=
  { (mapped i ops 0x20 { warp1 with s := [(2, 1)] }).mapFrag 64 0 fun f =>
      { f with clause := some ⟨0x1000, encode i :: more, 0, 0, 15, 1, 0, none, 9⟩, state := .barrier, suspended := true, waitOp := op } with cur := none }

theorem witness_CrewBarrierAndRegrouping_completion :
    (let s := waiting .bar none [0x06000000]
     unfinishedOf s 1 ≠ [] ∧ ListedOnce s 1 ∧ ∃ e f, unfinishedOf s 1 = [e] ∧ e.2.frags = [f] ∧ WaitsAtBar f ∧ s.cur ≠ some (e.1, fragNo f.mask)) ∧
    (let s := waiting .bar
     ∃ w f v, unfinishedOf s 1 = [(64, w)] ∧ Tab.lookup 64 s.warps = some w ∧ w.frags = [f] ∧ f.state = .barrier ∧ f.waitOp = none ∧
      s.viewOf 64 (fragNo f.mask) = some v ∧ v.word = 0x7A000000) ∧
    (∃ e ∈ unfinishedOf (mapped .nop) 1, ∃ f ∈ e.2.frags, f.state ≠ .done ∧ f.atBar = false) :=
  ⟨⟨by decide, by unfold ListedOnce; decide, _, _, rfl, rfl, ⟨rfl, rfl, rfl, _, rfl, by decide⟩, by decide⟩,
    ⟨_, _, _, rfl, rfl, rfl, rfl, rfl, rfl, by decide⟩, by decide⟩
theorem witness_CrewBarrierAndRegrouping_resort :
    (let s := at' (.resort 1 2) 0x20 { warp0 with s := [(2, 1)] }
     let v := view' s
     Passes s v
      { reads := [.v 1, .s 2], long := true,
        writes := ((liveRegs (v.w.sreg 2)).map .v) ++ ((List.range 8).map .p) ++ [.sr 0, .sr 1],
        ok := (liveRegs (v.w.sreg 2)).all fun r => decide (r - r % 2 < v.w.nregs) } ∧ (s.ops.all fun o => o.id != s.nextId) = true ∧
      unfinishedOf s v.w.crew = [(v.key, v.w)] ∧ ListedOnce s v.w.crew ∧ (v.w.frags.filter fun f => f.state != .done) = [v.f] ∧
      Regular v.w) ∧
    (let o := request (.resort [3, 1, 2, 0] 1)
     let s := waiting (.resort 1 2) (some 9) [0x06000000] [o]
     unfinishedOf s 1 ≠ [] ∧ ListedOnce s 1 ∧ (s.ops.find? fun o => o.id == 9) = some o ∧
       ∃ e f c, unfinishedOf s 1 = [e] ∧ Regular e.2 ∧ (e.2.frags.filter fun f => f.state != .done) = [f] ∧ f.state = .barrier ∧
         f.waitOp = some 9 ∧ e.2.inTrap f.mask = false ∧ f.clause = some c ∧ c.pos + 1 < c.words.length ∧
         s.cur ≠ some (e.1, fragNo f.mask)) :=
  ⟨⟨⟨by decide, by decide⟩, by decide, by decide, by unfold ListedOnce; decide, by decide, by unfold Regular; decide⟩,
    by decide, by unfold ListedOnce; decide, by decide, _, _, _, rfl, by unfold Regular; decide, rfl, rfl, rfl, by decide, rfl, by decide,
    by decide⟩
theorem witness_BarrierObjects : IssuesMapped (fun v => { reads := [.s 1, .s 2, .b 1], long := true, ok := (v.w.sreg 1).toNat % 65536 != 0 })
      (.abarArr 1 2 1) ∧ (view' (mapped (.abarArr 1 2 1))).f.waitOp = none ∧
    (∀ form ∈ [AbarForm.init, .arr, .wait, .wd],
      let acc : Access := ⟨0, 0x2000, .pa 0x2000, 16, [], none⟩
      let s0 := { flying (.abar form 2 acc) with mem := putBytes [] 0x2000 (leBytes (2 * 2 ^ 16 + 0xB0B1 * 2 ^ 112) 16) }
      let s := if form = .arr then s0.releaseCore 0 else s0
      s0.op 9 = some (request (.abar form 2 acc)) ∧ s.ordered (request (.abar form 2 acc)) = true ∧ fieldAt s 0x2000 7 = 0xB0B1 ∧
        s.bad = []) ∧
    AllPerformed (flying (.abar .arr 2 ⟨0, 0x2000, .pa 0x2000, 16, [], none⟩)) 64 9 :=
  ⟨⟨by decide, by decide⟩, by decide, by decide, by unfold AllPerformed Released; decide⟩
theorem witness_WriteTokens : IssuesMapped (fun _ => { reads := [.s 2, .b 1], long := true }) (.tkacq 2 1) ∧
    (view' (mapped (.tkacq 2 1))).f.waitOp = none ∧
    tokenAddress (view' (mapped (.tkacq 2 1))) 2 1 0x2024 ∧ (mapped (.tkacq 2 1)).tokenNo 0 0x2024 = none ∧
    (let t : TokenRegion := ⟨0x2000, 12, none, [0], [], none⟩
     let s := { mapped .nop with ctxs := [(0, { soloCtx with tokens := [t] })] }
     s.tokenRegion 0 0 = some t ∧ s.tokenNo 0 0x2024 = some 0) ∧
    (let s := (mapped (.tkacq 2 1)).mapFrag 64 0 fun f => { f with waitOp := some 9 }
     Passes s (view' s) { long := true } ∧ (view' s).f.waitOp = some 9) :=
  ⟨⟨by decide, by decide⟩, by decide, ⟨by decide, by decide, by decide⟩, by decide, by decide, ⟨by decide, by decide⟩, by decide⟩
theorem witness_WriteTokens_passes :
    (∀ k ∈ [[], [65]], let t : TokenRegion := ⟨0x2000, 12, some 0, [1], k, none⟩
     let s := { mapped .nop with ctxs := [(0, { soloCtx with tokens := [t] })] }
     s.tokenRegion 0 0 = some t ∧ t.asking ≠ [] ∧ s.regionBusy 0 0 t 10 true = false ∧ ∀ k ∈ t.keepers, s.keeps 0 k = false) ∧
    (let t : TokenRegion := ⟨0x2000, 12, some 0, [1], [64], none⟩
     let s := { mapped .nop with ctxs := [(0, { soloCtx with tokens := [t] })] }
     s.tokenRegion 0 0 = some t ∧ ∃ k ∈ t.keepers, s.keeps 0 k = true) ∧
    (let t : TokenRegion := ⟨0x2000, 12, some 0, [1], [], none⟩
     let o := request (.store none Exc.none [access0 [1, 2, 3, 4]])
     let s := { mapped .nop [o] with ctxs := [(0, { soloCtx with tokens := [t] })] }
     s.coreOf o = 0 ∧ o.id < 10 ∧ (0x2000 : Addr).toNat / 2 ^ 12 = t.base / 2 ^ 12 ∧ s.regionBusy 0 0 t 10 true = true) ∧
    (let t : TokenRegion := ⟨0x2000, 12, some 2000, [1], [], none⟩
     let s := { mapped .nop with ctxs := [(0, { soloCtx with tokens := [t] })] }
     s.tokenRegion 0 0 = some t ∧ outsider ≤ 2000 ∧ s.agentWaits 2000 = false ∧
       (flying (.prefetch [])).agentWaits (agentOf 9) = true) := by decide
theorem witness_WriteTokens_requests :
    (∀ h ∈ [some 0, some 3], let t : TokenRegion := ⟨0x2000, 12, h, [], [64], none⟩
     let s := { flying (.tokenRelease 0 0) with ctxs := [(0, { soloCtx with tokens := [t] })] }
     s.op 9 = some (request (.tokenRelease 0 0)) ∧ s.tokenRegion 0 0 = some t ∧ s.coreOf (request (.tokenRelease 0 0)) = 0 ∧
       s.regionBusy 0 0 t 9 false = false) ∧
    (∀ h ∈ [some 0, none], let t : TokenRegion := ⟨0x2000, 12, h, [], [64], none⟩
     let c : Context := { soloCtx with tokens := [t] }
     let s := { flying (.tokenAcquire 0 0x2000) with ctxs := [(0, c)] }
     s.op 9 = some (request (.tokenAcquire 0 0x2000)) ∧ Tab.lookup 0 s.ctxs = some c ∧
       c.tokens.findIdx? (fun t => t.base == 0x2000) = some 0 ∧ c.tokens[0]? = some t ∧ s.coreOf (request (.tokenAcquire 0 0x2000)) = 0) := by
  decide
theorem witness_LoadsIssue : IssuesMapped (shapeLoad 3 1 1 none 0 true) (.ld 3 1 1 0 0 0) ∧
    (let v := view' (mapped (.ld 3 1 1 0 0 0))
     let r := v.reachAll (mapped (.ld 3 1 1 0 0 0)) (bufOf rec4) false false true false true (loadTypeOk v (bufOf rec4) 3) 0 1
     r.1 = [] ∧ r.2.length = 4 ∧ (r.2.filterMap fun e => e.2.place) = [.pa 0x2014, .pa 0x2018, .pa 0x201C, .pa 0x2020] ∧
       (r.1 ++ (mapped (.ld 3 1 1 0 0 0)).dataFaults v.crew.core (fun _ => false) 4 r.2) = [] ∧
       v.extraFault (if fillsPair v (bufOf rec4) r.2 then [.v 4] else []) = none) ∧
    IssuesMapped (shapeLoad 3 1 1 none 0 true) (.ldAcq 3 1 1 0 1) ∧ (view' (mapped (.ldAcq 3 1 1 0 1))).f.waitOp = none ∧
    (let s := (mapped (.ldAcq 3 1 1 0 1)).mapFrag 64 0 fun f => { f with waitOp := some 9 }
     Passes s (view' s) { long := true } ∧ (view' s).f.waitOp = some 9 ∧ LoadsDone s 64 9) :=
  ⟨⟨by decide, by decide⟩, ⟨by decide, by decide, by decide, by decide, by decide⟩, ⟨by decide, by decide⟩, by decide,
    ⟨by decide, by decide⟩, by decide, by unfold LoadsDone; decide⟩
/-- A state about to issue a word, with the first 64 KiB mapped to themselves as a page of a type and geometry, its indices as given,
and tile 2 tagged fp32. -/
def onType (ty geom : Nat) (i : Instr) (idx : Lanes := [0, 0, 0, 0]) (esz : Nat := 2) : State :=
  { at' i 0x100 { warp0 with
      v := [(1, idx)], tags := [(2, ⟨8, 0, 0⟩)], b := [(1, BitVec.ofNat 128 (0x2000 + esz * 2 ^ 64 + 2 ^ esz * 2 ^ 72 + 64 * 2 ^ 96))] } with
    tlb := [(0, [⟨0, 0, 16, BitVec.ofNat 64 (0x1F + ty * 2 ^ 60), BitVec.ofNat 64 geom⟩])] }

/-- What the lanes of a load, or of a store, reach there. -/
def loaded (s : State) (d : Nat) : List LaneFault × List (Nat × Reached) :=
  let v := view' s
  v.reachAll s (bufOf (v.w.breg 1)) false false true false true (loadTypeOk v (bufOf (v.w.breg 1)) d) 0 1
def stored (s : State) (d : Nat) : List LaneFault × List (Nat × Reached) :=
  let v := view' s
  v.reachAll s (bufOf (v.w.breg 1)) false false false true true (storeTypeOk v (bufOf (v.w.breg 1)) d) 0 1

/-- What of these lanes is wrong with a tile. -/
def wrongTile (s : State) (r : List LaneFault × List (Nat × Reached)) (ok : Bool) : List LaneFault :=
  tileFaults r.2 r.1 ((view' s).indexAt 0 1) (bufOf ((view' s).w.breg 1)).extent ok

theorem witness_LoadsIssue_tile :
    (let s := onType 5 1 (.ld 16 1 1 0 0 0)
     let v := view' s
     Passes s v (shapeLoad 16 1 1 none 0 true v) ∧ (∃ n a x, (n, Reached.mem a x) ∈ (loaded s 16).2 ∧ (bufOf (v.w.breg 1)).pageType x = .haar) ∧
       wrongTile s (loaded s 16) (isFloat v.type && v.type != 13) = [] ∧ v.extraFault ((tileRegs 2).drop 1) = none) ∧
    wrongTile (onType 5 1 (.ld 16 1 1 0 0 0) [0, 1, 0, 0]) (loaded (onType 5 1 (.ld 16 1 1 0 0 0) [0, 1, 0, 0]) 16) true ≠ [] ∧
    (loaded (onType 0 0 (.ld 3 1 1 0 0 0) [99, 0, 0, 0]) 3).1 ≠ [] :=
  ⟨⟨⟨by decide, by decide⟩, ⟨0, _, _, List.Mem.head _, rfl⟩, by decide, by decide⟩, by decide, by decide⟩
theorem witness_StoresIssue : IssuesMapped (shapeStore 2 1 1 0 true) (.st 2 1 1 0) ∧
    (let v := view' (mapped (.st 2 1 1 0))
     (v.reachAll (mapped (.st 2 1 1 0)) (bufOf rec4) false false false true true (storeTypeOk v (bufOf rec4) 2) 0 1).1 = []) ∧
    IssuesMapped (shapeStore 2 1 1 0 true) (.cstore 2 1 1 0) ∧ IssuesMapped (shapeStore 2 1 1 0 true) (.stRel 2 1 4 0 1) :=
  ⟨⟨by decide, by decide⟩, by decide, ⟨by decide, by decide⟩, by decide, by decide⟩
theorem witness_StoresIssue_tile :
    let s := onType 5 1 (.st 16 1 1 0)
    let v := view' s
    Passes s v (shapeStore 16 1 1 0 true v) ∧ (stored s 16).1 = [] ∧
      (∃ n y x, ((stored s 16).2.find? fun e => e.2.place.isSome) = some (n, .mem y x) ∧ (bufOf (v.w.breg 1)).pageType x = .haar) ∧
      wrongTile s (stored s 16) ((v.w.tag 2).level == 0 && isFloat (v.w.tag 2).fmt && (v.w.tag 2).fmt != 13) = [] ∧
      v.extraFault (tileRegs 2) = none :=
  ⟨⟨by decide, by decide⟩, by decide, ⟨0, _, _, rfl, rfl⟩, by decide, by decide⟩
theorem witness_StoresIssue_sketch :
    (let s := onType 6 7 (.st 2 1 1 0) [16, 17, 18, 19]
     let v := view' s
     Passes s v (shapeStore 2 1 1 0 true v) ∧ (stored s 2).1 = [] ∧ v.act ≠ 0 ∧ (stored s 2).2.length = 4 ∧
       ((stored s 2).2.all fun e => match e.2 with
         | .mem _ x => (bufOf (v.w.breg 1)).pageType x == .sketch && decide (64 ≤ objectOffset x)
         | _ => false) = true) ∧
    (let s := onType 6 7 (.st 2 1 1 0)
     sketchFaults (bufOf ((view' s).w.breg 1)) (stored s 2).2 ≠ [] ∧ (bufOf ((view' s).w.breg 1)).esz = 2) ∧
    (let s := onType 6 7 (.st 2 1 1 0) [16, 17, 18, 19] 0
     (stored s 2).1 = [] ∧ sketchFaults (bufOf ((view' s).w.breg 1)) (stored s 2).2 ≠ [] ∧ (bufOf ((view' s).w.breg 1)).esz = 0) :=
  ⟨⟨⟨by decide, by decide⟩, by decide, by decide, by decide, by decide⟩, by decide, by decide⟩
theorem witness_StoresIssue_compacting :
    (let s := onType 0 0 (.cstore 2 1 1 0)
     let v := view' s
     Passes s v (shapeStore 2 1 1 0 true v) ∧ laneList v.act = [0, 1, 2, 3] ∧
       ((List.range 4).all fun k => (compactAt v s (bufOf (v.w.breg 1)) 0 k k).toOption.isSome) = true) ∧
    (let s := onType 0 0 (.cstore 2 1 1 0) [62, 0, 0, 0]
     let v := view' s
     ((List.range 4).map fun k => (compactAt v s (bufOf (v.w.breg 1)) 62 k k).toOption.isSome) = [true, true, false, false]) ∧
    (let s := mapped (.stRel 2 1 4 0 1) [] 0x20 { warp1 with slices := List.replicate 8 ⟨0, 0, [], [], none, 0⟩ }
     (view' s).act = 0 ∧ AllPerformed s 64 10 ∧ Released (s.releaseCore 0) 64 10 4) :=
  ⟨⟨⟨by decide, by decide⟩, by decide, by decide⟩, by decide, by decide, by unfold AllPerformed Released; decide, by unfold Released; decide⟩
theorem witness_PrefetchesPageRequestsRecords : IssuesMapped (fun _ => { reads := [indexReg 0 1, .b 1], long := true }) (.pref 1 1 0) ∧
    (let v := view' (mapped (.pref 1 1 0))
     (v.reachAll (mapped (.pref 1 1 0)) (bufOf rec4) false false true false false (fun _ _ => true) 0 1).1 = []) ∧
    (let s := at' (.pref 1 1 0) 0x20 warp1
     let r := (view' s).reachAll s (bufOf rec4) false false true false false (fun _ _ => true) 0 1
     r.1 ≠ [] ∧ ∀ x ∈ r.1, 0x12 ≤ x.cause ∧ x.cause ≤ 0x15 ∧ (bufOf rec4).raw = false ∧ isMap x.addr.toNat = false) ∧
    IssuesMapped (fun _ => { reads := [indexReg 0 1, .b 1], long := true }) (.pgreq 1 1 0) ∧
    (let v := view' (mapped (.pgreq 1 1 0))
     (List.range 4).map (fun n => (bufOf rec4).index false 4 (v.indexAt 0 1 n)) = [.at 0x2014, .at 0x2018, .at 0x201C, .at 0x2020] ∧
       (bufOf rec4).raw = false ∧ v.act = 15 ∧ isMap 0x2014 = false) ∧
    Issues (fun v => { reads := [.s 62, .s 63], writes := [.b 15], ok := pair 62 && recordOk (v.w.sreg 63 ++ v.w.sreg 62) }) (.bset 15 62) ∧
    Issues (fun _ => { reads := [.b 1], writes := [.s 0, .s 1], ok := pair 0 }) (.bget 0 1) :=
  ⟨⟨by decide, by decide⟩, by decide, by decide, ⟨by decide, by decide⟩, by decide, ⟨by decide, by decide⟩, by decide, by decide⟩
theorem witness_AtomicsAndCompareSwap :
    IssuesMapped (fun v => { reads := [.v 1, .b 1] ++ laneRegs false 2, writes := laneRegs false 3, long := true, ok := decide (2 ≤ (bufOf (v.w.breg 1)).esz) && pairOk false 3 && pairOk false 2 && atomTypeOk .add v.type (bufOf (v.w.breg 1)).esz })
      (.atomAdd 3 1 2 1) ∧
    (let s := flying (.atomic .add 3 4 [0] [access0 [1, 0, 0, 0]])
     ∃ o, Ready s 9 o ∧ s.writeFree o = true ∧ s.tokensHeld o = true ∧ s.uncorrectable 0x2000 4 = false) :=
  ⟨⟨by decide, by decide⟩, _, ⟨rfl, by decide, by decide, rfl⟩, by decide, by decide, rfl⟩
theorem witness_LoadsAreServed :
    (let s := flying (.load one page0 true [access0] [])
     ∃ o, s.op 9 = some o ∧ offMemory [access0] = false ∧ s.loadFree o = true ∧ o.granted = true ∧ s.leased 0x2000 = false ∧
       s.ordered o = true ∧ s.badLanes (s.coreOf o) true page0 (s.eventOf [access0]) = [] ∧ (Tab.lookup o.src.warp s.warps).isSome = true) ∧
    (let slot : Access := ⟨0, 0x2000, .pa 0x2000, 4160, [], none⟩
     let s := flying (.tile ⟨9, 2, 4, ⟨0, Lanes.zero⟩, [], true⟩ ⟨.haar, 0, 16, 1⟩ false slot 0 [0] [])
     ∃ o, s.op 9 = some o ∧ pickOf s.freeCtr [0] = some 0 ∧ s.loadFree o = true ∧ o.granted = true ∧ s.leased 0x2000 = false ∧
       s.ordered o = true ∧ s.readBad 0 false 0x2000 4 = false ∧ otherParts s o ⟨9, 2, 4, ⟨0, Lanes.zero⟩, [], true⟩ = [] ∧ (0 : Nat) ∈ [0]) ∧
    (let s := flying (.load one page0 true [access0] []) false
     ∃ o, s.op 9 = some o ∧ o.granted = false ∧ o.completed = false ∧ (∀ x ∈ s.ops, x.id < 9 → x.granted = true ∨ x.completed = true) ∧
       (s.missEntries 0).length = 0 ∧ (s.missingOf 0 o).length = 1 ∧ o.kind.buffered = some false) ∧
    (flying (.load one page0 true [access0] [])).prefetchable 0x2000 = true ∧
    (onType 6 7 .nop).prefetchable 0x2000 = false ∧ State.reset.uncorrectable 0x2000 64 = false :=
  ⟨⟨_, rfl, by decide, by decide, rfl, by decide, by decide, by decide, by decide⟩,
    ⟨_, rfl, rfl, by decide, rfl, by decide, by decide, by decide, by decide, by decide⟩,
    ⟨_, rfl, rfl, rfl, by decide, by decide, by decide, by decide⟩, by decide +kernel, by decide +kernel, rfl⟩
theorem witness_LoadsAreServed_map :
    let x : Access := ⟨0, chipAddr 0 0x40, .map (chipAddr 0 0x40), 4, [], none⟩
    let s := reaching (.load one page0 true [x] []) false
    ∃ o c, s.op 9 = some o ∧ s.loadFree o = true ∧ (∀ x ∈ s.earlier o, x.kind.isStore = false) ∧ s.ordered o = true ∧
      s.crewOf o = some c ∧ s.eventOf [x] = [x] ∧ s.mapTarget c false (chipAddr 0 0x40).toNat = .chip (.spad 1 0x40) ∧
      s.chipBad 4 (.spad 1 0x40) = false :=
  ⟨_, _, rfl, by decide, by decide, by decide, rfl, rfl, by decide, by decide⟩
theorem witness_StoresArePerformed :
    (∀ rel ∈ [none, some (0x24 : BitVec 6)],
      let s := mapped .nop [accepted (.store rel Exc.none [access0 [1, 2, 3, 4]])]
      ∃ o, s.op 9 = some o ∧ offMemory [access0 [1, 2, 3, 4]] = false ∧ o.completed = true ∧ s.writeFree o = true ∧
        s.leased 0x2000 = false ∧ s.tokensHeld o = true ∧ (Tab.lookup o.src.warp s.warps).isSome = true ∧ s.tokenNo 0 0x2000 = none ∧
        AllPerformed s 64 9 ∧ Released (s.releaseCore 0) 64 9 0x24) ∧
    (let s := { mapped .nop [accepted (.store none Exc.none [access0 [1, 2, 3, 4]])] with
       ctxs := [(0, { soloCtx with tokens := [⟨0x2000, 12, some 0, [], [], none⟩] })]
       cores := [(0, { (State.reset.core 0) with l1 := [(0x80, ⟨List.replicate 64 0, 0, [], false⟩)] })] }
     ∃ o, s.op 9 = some o ∧ s.tokensHeld o = true ∧ s.writeFree o = true ∧ (s.tokenNo 0 0x2000).isSome = true ∧
       (s.sector 0 0x2000).isSome = true) :=
  ⟨by
    intro rel h
    simp only [List.mem_cons, List.not_mem_nil, or_false] at h
    rcases h with rfl | rfl <;> exact ⟨_, rfl, by decide, rfl, by decide, by decide, by decide, by decide, by decide,
      by unfold AllPerformed Released; decide, by unfold Released; decide⟩,
    _, rfl, by decide, by decide, by decide, by decide⟩
theorem witness_StoresArePerformed_blocks :
    let x : Access := ⟨0, 0x10, .pa 0x10, 4, [1, 2, 3, 4], none⟩
    let s := mapped .nop [accepted (.fp4s ⟨.fp4s, 0, 16, 64 + 2 ^ 16⟩ ⟨0, Lanes.zero⟩ [x])]
    ∃ o, s.op 9 = some o ∧ o.completed = true ∧ s.writeFree o = true ∧ s.leased 0x10 = false ∧ s.tokensHeld o = true ∧ s.fp4sEvent [x] = [x] :=
  ⟨_, rfl, rfl, by decide, by decide, by decide, rfl⟩
theorem witness_StoresArePerformed_map :
    let x : Access := ⟨0, chipAddr 0 0x40, .map (chipAddr 0 0x40), 4, [1, 2, 3, 4], none⟩
    (let s := reaching (.store none Exc.none [x]) false
     ∃ o c, s.op 9 = some o ∧ onMap [x] = true ∧ o.completed = false ∧ (s.ops.map (·.id)).Nodup ∧ s.opsOfStore o onMap = [o] ∧
       s.crewOf o = some c ∧ s.mapTarget c false (chipAddr 0 0x40).toNat = .chip (.spad 1 0x40) ∧ s.chipArmed 4 (.spad 1 0x40) = false) ∧
    (let s := reaching (.store none Exc.none [x])
     ∃ o c, s.op 9 = some o ∧ o.completed = true ∧ s.writeFree o = true ∧ s.crewOf o = some c ∧
       s.mapTarget c true (chipAddr 0 0x40).toNat = .chip (.spad 1 0x40) ∧ (Tab.lookup 1 s.crews).isSome = true) :=
  ⟨⟨_, _, rfl, by decide, rfl, by decide, rfl, rfl, by decide, by decide⟩, _, _, rfl, rfl, by decide, rfl, by decide, by decide⟩
theorem witness_StoresArePerformed_completions :
    (let s := flying (.store none Exc.none [access0 [1, 2, 3, 4]])
     ∃ o, s.op 9 = some o ∧ o.completed = false ∧ o.granted = true ∧ offMemory [access0 [1, 2, 3, 4]] = false ∧ s.tokensHeld o = true ∧
       (Tab.lookup o.src.warp s.warps).isSome = true) ∧
    (flying (.result [.v 3 15 [1, 2, 3, 4]] Exc.NX)).op 9 = some (request (.result [.v 3 15 [1, 2, 3, 4]] Exc.NX)) ∧
    (let s := mapped .nop [request .closeWindow] 0x20 { warp1 with window := true, closing := true }
     s.op 9 = some (request .closeWindow) ∧ s.windowBusy 64 9 = false ∧ ((Tab.lookup 64 s.warps).map (·.closing)) = some true) ∧
    (let s := flying (.pageRequest [[1]])
     s.op 9 = some (request (.pageRequest [[1]])) ∧ s.accepted 0 [[1]] = true ∧
       ({ s with ctxs := [(0, { soloCtx with faultQ := some ⟨0x100000, 64, 0, [[1]]⟩ })] }).accepted 0 [[1]] = false) ∧
    (let s := flying (.prefetch [0x80])
     s.op 9 = some (request (.prefetch [0x80])) ∧ s.fenced (request (.prefetch [0x80])) = false ∧ s.leased 0x2000 = false ∧
       s.uncorrectable 0x2000 64 = false) :=
  ⟨⟨_, rfl, rfl, rfl, by decide, by decide, by decide⟩, rfl, by decide, by decide, by decide⟩
theorem witness_CopiesAndTheirEnds :
    IssuesMapped (fun v => { reads := [.b 1, .b 2, .s 4, .s 5], long := true, ok := 4 % 2 == 0 && bitsOf (v.w.sreg 5).toNat 32 32 == 0 })
      (.cpy 1 2 4) ∧
    (let v := view' (mapped (.cpy 1 2 4))
     (mapped (.cpy 1 2 4)).rangeCauses v ⟨bufOf rec4, 0, 1, 8⟩ true = [] ∧
       (mapped (.cpy 1 2 4)).rangeCauses v ⟨bufOf rec4, 60, 1, 80⟩ false ≠ []) ∧
    (let rows : List CopyRow := [⟨0, 4, .pa 0x2000, .pa 0x3000, 0x2000⟩]
     let s := flying (.copy false false [0] rows)
     ∃ o, s.op 9 = some o ∧ s.fenced o = false ∧ s.copyEnd o false rows = none ∧ InPieces rows ∧
       s.outsideFree 0x2003 (agentOf o.id) = true ∧ s.leased 0x3003 = false) ∧
    (let rows : List CopyRow := [⟨0, 4, .fab 0x800000040, .pa 0x3000, 0x40⟩]
     let s := flying (.copy true false [0] rows)
     ∃ o e, s.op 9 = some o ∧ s.fenced o = false ∧ s.behindNacked o = false ∧ s.copyEnd o false rows = some e ∧ e.pos ≤ 0 ∧ e.cause ≠ causeData ∧ e.cause < 256 ∧ e.origin < 16) :=
  ⟨⟨by decide, by decide⟩, by decide, ⟨_, rfl, by decide, by decide, by unfold InPieces; decide, by decide, by decide⟩,
    _, _, rfl, by decide, by decide, rfl, by decide, by decide, by decide, by decide⟩

/-! ## Witnesses for the statements about the matrix engine, wavelets and sketches -/

/-- The descriptor of one block of fp32 in macro 0. -/
def desc0 : DWord := 0x101800

/-- A state whose crew has that range armed, and operations in the engine. -/
def armed (i : Instr) (engine : List MatOp := []) (w : Warp := warp1) (mode : Word := 0x100) : State :=
  { mapped i [] mode w with crews := [(1, { Crew.blank with spadMacros := 32, macros := [(0, desc0)], engine := engine })] }

/-- The first operation in the engine, on tile 2. -/
def engineOp (kind : MatKind) (quad id : Nat := 0) : MatOp :=
  ⟨id, (view' (armed .nop)).src, 0, quad, 2, kind, false, Exc.none, 0, 0, 0⟩

/-- A tile of zeros. -/
def tile0 : TileCopy := ⟨⟨8, 0, 0⟩, List.replicate 8 Lanes.zero, []⟩

theorem witness_MatrixWordsIssue :
    (let s := armed (.mma 2 1 0)
     Passes s (view' s) { reads := .s 0 :: tileRegs 1, long := true, ok := decide (2 < 8 ∧ 1 < 16) } ∧
     MatrixOperands .plain s (view' s) 2 1 0 desc0) ∧
    (let s := mapped (.arm 3) [] 0x20 { warp1 with s := [(3, desc0)] }
     Passes s (view' s) { reads := [.s 3], long := true } ∧ rangeOk desc0 32 = true ∧ (view' s).crew.rangeAt 0 = none ∧
     s.disarming 1 desc0 = false) ∧
    Issues (fun _ => { reads := [.s 3] }) (.waitb 3) := by
  refine ⟨⟨⟨by decide, by decide⟩, ⟨by decide, by decide, by decide, by decide, ?_, by decide, ?_, ?_, by decide⟩⟩,
    ⟨⟨by decide, by decide⟩, by decide, by decide, by decide⟩, by decide, by decide⟩
  · exact ⟨(fun h => nomatch h), fun _ => by decide⟩
  · exact ⟨fun _ => by decide, (fun h => nomatch h)⟩
  · exact ⟨by decide, fun h => absurd h (by decide)⟩
theorem witness_MatrixWordsIssue_drain :
    let s := armed (.drain 2 1 4)
    let v := view' s
    let f := drainFields v.w 2 4
    Passes s v { reads := (List.range 4).map fun i => .s (4 + i), writes := tileRegs 2, long := true, ok := true } ∧
      v.crew.spadMacros ≠ 0 ∧ f.2.2 = true ∧ v.type = 8 ∧ f.1.row % tileCount 8 = 0 ∧ f.1.row + tileCount 8 ≤ 64 ∧
      (v.crew.accTag (v.w.id % 4) 1).bad = false ∧ (v.crew.accTag (v.w.id % 4) 1).level = 0 ∧ f.1.rcon = false ∧ f.1.gate = 0 ∧
      f.1.drop = false ∧ f.2.1 = none :=
  ⟨⟨by decide, by decide⟩, by decide, by decide, by decide, by decide, by decide, by decide, by decide, by decide, by decide, by decide,
    by decide⟩
theorem witness_MatrixWordsIssue_rows : ∀ store ∈ [false, true],
    let s := armed (if store then .cst 1 3 1 else .cld 1 3 1) [] { warp0 with b := [(1, BitVec.ofNat 128 (0x2000 + 2 * 2 ^ 64 + 128 * 2 ^ 72 + 64 * 2 ^ 96))] }
    let v := view' s
    let buf := bufOf (v.w.breg 1)
    Passes s v { reads := [.s 3, .b 1], long := true, ok := true } ∧ v.crew.spadMacros ≠ 0 ∧ (v.w.sreg 3).toNat = 0 ∧ buf.esz = 2 ∧
      0 + 63 < buf.extent ∧ buf.stride ≠ 0 ∧ buf.stride % 128 = 0 ∧ buf.base % 128 = 0 ∧
      ((List.range 64).all fun r => (s.tileRow v buf store 0 r).toOption.isSome) = true ∧ (v.crew.accTag (v.w.id % 4) 1).bad = false := by
  intro store h
  simp only [List.mem_cons, List.not_mem_nil, or_false] at h
  rcases h with rfl | rfl <;> exact ⟨⟨by decide +kernel, by decide +kernel⟩, by decide +kernel, by decide +kernel, by decide +kernel, by decide +kernel, by decide +kernel, by decide +kernel, by decide +kernel,
    by decide +kernel, by decide +kernel⟩
theorem witness_MatrixWordsIssue_batches :
    (let s := armed (.disarm 3) [] { warp1 with s := [(3, desc0)] }
     Passes s (view' s) { reads := [.s 3], long := true } ∧ (view' s).crew.spadMacros ≠ 0 ∧
       Tab.lookup (rangeOf desc0).mac (view' s).crew.macros = some desc0 ∧ s.disarming 1 desc0 = false ∧
       ∀ m ∈ (view' s).crew.engine, m.kind.range ≠ some desc0) ∧
    (let s := armed (.waitb 3) [] { warp1 with s := [(3, 4)], batch := 5, closedBatches := [4] }
     Passes s (view' s) { reads := [.s 3] } ∧ ((view' s).w.batch - 4).toNat = 1 ∧ (4 : Word) ∈ (view' s).w.closedBatches) ∧
    (let s := armed (.waitb 3) [] { warp1 with s := [(3, 4)], batch := 5 }
     Passes s (view' s) { reads := [.s 3] } ∧ (view' s).w.closedBatches = []) :=
  ⟨⟨⟨by decide +kernel, by decide +kernel⟩, by decide +kernel, by decide +kernel, by decide +kernel, by decide +kernel⟩,
    ⟨⟨by decide +kernel, by decide +kernel⟩, rfl, List.mem_singleton_self _⟩, ⟨by decide +kernel, by decide +kernel⟩, rfl⟩
theorem witness_MatrixEngineWorks :
    (let s := armed .nop [engineOp (.mma desc0 0 0 tile0 0 0)]
     ∃ c m, Next s 1 0 c m ∧ m.kind = .mma desc0 0 0 tile0 0 0 ∧ (c.tile 0 m.tile).bad = false ∧ tile0.tag.level = 0) ∧
    (let s := armed .nop [engineOp .czero]
     ∃ c m, Next s 1 0 c m ∧ m.kind = .czero) ∧
    (∀ agree ∈ [true, false], let k : MatKind := .mmaq desc0 0 0 tile0 [tile0, tile0, tile0, tile0] agree
     ∃ c m, Next (armed .nop [engineOp k]) 1 0 c m ∧ m.kind = k ∧ (c.tile 0 m.tile).bad = false) ∧
    (let k : MatKind := .drain 9 ⟨3, 0, false, 0, false, none, 0, 0, 0, 0, 0, 0, 0⟩ ⟨0, Lanes.zero⟩
     ∃ c m, Next (armed .nop [engineOp k]) 1 0 c m ∧ m.kind = k ∧ (c.tile 0 m.tile).bad = false ∧ modeType m.src.mode = 8) ∧
    (let l := (List.range 4).map fun q => engineOp (.mmaq desc0 0 0 tile0 [] false) q (5 + q)
     ∃ c m0 m1 m2 m3, Tab.lookup 1 (armed .nop l).crews = some c ∧ c.state ≠ .evicted ∧ c.member 0 = some m0 ∧ c.member 1 = some m1 ∧
       c.member 2 = some m2 ∧ c.member 3 = some m3 ∧ ([m0, m1, m2, m3].map fun m => m.1.id).Nodup) ∧
    (let w := { warp1 with closedBatches := [(0 : Word)] }
     let s := armed .nop [{ engineOp (.mma desc0 0 0 tile0 0 0) with done := true }] w
     ∃ u c, Tab.lookup 64 s.warps = some u ∧ u.closedBatches = [0] ∧ Tab.lookup u.crew s.crews = some c ∧ c.state ≠ .evicted ∧
       ∀ m ∈ c.engine, m.src.warp = 64 → m.batch = 0 → m.done = true) :=
  ⟨⟨_, _, ⟨rfl, by decide, by decide, rfl, rfl, _, rfl⟩, rfl, rfl, rfl⟩, ⟨_, _, ⟨rfl, by decide, by decide, rfl, rfl, _, rfl⟩, rfl⟩,
    (by intro agree h
        simp only [List.mem_cons, List.not_mem_nil, or_false] at h
        rcases h with rfl | rfl <;> exact ⟨_, _, ⟨rfl, by decide, by decide, rfl, rfl, _, rfl⟩, rfl, rfl⟩),
    ⟨_, _, ⟨rfl, by decide, by decide, rfl, rfl, _, rfl⟩, rfl, rfl, by decide⟩,
    ⟨_, _, _, _, _, rfl, by decide, rfl, rfl, rfl, rfl, by decide⟩, _, _, rfl, rfl, rfl, by decide, by decide⟩

/-- One element of row 0 of a tile, at 0x2000. -/
def row0 (left : LaneMask := 1) : TileRow := ⟨⟨0, 0x2000, .pa 0x2000, 128, [], none⟩, left⟩

theorem witness_MatrixEngineWorks_elements :
    (let s := armed .nop [engineOp (.cld 0 false [row0] [])]
     ∃ c m, Next s 1 0 c m ∧ m.kind = .cld 0 false [row0] [] ∧ s.nextElem [row0] = some (0, 0) ∧ ([row0].map (·.acc))[0]? = some (row0).acc ∧
       s.uncorrectable 0x2000 4 = false) ∧
    (let s := armed .nop [engineOp (.cld 0 false [row0 0] [(0, 7)])]
     ∃ c m, Next s 1 0 c m ∧ m.kind = .cld 0 false [row0 0] [(0, 7)] ∧ s.nextElem [row0 0] = none ∧ ([((0 : Nat), (7 : Word))].map (·.1)).Nodup) ∧
    (let s := armed .nop [engineOp (.cst [row0])]
     ∃ c m, Next s 1 0 c m ∧ m.kind = .cst [row0] ∧ (c.tile 0 m.tile).bad = false ∧ s.cstFaults c [row0] = [] ∧
       s.nextElem [row0] = some (0, 0) ∧ s.tokenNo m.src.ctx 0x2000 = none) ∧
    (let s := armed .nop [engineOp (.cst [row0 0])]
     ∃ c m, Next s 1 0 c m ∧ m.kind = .cst [row0 0] ∧ (c.tile 0 m.tile).bad = false ∧ s.nextElem [row0 0] = none) :=
  ⟨⟨_, _, ⟨rfl, by decide, by decide, rfl, rfl, _, rfl⟩, rfl, rfl, rfl, by decide⟩,
    ⟨_, _, ⟨rfl, by decide, by decide, rfl, rfl, _, rfl⟩, rfl, rfl, by decide⟩,
    ⟨_, _, ⟨rfl, by decide, by decide, rfl, rfl, _, rfl⟩, rfl, rfl, by decide, rfl, by decide⟩,
    _, _, ⟨rfl, by decide, by decide, rfl, rfl, _, rfl⟩, rfl, rfl, rfl⟩
theorem witness_MatrixEngineWorks_governor :
    (let g := Tab.get Governor.reset (State.reset.core 0).gov 3
     g.passes < 2 ^ 20) ∧
    (∀ n ∈ [5, 10, 104, 105], let s := { State.reset with cores := [(0, { (State.reset.core 0) with gov := [(3, ⟨2 ^ 20, n, 0, 0, 1800⟩)] })] }
     2 ^ 20 ≤ (Tab.get Governor.reset (s.core 0).gov 3).passes ∧ s.windowOver 0 3 = true) ∧
    (let s := { armed .nop with crews := [(1, { Crew.blank with spadMacros := 32, macros := [(0, desc0)], arming := [0] })] }
     ∃ c, Tab.lookup 1 s.crews = some c ∧ (c.arming.find? fun m => m / 8 == 0 / 8) = some 0 ∧ s.spadBusy 1 0 = false) :=
  ⟨by decide, by decide, _, rfl, by decide, by decide⟩
theorem witness_WaveletWords : Issues (fun v => { reads := tileRegs 1, writes := tileRegs 2, long := true, ok := decide (2 < 16 ∧ 1 < 16 ∧ 1 ≤ 5 ∧ 5 ≤ 5) && (v.w.tag 1).level == 0 && waveType (v.w.tag 1).fmt && waveType v.type })
      (.wfwd 2 1 5) 0x100 ∧
    Issues (fun v => { reads := tileRegs 1, writes := tileRegs 2, long := true, ok := decide (2 < 16 ∧ 1 < 16) && (v.w.tag 1).level != 0 })
      (.winv 2 1) 0x100 { warp0 with tags := [(1, ⟨8, 1, 0xFFFFFFFF⟩)] } ∧
    Issues (fun _ => { ok := decide (3 < 4) }) (.wthr 3) ∧
    Issues (fun _ => { reads := tileRegs 15, writes := [.s 3], ok := decide (15 < 16) }) (.wtag 3 15) :=
  ⟨⟨by decide, by decide⟩, ⟨by decide, by decide⟩, ⟨by decide, by decide⟩, by decide, by decide⟩

/-- The header word d0 of an object: a filter of two hashes and 8 bits, a frequency sketch of one row of 2 counters, a distinct counter
of 16 registers, and a quantile summary of one bucket a side. -/
def header0 (kind : Nat) : Nat :=
  [0, 1 + 2 * 2 ^ 16 + 8 * 2 ^ 32, 2 + 2 ^ 16 + 2 * 2 ^ 32, 3 + 2 ^ 16 + 16 * 2 ^ 32, 4 + 2 ^ 48].getD kind 0

/-- A page of objects of 128 bytes. -/
def sketchPage : Page := ⟨.sketch, 0, 16, 7⟩

/-- A state with an object at 0x2000, and a request of its warp. -/
def sketching (kind : Nat) (k : OpKind) : State :=
  { flying k with mem := putBytes [] 0x2000 (leBytes (header0 kind) 8) }

theorem witness_SketchWordsIssue :
    IssuesMapped (fun _ => { reads := [.s 1, .b 1] ++ (List.range 6).map fun i => .s (58 + i), long := true, ok := decide (58 ≤ 58) }) (.skinit 58 1 1) ∧
    Issues (fun _ => { writes := [.s 3], ok := decide (3 < 4) }) (.skstat 3 3) ∧
    IssuesMapped (shapeStore 2 1 1 0 true) (.skdel 2 1 1 0) :=
  ⟨⟨by decide, by decide⟩, ⟨by decide, by decide⟩, by decide, by decide⟩
theorem witness_SketchInsertsAndDeletes : ∀ kind ∈ [1, 2, 3, 4], ∀ step ∈ [0, 5],
    let k : OpKind := .insert false 2 step [(access0 [7, 0, 0, 0], sketchPage)]
    ∃ o x, Assayed (sketching kind k) 9 o (o.headOnly (access0 [7, 0, 0, 0]) sketchPage) (access0 [7, 0, 0, 0]) sketchPage x
      (x.touches 2 (access0 [7, 0, 0, 0])) ∧ x.held = kind ∧ x.reports = false ∧ o.kind = k ∧ x.k ≤ 5 := by
  intro kind h step g
  simp only [List.mem_cons, List.not_mem_nil, or_false] at h g
  rcases h with rfl | rfl | rfl | rfl <;> rcases g with rfl | rfl <;>
    exact ⟨_, _, ⟨rfl, rfl, ⟨by decide, by decide, by decide, by decide⟩, by decide, by decide⟩, by decide, by decide, rfl, by decide⟩
theorem witness_SketchQueriesMergesFolds :
    (∀ kind ∈ [1, 2, 3, 4], ∀ step ∈ [0, 5],
     let s := sketching kind (.query 3 2 step 0 [(access0 [7, 0, 0, 0], sketchPage)] [] [])
     ∃ o x, s.op 9 = some o ∧ s.objectOf (access0 [7, 0, 0, 0]) sketchPage = some x ∧ s.queryFree o = true ∧
       s.objectBad x (x.asks (access0 [7, 0, 0, 0])) = false ∧ x.held = kind ∧ (Tab.lookup o.src.warp s.warps).isSome = true ∧ x.k ≤ 5) ∧
    (let k : OpKind := .skfold (access0 []) sketchPage
     ∃ o x h, Assayed (sketching 2 k) 9 o o (access0 []) sketchPage x (List.range x.count) ∧ (sketching 2 k).midStep x.pa = false ∧
       x.foldHeader = some h ∧ x.reports = false) ∧
    (let k : OpKind := .skfold (access0 []) sketchPage
     ∃ o x, Assayed (sketching 4 k) 9 o o (access0 []) sketchPage x (List.range x.count) ∧ (sketching 4 k).midStep x.pa = false ∧
       x.foldHeader = none) :=
  ⟨by
    intro kind h step g
    simp only [List.mem_cons, List.not_mem_nil, or_false] at h g
    rcases h with rfl | rfl | rfl | rfl <;> rcases g with rfl | rfl <;>
      exact ⟨_, _, rfl, rfl, by decide, by decide, by decide, by decide, by decide⟩,
    ⟨_, _, _, ⟨rfl, rfl, ⟨by decide, by decide, by decide, by decide⟩, by decide, by decide⟩, by decide, rfl, by decide⟩,
    _, _, ⟨rfl, rfl, ⟨by decide, by decide, by decide, by decide⟩, by decide, by decide⟩, by decide, rfl⟩
theorem witness_SketchQueriesMergesFolds_two :
    (let a : Access := ⟨0, 0x2000, .pa 0x2000, 128, [], none⟩
     let s := flying (.skinit a sketchPage [1, 2, 3, 4, 5, 6])
     ∃ o x, s.op 9 = some o ∧ s.objectOf a sketchPage = some x ∧ s.writeFree o = true ∧ s.stalled o = false ∧ s.tokensHeld o = true ∧
       s.midStep x.pa = false ∧ 6 ≤ x.osz) ∧
    (∀ kind ∈ [2, 3], let a : Access := ⟨0, 0x2000, .pa 0x2000, 128, [], none⟩
     let b : Access := ⟨0, 0x2080, .pa 0x2080, 128, [], none⟩
     let k : OpKind := .skmerge a b sketchPage sketchPage
     let s := { sketching 2 k with mem := putBytes (sketching 2 k).mem 0x2080 (leBytes (header0 kind) 8) }
     ∃ o x y, Assayed s 9 o o a sketchPage x (List.range x.count) ∧ s.objectOf b sketchPage = some y ∧ s.midStep x.pa = false ∧
       s.objectBad y (List.range y.count) = false ∧ y.held ≠ 0 ∧ x.sameAs y = (kind == 2)) :=
  ⟨⟨_, _, rfl, rfl, by decide, by decide, by decide, by decide, by decide⟩, by
    intro kind h
    simp only [List.mem_cons, List.not_mem_nil, or_false] at h
    rcases h with rfl | rfl <;>
      exact ⟨_, _, _, ⟨rfl, rfl, ⟨by decide, by decide, by decide, by decide⟩, by decide, by decide⟩, rfl, by decide, by decide, by decide,
        by decide⟩⟩

/-! ## Witnesses for the statements about the fabric, stope kernels, launches and the system -/

/-- A state about to issue a word, with page tables in memory, requests in flight, and a group whose members are ranks 0 and 1. -/
def paged (i : Instr) (ops : List Op := []) (w : Warp := warp1) (mode : Word := 0x20) : State :=
  { mapped i ops mode w with
    mem := (soloBytes [0xFE000001, 0x06000000]).foldl (fun m e => putBytes m e.1 e.2) []
    launches := [(0, ⟨0, 0x140000, soloRecord, [], [], 2, 0, some 0, [(0, 0)]⟩)]
    fabric := { State.reset.fabric with groups := [(1, ⟨true, 0, 5, 0, 3⟩)] } }

/-- A collective of two int32 elements in group 1, for step 0. -/
def coll0 (requested : Bool) : Collective := ⟨0x2001, 0, 0, 1, 0, [5, 7], 2, ⟨0, 0x2000, .pa 0x2000, 16, [], none⟩, false, requested⟩

/-- A request for that step. -/
def ask0 (rank : Nat) (gen : Nat := 5) : CollRequest := ⟨rank, 0, 0, 0, 1, 2, 1, gen, 0, [[5, 7]], [false], []⟩

/-- That request's step at the root. -/
def step0 (st : StepState) (l : List CollRequest) : CollStep := ⟨0, st, 5, [0, 1], l⟩

/-- A state with the collective in flight and steps at the root. -/
def joined (requested : Bool) (steps : List CollStep) : State :=
  { paged .nop [request (.coll (coll0 requested))] with
    fabric := { State.reset.fabric with groups := [(1, ⟨true, 0, 5, 0, 3⟩)], roots := [(1, ⟨0, steps, []⟩)] } }

theorem witness_ClauseHeadersStartClauses :
    (let s := { paged .nop with warps := [(64, { warp1 with frags := [Frag.start 1 0x1000 0x20] })] }
     ∃ w f words, Opens s 64 0 w f ⟨0, 0, 15, 1, false, false⟩ words ∧ f.clause = none) ∧
    (let s := { at' .nop with warps := [(64, { (stacked []) with
       slices := ⟨15, 0, [], [], none, 4⟩ :: List.replicate 7 (sliceOf 0), frags := [Frag.start 1 0x1000 0x20] })] }
     ∃ w f, HasFrag s 64 0 w f ∧ f.clause = none ∧ f.atBoundary = true ∧ f.mask.getLsbD 0 = true ∧ (w.slice 0).flags &&& 4 ≠ 0) ∧
    ∃ w f c, HasFrag (at' .nop) 64 0 w f ∧ f.clause = some c :=
  ⟨⟨_, _, _, ⟨⟨rfl, rfl⟩, by decide, by decide, by decide, rfl, by decide, by decide⟩, rfl⟩,
    ⟨_, _, ⟨rfl, rfl⟩, rfl, by decide, by decide, by decide⟩, _, _, _, ⟨rfl, rfl⟩, rfl⟩

/-- A state in which the quadrant of a warp chooses the fragment of it, between clauses, for the clause at 0x1000. -/
def choosing : State :=
  { paged .nop with
    cur := none
    cores := [(0, { (State.reset.core 0) with credit := [(0, 64)] })]
    warps := [(64, { warp1 with tmrthr := 0, frags := [Frag.start 1 0x1000 0x20] })] }

theorem witness_ClauseHeadersStartClauses_choice :
    (∃ w f words, Opens choosing 64 0 w f (headerOf 0xFE000001) words ∧ Tab.lookup w.crew choosing.crews = some { Crew.blank with spadMacros := 32 } ∧
      f.pc = 0x1000) ∧
    choosing.quadBusy 0 0 64 0 = false ∧ choosing.choose 0 0 = some (choosing, ⟨64, 0, 0, 0, 0, 0, false⟩) ∧
    (choosing.fetchWord 0 0 0x1000).toOption = some 0xFE000001 ∧ majorOf 0xFE000001 = 0x7F :=
  ⟨⟨_, _, _, ⟨⟨rfl, rfl⟩, by decide, by decide, by decide, rfl, by decide, by decide⟩, rfl, rfl⟩, by decide, by decide +kernel,
    by decide +kernel, by decide⟩
theorem witness_TrapsAreTakenAndLeft_lowest :
    let s := { paged .nop with
      cur := none
      warps := [(64, { (stacked []) with frags := [Frag.start 1 0x1000 0x20, Frag.start 2 0x1000 0x20] })] }
    ∃ w f g, HasFrag s 64 1 w f ∧ f.atBoundary = true ∧ w.tmrthr ≠ 0 ∧ w.tmrthr.toNat ≤ w.wtimer.toNat ∧ g ∈ w.frags ∧
      g.atBoundary = true ∧ fragNo g.mask < fragNo f.mask :=
  ⟨_, _, Frag.start 1 0x1000 0x20, ⟨rfl, rfl⟩, by decide, by decide, by decide, List.mem_cons_self, by decide, by decide⟩
theorem witness_TrapsAreTakenAndLeft_vector :
    let s := { paged .nop with
      cur := none
      warps := [(64, { (stacked []) with
        tvec := 0x1004, tmrthr := 0, frags := [{ Frag.start 1 0x1000 0x20 with raised := [⟨0x22, 5, 15, false⟩] }] })] }
    ∃ w f, HasFrag s 64 0 w f ∧ f.atBoundary = true ∧ (w.raiseTimer f).1.tvec ≠ 0 ∧
      s.badHeader (s.ctxOfCrew w.crew) (((Tab.lookup w.crew s.crews).map (·.core)).getD 0) (w.raiseTimer f).1.tvec = true :=
  ⟨_, _, ⟨rfl, rfl⟩, by decide, by decide, by decide +kernel⟩
theorem witness_FragmentAndWarpEvents_record :
    let q : RecordQueue := ⟨0x100000, 64, 0, [[field 24 1, 7]]⟩
    let s := { paged .nop with ctxs := [(0, { soloCtx with faultQ := some q })] }
    Tab.lookup 0 s.ctxs = some { soloCtx with faultQ := some q } ∧ q.held = [field 24 1, 7] :: [] ∧
      (s.walkCtx 0 (0x100000 + 4 * 2 * (0 % 64))).map (·.pa) = some 0x100000 ∧ (s.word 0x100000).getLsbD 23 = false := by decide +kernel
theorem witness_FabricWordsIssue :
    (let s := paged (.mcst 2 4 9) [] { warp1 with s := [(4, 0x1041)] }
     Passes s (view' s) { reads := [.v 2, .v 3, .s 4], long := true, ok := bitsOf ((view' s).w.sreg 4).toNat 46 18 == 0 } ∧
     counter (view' s).w 4 < 65535) ∧
    (let s := paged (.grpchg 9 8)
     Passes s (view' s) { reads := [.s 8], writes := [.s 9], long := true, ok := bitsOf ((view' s).w.sreg 8).toNat 29 35 == 0 && decide (bitsOf ((view' s).w.sreg 8).toNat 27 2 < 2) }) :=
  ⟨⟨⟨by decide, by decide⟩, by decide⟩, by decide, by decide⟩
theorem witness_CollectiveSteps_request :
    let s := joined false []
    let c : Crew := { Crew.blank with spadMacros := 32 }
    s.asker 1 (ask0 0) = some (1, c) ∧ s.crewIssued 1 (s.crewColls 1 1 0) = true ∧ s.cage.getD (dieOf c.core) 0 ≠ 0 ∧
      s.isParked c.ctx 0 = false ∧ s.isMember c.ctx 1 0 = true ∧ (s.root 1).next ≤ 0 ∧ Tab.get 0 (s.root 1).joined 0 ≤ 0 ∧
      Tab.lookup c.launch s.launches = some ⟨0, 0x140000, soloRecord, [], [], 2, 0, some 0, [(0, 0)]⟩ ∧
      (∀ e ∈ s.crewColls 1 1 0, s.fenced e.2.1 = false) ∧ ((s.crewColls 1 1 0).map (·.1)).Nodup := by decide +kernel
theorem witness_CollectiveSteps_removed :
    let s := { joined false [] with fabric := { State.reset.fabric with groups := [(1, ⟨true, 1, 5, 0, 1⟩)] } }
    let c : Crew := { Crew.blank with spadMacros := 32 }
    let e := (0, request (.coll (coll0 false)), coll0 false)
    s.asker 1 (ask0 0) = some (1, c) ∧ s.isMember c.ctx 1 0 = false ∧ s.isParked c.ctx 0 = false ∧ s.crewColls 1 1 0 = [e] ∧
      s.collsTurn [e] = true ∧ s.cageFree e.2.1 e.2.2.bar = true := by decide +kernel
theorem witness_CollectiveSteps_remote :
    let s := joined true []
    s.asker 1 (ask0 1) = none ∧ (1 : Nat) ≠ s.rankOf (s.group 1).ctx ∧ s.isMember (s.group 1).ctx 1 1 = true ∧ (5 : Nat) = (s.group 1).gen ∧
      (s.root 1).next ≤ 0 ∧ s.isParked (s.group 1).ctx 1 = false := by decide +kernel
theorem witness_CollectiveSteps_grant :
    let x := step0 .opened [ask0 0, ask0 1]
    let s := joined true [x]
    stepAt s 1 (s.root 1).next = some x ∧ (s.group 1).valid = true ∧ x.state = .opened ∧ groupMembers (s.group 1) ≠ [] ∧
      ∀ m ∈ groupMembers (s.group 1), s.hasAsked (s.group 1).ctx 1 m x = true := by decide +kernel
theorem witness_CollectiveSteps_late :
    let x := step0 .opened [ask0 0]
    let s := joined true [x]
    stepAt s 1 (s.root 1).next = some x ∧ 1 ∈ groupMembers (s.group 1) ∧ s.hasAsked (s.group 1).ctx 1 1 x = false ∧
      s.isParked (s.group 1).ctx 1 = false := by decide +kernel
theorem witness_CollectiveSteps_result : ∀ st ∈ [StepState.moving, .failed],
    let s := joined true [step0 st [ask0 0, ask0 1]]
    let e := (0, request (.coll (coll0 true)), coll0 true)
    s.stepDue 1 = some (step0 st [ask0 0, ask0 1]) ∧ s.takers 1 0 = [[e]] ∧ s.cageFree e.2.1 e.2.2.bar = true ∧
      (Tab.lookup e.2.1.src.warp s.warps).isSome = true ∧ s.barAt e.2.1 e.2.2.bar = some 0x2000 := by decide +kernel
theorem witness_CollectiveSteps_changes :
    (let o := request (.grpchg 3 1 7 false)
     let s := paged .nop [o]
     s.op 9 = some o ∧ s.fenced o = false ∧ (Tab.lookup o.src.warp s.warps).isSome = true ∧ 7 ∉ groupMembers (s.group 1)) ∧
    (let s := paged .nop
     let e : GroupSetting := ⟨true, 512, 9, 0, 1⟩
     e.base % 512 = 0 ∧ e.base < 32768 ∧ e.gen < 65536 ∧ e.ctx < 65536 ∧ (s.group 2).valid = false ∧ (s.group 1).valid = true ∧
       (s.group 1).ctx = 0) := by decide +kernel
theorem witness_CollectiveSteps_data : (∀ r ∈ [ask0 0, ask0 1], r.operation = 0 ∧ r.type = (coll0 true).type ∧ r.data.getD 0 [] = [5, 7]) ∧
    collCount (coll0 true).desc = 2 := by decide

/-- A multicast to ranks 0 and 1. -/
def cast0 (replies : List (Nat × Nat)) (combined : Option DWord := none) : Multicast :=
  ⟨9, 1, 1, 0x20, List.replicate 256 7, true, 5, [0, 1], true, replies, combined⟩

/-- A state with requests in flight, where window 1 of the context lets 64 KiB at 0x20000 be written and read. -/
def windowed (k : OpKind) : State :=
  { paged .nop [request k] with ctxs := [(0, { soloCtx with windows := [(1, ⟨0x20000, 16, true, true, false⟩)] })] }

/-- The refusal in an answer of a member, or none. -/
def refusal (x : Except Nat Nat) : Option Nat :=
  match x with
  | .error c => some c
  | .ok _ => none

/-- The access of lane 0 to offset 0x40 of window 1 of this module. -/
def fab0 (data : List (BitVec 8) := []) : Access := ⟨0, 0x800000040, .fab 0x800000040, 4, data, none⟩

theorem witness_MulticastsAndFabricTargets_members :
    let s := windowed (.mcst (cast0 []))
    (cast0 []).awaits 0 = true ∧ s.routeOf 0 0 9 = some s.fabric.me ∧ s.routeOf 0 1 9 = none ∧
    (s.memberLine 0 1 0x20).toOption = some 0x22000 ∧ refusal (s.memberLine 0 2 0x20) = some 1 ∧
    s.outsideFree 0x22000 (agentOf 9) = true ∧ s.outsideFree 0x22000 = true ∧ s.fenced (request (.mcst (cast0 []))) = false ∧
    s.behindNacked (request (.mcst (cast0 []))) = false ∧ s.behindNackedTo (request (.mcst (cast0 []))) 0 = false := by
  decide +kernel
theorem witness_MulticastsAndFabricTargets_combined :
    let m := cast0 [(0, 0), (1, 1)] (some 7)
    let s := windowed (.mcst m)
    (∀ r ∈ m.members, ∃ q ∈ m.replies, q.1 = r) ∧ (∃ r ∈ (cast0 [(0, 0)]).members, ∀ q ∈ (cast0 [(0, 0)]).replies, q.1 ≠ r) ∧
    s.oldest (request (.mcst m)) = true ∧ (s.walkCtx 0 0x120000).map (·.pa) = some 0x120000 ∧ (s.word 0x120000).getLsbD 23 = false := by
  decide +kernel
theorem witness_MulticastsAndFabricTargets_lanes :
    (let k : OpKind := .load one page0 false [fab0] []
     let s := windowed k
     let o := request k
     onFabric [fab0] = true ∧ s.loadFree o = true ∧ (∀ x ∈ s.earlier o, x.kind.isStore = false) ∧ s.ordered o = true ∧ s.behindNacked o = false ∧
       s.eventOf [fab0] = [fab0] ∧ s.remote 0 9 (fab0).addr = false ∧ s.wordLeft one = [fab0] ∧
       ((s.fabLane o false true false (refuseLoad 1 3 4) (fab0)).toOption.map fun e => (e.1, e.2.1, e.2.2.type)) = some (0x20040, 0x20040, .plain) ∧
       s.leased 0x20040 = false) ∧
    (let s := { windowed (.load one page0 false [fab0] []) with ctxs := [(0, soloCtx)] }
     (s.fabLane (request (.load one page0 false [fab0] [])) false true false (refuseLoad 1 3 4) (fab0)).toOption = none) ∧
    (let x := fab0 [1, 2, 3, 4, 0, 0, 0, 0, 0, 0, 0, 0, 0, 0, 0, 0, 3, 0]
     let o := request (.store none Exc.none [x])
     let s := windowed o.kind
     x.fabData.isSome = true ∧ s.opsOfStore o onFabric = [o] ∧ s.behindNacked o = false ∧ s.remote 0 9 x.addr = false ∧
       ((s.fabLane o false false true (refuseStore o.src.mode 4 x.fabData) x).toOption.map fun e => e.2.2.type) = some .plain) ∧
    (let o := accepted (.store none Exc.none [fab0 [1, 2, 3, 4]])
     let s := { windowed o.kind with ops := [o] }
     s.op 9 = some o ∧ s.writeFree o = true ∧ s.remote 0 9 (fab0).addr = false ∧ s.acceptedAt 0 (fab0).addr = some 0x20040 ∧
       s.outsideFree 0x20040 (agentOf o.id) = true) ∧
    (let o := request (.atomic .add 3 4 [0] [fab0 [1, 0, 0, 0]])
     let s := windowed o.kind
     s.op 9 = some o ∧ s.writeFree o = true ∧ s.behindNacked o = false ∧
       ((s.fabLane o false true true refusePlain (fab0)).toOption.map fun e => e.2.1) = some 0x20040) := by
  decide +kernel
theorem witness_MulticastsAndFabricTargets_peers :
    let s := windowed (.prefetch [])
    ((s.fabPage 0 1 0x40 4 false true).toOption.map fun e => (e.1, e.2.pa, e.2.leaf.typeCode)) = some (0x20040, 0x20040, 0) ∧
    ((s.fabPage 0 1 0x40 4 true false).toOption.map fun e => e.2.pa) = some 0x20040 ∧
    ((s.fabPage 0 1 0x40 4 true true).toOption.map fun e => e.2.pa) = some 0x20040 ∧
    (s.fabPage 0 2 0x40 4 false true).toOption = none ∧ s.outsideFree 0x20040 = true ∧ s.leased 0x20040 = false ∧
    s.uncorrectable 0x20040 4 = false ∧ (s.memberLine 0 1 0x20).toOption = some 0x22000 := by decide +kernel
theorem witness_WindowsLinksAndHosts :
    let w : Window := ⟨0x20000, 16, true, true, false⟩
    let e : Remap := ⟨0, 3, 0, 0, true⟩
    let f : Remap := ⟨0, 4, 1, 5, false⟩
    let g : Remap := ⟨0, 0, 0, 0, true⟩
    let c : Context := { soloCtx with windows := [(1, w)], remap := [(1, [e, f]), (2, [e]), (0, [g, f])] }
    let s : State := { State.reset with ctxs := [(0, c)] }
    let t : State := { s with crews := [(1, Crew.blank)] }
    Tab.lookup 0 s.ctxs = some c ∧ Tab.lookup 1 c.windows = some w ∧ (Tab.get [] c.remap 2).length < 2 ∧
      Tab.get [] c.remap 1 = [e, f] ∧ (e.field, e.module) ≠ s.fabric.me ∧ f.drained = false ∧ s.outstanding 0 1 5 = false ∧
      (g.field, g.module) = s.fabric.me ∧ (0 : Nat) = c.rank ∧ t.rankLeft 0 = false ∧ s.rankLeft 0 = true ∧
      s.outsideFree 0x10FC = true ∧ 0x10FC / 256 = (0x10FC + 4 - 1) / 256 := by decide
theorem witness_StopeWordsIssue :
    (let s := paged (.stopeRun 8) [] { warp1 with s := [(8, 0x20000), (9, 0x100000000), (10, 0x10)] }
     Passes s (view' s) { reads := [.s 8, .s 9, .s 10, .s 11], long := true, ok := true } ∧
       ((view' s).w.sreg 8).toNat % 256 = 0 ∧ bitsOf ((view' s).w.sreg 9).toNat 32 32 ≠ 0 ∧ bitsOf ((view' s).w.sreg 9).toNat 0 12 = 0 ∧
       (view' s).w.sreg 10 ≠ 0 ∧ (s.regionPages (view' s) true 2 0x20000 0x1000).2 = [] ∧ counter (view' s).w 3 < 65535 ∧
       ({ s with channels := [(0, { Channel.free with owner := some 0 })] }).ownsChannel 0 0 = true ∧ s.ownsChannel 0 0 = false) ∧
    (let s := paged (.stopeWait 12 5)
     Passes s (view' s) { reads := [.s 5], writes := [.s 12], ok := decide (((view' s).w.sreg 5).toNat < 256) }) := by
  refine ⟨⟨⟨?_, ?_⟩, ?_⟩, ?_, ?_⟩ <;> decide +kernel

/-- A run on bank 0 of channel 0 over 4 KiB. -/
def run0 : StopeRun := ⟨0, 1, 0, 0x20000, 16, 5, [(0x20000, 0x20000, 4096)]⟩

/-- A unit of it. -/
def unit0 (ended exited : Bool := false) (bad : Option (Nat × Nat × Addr × Nat) := none) : StopeUnit :=
  ⟨{ warp0 with frags := [{ Frag.start 3 0 0x20 with state := if exited then .done else .ready }], slices := [⟨15, if exited then 15 else 0, [], [], none, 0⟩, ⟨15, if exited then 15 else 0, [], [], none, 0⟩] }, ended, bad⟩

/-- A state with such a run, started. -/
def running (u : StopeUnit) : State := paged .nop [request (.stopeRun run0 true [(0, u)])]

theorem witness_StopeUnitsWork_load :
    (let o := request (.stopeLoad 0 4 0x3000 [0x3000, 0x3004])
     let s := paged .nop [o]
     s.op 9 = some o ∧ s.oldest o = true ∧ s.fenced o = false ∧ (∀ x ∈ s.ops, x = o ∨ x.kind.stopeAt = none) ∧ (∀ p ∈ [0x3000, 0x3004], s.leased p = false ∧ s.uncorrectable p 4 = false)) := by decide +kernel
theorem witness_StopeUnitsWork_start :
    (let o := request (.stopeRun run0 false [])
     let s := paged .nop [o]
     s.op 9 = some o ∧ s.writesLeft o = false ∧ s.runBlocked o run0 = false ∧ s.fenced o = false ∧ run0.banks.getLsbD 0 = true ∧ run0.banks.getLsbD 1 = false) := by decide +kernel
theorem witness_StopeUnitsWork_unit :
    (let u := unit0
     let o := request (.stopeRun run0 true [(0, u)])
     (running u).unitAt 0 0 = some (o, run0, [(0, u)], u) ∧ u.bad = none ∧ u.exited = false ∧ (running u).op o.id = some o ∧
       (Tab.get 0 (Tab.get Channel.free (running u).channels 0).store 0).extractLsb' 25 7 ≠ 0x7F) := by decide +kernel
theorem witness_StopeUnitsWork_exited : (running (unit0 false true)).unitAt 0 0 =
    some (request (.stopeRun run0 true [(0, unit0 false true)]), run0, [(0, unit0 false true)], unit0 false true) ∧
    (unit0 false true).exited = true := by decide +kernel
theorem witness_StopeUnitsWork_bad : ((running (unit0 false false (some (1, 0, 0, 15)))).unitAt 0 0).map (·.2.2.2.bad) =
    some (some (1, 0, 0, 15)) := by decide +kernel
theorem witness_StopeUnitsWork_ends :
    (let o := request (.stopeRun run0 true [(0, unit0 true)])
     (running (unit0 true)).op 9 = some o ∧ (running (unit0 true)).oldest o = true) ∧
    (∃ p ∈ run0.pages, p.1 / 65536 ≤ 2 ∧ 2 ≤ (p.1 + p.2.2 - 1) / 65536) ∧ run0.chan < 256 ∧
    (let o := request (.gred 0 3 1 0xF [access0] [])
     let s := paged .nop [o]
     s.op 9 = some o ∧ s.leased 0x2000 = false ∧ s.unitAt (bankKey 0x2000 / 32) (bankKey 0x2000 % 32) = none ∧ s.uncorrectable 0x2000 4 = false) ∧
    (let o := request (.gred 0 3 1 0xF [] [(32 * bankKey 0x2000, 5)])
     let s := paged .nop [o]
     s.op 9 = some o ∧ s.oldest o = true ∧ modeType o.src.mode = 1 ∧ ∀ e ∈ [(32 * bankKey 0x2000, 5)], e.1 / 32 = bankKey 0x2000) := by
  decide +kernel

/-- A launch of one group of `n + 1` crews with neither uniform registers nor records, its record at 0x140000. -/
def launch0 (status : Nat) (n : Nat := 0) (dep done : Nat := 0) : Launch :=
  ⟨0, 0x140000, [0x00020000, field 26 1 ||| field 21 31 ||| field 17 14 ||| field 11 32 ||| field 6 n, 0, 0, 0x1000, 0, 0, 0, 0, 0, BitVec.ofNat 32 dep, 0, 0, 0, BitVec.ofNat 32 done, 0], [], [], status, 0, none, []⟩

/-- A state in which it waits in queue 3. -/
def queued (l : Launch) : State :=
  { paged .nop with
    ctxs := [(0, { soloCtx with drifts := [0] })]
    launches := [(0, { launch0 2 with drift := [(0, 0)] }), (5, l)]
    queues := [(3, ⟨some 0, 1, true, [5]⟩)] }

theorem witness_LaunchesAndSettings_record :
    let s := { paged (.launch 9 4 2) with mem := putBytes (paged .nop).mem 0x2000 (wordsBytes (launch0 0).words) }
    Passes s (view' s) { reads := [.s 4, .b 2], writes := [.s 9], long := true } ∧ AllPerformed s 64 10 ∧
    Released (s.releaseCore 0) 64 10 0x3F ∧ (Tab.lookup 0 s.ctxs).map (·.state) = some .running ∧
    (s.plainSpan 0 true 1 0x2000 64 = some [(0x2000, 0x2000, 64)]) ∧ s.recordWords 0x2000 = (launch0 0).words ∧
    (launchOf 0 0x2000 (s.recordWords 0x2000) [] []).nureg = 0 ∧ (launchOf 0 0x2000 (s.recordWords 0x2000) [] []).nbrec = 0 ∧
    s.uncorrectable 0x2000 64 = false ∧ s.outsideFree 0x2000 = true :=
  ⟨⟨by decide +kernel, by decide +kernel⟩, by unfold AllPerformed Released; decide +kernel, by unfold Released; decide +kernel,
    by decide +kernel, by decide +kernel, by decide +kernel, by decide +kernel, by decide +kernel, rfl, by decide +kernel⟩
theorem witness_LaunchesAndSettings_queue :
    (let l := launch0 1
     let s := queued l
     let q := Tab.get LaunchQueue.free s.queues 3
     q.waiting = [5] ∧ q.enabled = true ∧ q.cls < s.placement.length ∧ Tab.lookup 5 s.launches = some l ∧ l.dep = 0 ∧
       s.groupInUse l = false ∧ ((Tab.lookup l.ctx s.ctxs).map fun c => (c.queuesSet, c.state)) = some (true, .running)) ∧
    (let l := launch0 1 0 0x2000
     let s := { queued l with mem := putBytes (paged .nop).mem 0x2000 (leBytes (0x10000 + 0xB0B1 * 2 ^ 112) 16) }
     l.dep = 0x2000 ∧ (s.barObject 0 0x2000 false).isSome = true ∧ (queued l).barObject 0 0x2000 false = none ∧
       (queued l).statusFree 5 l = true) := by decide +kernel
theorem witness_LaunchesAndSettings_ends :
    (let l := launch0 3 0 0 0x2000
     let s := { queued l with mem := putBytes (paged .nop).mem 0x2000 (leBytes (0xB0B1 * 2 ^ 112) 16) }
     l.done = 0x2000 ∧ (s.barObject 0 0x2000 true).isSome = true ∧ s.outsideFree 0x2000 = true) ∧
    (let l := launch0 0x8003
     Tab.lookup 5 (queued l).launches = some l ∧ l.status = 0x8003 ∧ l.done = 0) ∧
    (queued (launch0 2)).launchOver 5 (launch0 2) = false ∧
    (let s := { queued (launch0 2) with crews := [(7, { Crew.blank with launch := 5, state := .exited })] }
     s.launchOver 5 (launch0 2) = true ∧ (s.core 0).l1 = [] ∧ s.launchFlushed 5 = true ∧ s.statusFree 5 (launch0 2) = true ∧
       (launch0 2).done = 0) := by decide +kernel
theorem witness_LaunchesAndSettings_queues :
    ({ soloCtx with state := .descheduled }).state = .descheduled ∧
    (∀ q ∈ [(64, 10, (⟨0x100000, 64⟩ : QueueSetting)), (32, 10, ⟨0x110000, 64⟩), (64, 10, ⟨0x120000, 64⟩), (32, 6, ⟨0x130000, 4096⟩)],
      q.2.2.base % q.1 = 0 ∧ ∃ i, i ≤ q.2.1 ∧ q.2.2.slots = 64 * 2 ^ i) := by
  refine ⟨rfl, fun q h => ?_⟩
  simp only [List.mem_cons, List.not_mem_nil, or_false] at h
  rcases h with rfl | rfl | rfl | rfl
  · exact ⟨rfl, 0, by decide, rfl⟩
  · exact ⟨rfl, 0, by decide, rfl⟩
  · exact ⟨rfl, 0, by decide, rfl⟩
  · exact ⟨rfl, 6, by decide, rfl⟩
theorem witness_CrewsAndPlaces_start :
    (let s := { queued (launch0 2) with placement := [[(5, 0)], [], [], []] }
     s.driftAt 1 = 0 ∧ s.coreFree 1 = true ∧ s.returning 0 = [] ∧ s.startFree 5 (launch0 2) = true ∧ earliest (s.incomplete 0) = none ∧
       s.head = some (0, 5, 0) ∧ s.bestDrift 0 = some 0 ∧ 1 ≤ (launch0 2).spad) ∧
    (let l := { launch0 2 1 with drift := [(0, 0)], dispatched := some 3 }
     let s := queued l
     Tab.lookup 5 s.launches = some l ∧ earliest (s.incomplete 0) = some (3, 0, 5)) ∧ (queued (launch0 2)).coreFree 0 = false := by
  decide +kernel
theorem witness_CrewsAndPlaces_cage :
    (let s := paged .nop
     (∀ e ∈ s.crews, ∀ d ∈ cageDrifts 0 (s.cage.getD 0 0) 2, e.2.state = .resident ∧ s.driftAt e.2.core ≠ d) ∧ 0 < s.cage.length ∧
       0 < s.cageGoal.length) ∧
    (let s := { paged .nop with crews := [(1, { Crew.blank with core := 224 })] }
     ∃ e ∈ s.crews, ∃ d ∈ cageDrifts 0 (s.cage.getD 0 0) 2, e.2.state = .resident ∧ s.driftAt e.2.core = d ∧ s.occupies e.2 = true) := by
  decide +kernel

/-- Its crew. -/
def savedCrew : Crew := { Crew.blank with launch := 5, group := 0, state := .evicted, image := some 7 }

/-- A state whose crew, the one of its launch's group, is saved in image 7, its warp with it; the image may hold an error, and may
have left through the export gate. -/
def saved (drift : Option Nat) (bad : Bool := false) (w : Warp := warp1) (exported : Bool := false) : State :=
  { queued { launch0 2 with drift := [(0, 0)], dispatched := some 3 } with
    crews := [(1, savedCrew)]
    warps := [(64, w)]
    trust := { State.reset.trust with exports := if exported then [((0, some 7), 0)] else [] }
    images := [(7, ⟨0, 0x1000, true, drift, [(1, 0)], bad⟩)] }

theorem witness_CrewsAndPlaces_images : ∀ bad ∈ [false, true],
    let s := saved none bad
    s.backWarps 0 = [] ∧ s.coreFree 0 = true ∧
      s.returning (s.driftAt 0) = [(1, savedCrew)] ∧ savedCrew.image = some 7 ∧ (Tab.lookup 7 s.images).map (·.bad) = some bad ∧
      (Tab.lookup 64 s.warps).map (·.crew) = some 1 := by decide +kernel
theorem witness_CrewsAndPlaces_warps :
    let s := { paged .nop with warps := [(64, { warp1 with evicted := true })] }
    s.backWarps 0 ≠ [] := by decide +kernel
theorem witness_CrewsAndPlaces_swap : let s := saved (some 0)
    (∀ e ∈ s.ctxs, e.2.tokens = []) ∧ s.onDrift 0 = [] ∧ s.swapImage 0 = some 7 ∧ (Tab.lookup 7 s.images).map (·.bad) = some false ∧
      ((s.inImage 7).map (·.1)).Nodup := by decide +kernel
theorem witness_CrewsAndPlaces_swapOut :
    let s := { paged .nop with warps := [(64, { warp1 with frags := [Frag.start 1 0x1000 0x20] })] }
    (∀ e ∈ s.ctxs, e.2.tokens = []) ∧ s.onDrift 0 ≠ [] ∧ s.swapImage 0 = none ∧
      (∀ e ∈ s.onDrift 0, s.crewSavable e.1 e.2 = true) := by decide +kernel
theorem witness_CrewsAndPlaces_parks :
    let s := { paged .nop with
      warps := [(64, { warp1 with frags := [Frag.start 1 0x1000 0x20] })]
      fabric := { State.reset.fabric with groups := [(1, ⟨true, 0, 5, 0, 3⟩)], roots := [(1, ⟨0, [⟨0, .opened, 5, [0], []⟩], []⟩)] } }
    (Tab.lookup 0 s.ctxs).isSome = true ∧ s.onChip 0 = true ∧ s.inStep 0 = true ∧
      ({ s with crews := [] } : State).onChip 0 = false := by decide +kernel
theorem witness_CrewsAndPlaces_migrate : ∀ away ∈ [false, true],
    let s := saved none false { warp1 with frags := [{ Frag.start 1 0x1000 0x20 with state := .parked, park := some (3, .replay) }] } away
    s.imageOf 0 = some 7 ∧ s.inImage 7 = [(1, savedCrew)] ∧ (Tab.lookup 7 s.images).map (·.bad) = some false ∧
      (∀ e ∈ s.crews, savedCrew.sameGroup e.2 = true → e.1 = 1) ∧
      (Tab.lookup 5 s.launches).map (·.crews) = some (s.started 5 0) ∧ s.coreFree (s.coreAt (16 * 0 + 0)) = true ∧
      (away = true → s.exported 0 7 = true) ∧ 0 ∈ s.allowed 0 ∧ 5 ∉ s.allowed 0 := by decide +kernel

/-- A launch whose crews need no scratchpad and 136 register rows in one quadrant. -/
def bare0 : Launch := { launch0 2 with words := (launch0 2).words.set 1 (field 26 1 ||| field 21 31 ||| field 17 15 ||| field 6 0) }

/-- A state in which it heads the placement list, and every core of its one drift has a crew of a lower class with `n` warps, each
with `gr` gathers outstanding. -/
def crowded (n gr : Nat) : State :=
  { queued bare0 with
    ctxs := [(0, { soloCtx with drifts := [0] })]
    launches := [(5, bare0)]
    placement := [[(5, 0)], [], [], []]
    nextId := 50
    crews := (List.range 16).map fun i => (i + 1, { Crew.blank with cls := 3, core := i, launch := 77, placed := i })
    warps := (List.range 16).flatMap fun i => (List.range n).map fun j => (64 * (i + 1) + j, { warp1 with
      id := 4 * j
      crew := i + 1
      frags := [Frag.start 1 0x1000 0x20]
      slices := List.replicate 8 (sliceOf 0)
      oc := { warp1.oc with gr := gr } }) }

theorem witness_CrewsAndPlaces_eviction : bare0.spad = 0 ∧ ∀ gr ∈ [0, 1],
    (crowded 6 gr).head = some (0, 5, 0) ∧ (crowded 6 gr).bestDrift 0 = none ∧
      (crowded 6 gr).victim 0 bare0 = some (16, { Crew.blank with cls := 3, core := 15, launch := 77, placed := 15 }) ∧
      (crowded 6 gr).startFree 5 bare0 = true ∧
      ((crowded 6 gr).nextOut 16 15 bare0).map (fun x => (x.1, (crowded 6 gr).evictable x.1 x.2)) = some (1029, gr == 0) ∧
      1029 < 64 * (crowded 6 gr).nextId := by decide +kernel
theorem witness_CrewsAndPlaces_evictionEnds : (crowded 1 0).head = some (0, 5, 0) ∧ (crowded 1 0).bestDrift 0 = none ∧
    (crowded 1 0).victim 0 bare0 = some (16, { Crew.blank with cls := 3, core := 15, launch := 77, placed := 15 }) ∧
    (crowded 1 0).startFree 5 bare0 = true ∧ (crowded 1 0).crewFits 15 bare0 = true := by decide +kernel

theorem witness_CrewsAndPlaces_shootdown :
    (∀ o ∈ ({ paged .nop with tlb := [(0, [⟨0, 0, 16, 0x1F, 0⟩])] }).ops, ({ paged .nop with tlb := [] }).inPage o 0 0 65536 = false) ∧
    (∀ e ∈ (paged .nop).crews, e.2.engine = []) ∧ (paged .nop).leasedIn 0 0 65536 = false ∧
    (let o := request (.load one page0 false [access0] [])
     (paged .nop [o]).inPage o 0 0 65536 = true ∧ (paged .nop [o]).leasedIn 0 0 65536 = false) ∧
    (running (unit0)).leasedIn 0 0x20000 0x30000 = true ∧ (16 : Nat) ∈ [16, 21, 30] := by decide +kernel
theorem witness_CrewsAndPlaces_contextDestroy :
    let s := paged .nop [request (.load one page0 false [access0] [])]
    (Tab.lookup 0 s.ctxs).isSome = true ∧ ∀ o ∈ s.ops, o.src.ctx = 0 → o.kind.writes = false := by decide +kernel
theorem witness_CrewsAndPlaces_spares :
    (let s := { paged .nop with
       ctxs := [(0, { soloCtx with cores := [(5, 0)] })]
       warps := [(64, { warp1 with frags := [Frag.start 1 0x1000 0x20] })] }
     (∀ e ∈ s.ctxs, e.2.tokens = []) ∧ s.coreAt 0 = 0 ∧ (∀ e ∈ s.crews, s.crewSavable e.1 e.2 = true) ∧
       (∃ e ∈ s.crews, e.2.core = 0 ∧ s.occupies e.2 = true) ∧ s.plant.spares = [] ∧
       ((Tab.lookup 0 s.ctxs).bind fun c => Tab.lookup 5 c.cores) = some 0) ∧
    (Tab.get Channel.free (paged .nop).channels (70 / 32)).spare = none ∧ (paged .nop).ops = [] := by decide +kernel

/-- A request to Gallery of service `n`. -/
def asked (n : Nat) (arg : DWord) : Op := request (.sys n arg 4 0 none)

/-- A state with that request, a token region, a window and a channel that another context owns. -/
def serving (n : Nat) (arg : DWord) : State :=
  { paged .nop [asked n arg] with
    ctxs := [(0, { soloCtx with tokens := [⟨0x20000, 16, none, [], [], none⟩], windows := [(1, ⟨0x20000, 16, true, true, false⟩)] })]
    channels := [(2, { Channel.free with owner := some 7 })]
    mem := putBytes (paged .nop).mem 0x3000 (leBytes 1 8 ++ leBytes 0x40000 8 ++ leBytes 16 8 ++ leBytes 3 8) }

theorem witness_CallsToGallery_word :
    let s := paged (.sys 7 6 1)
    Passes s (view' s) { reads := [.s 6], writes := [.s 7], long := true } ∧ AllPerformed s 64 10 ∧
      Released (s.releaseCore 0) 64 10 0x3F ∧ (Tab.lookup 0 s.ctxs).bind (·.requestQ) = some ⟨0x130000, 64, 0, []⟩ ∧
      ((s.releaseCore 0).walkCtx 0 0x130000).map (·.pa) = some 0x130000 ∧ ((s.releaseCore 0).word 0x130000).getLsbD 24 = false ∧
      (view' s).w.id < 64 ∧ (view' s).crew.row < 65536 ∧ (view' s).crew.col < 65536 :=
  ⟨⟨by decide +kernel, by decide +kernel⟩, by unfold AllPerformed Released; decide +kernel, by unfold Released; decide +kernel,
    by decide +kernel, by decide +kernel, by decide +kernel, by decide +kernel, by decide +kernel, by decide +kernel⟩
theorem witness_CallsToGallery_full :
    (let s := { paged (.sys 7 6 1) with ctxs := [(0, { soloCtx with requestQ := none })] }
     Released (s.releaseCore 0) 64 10 0x3F ∧ (Tab.lookup 0 s.ctxs).map (·.requestQ) = some none) ∧
    (let s := { paged (.sys 7 6 1) with mem := putBytes (paged .nop).mem 0x130000 [0, 0, 0, 1] }
     ((s.releaseCore 0).word 0x130000).getLsbD 24 = true) :=
  ⟨⟨by unfold Released; decide +kernel, by decide +kernel⟩, by decide +kernel⟩
theorem witness_CallsToGallery_regions :
    (serving 1 0x100010).op 9 = some (asked 1 0x100010) ∧ (Tab.lookup 0 (serving 1 0x100010).ctxs).isSome = true ∧
    (let log := bitsOf (0x100010 : DWord).toNat 0 5
     16 ≤ log ∧ log ≤ 30 ∧ bitsOf (0x100010 : DWord).toNat 16 41 * 65536 % 2 ^ log = 0) ∧
    (tokensOf (serving 2 0x20000) 0).findIdx? (fun u => u.base == 0x20000) = some 0 ∧
    (∀ u ∈ tokensOf (serving 2 0x30000) 0, u.base ≠ 0x30000) := by decide +kernel
theorem witness_CallsToGallery_windowsChannels :
    (serving 3 0x3008).windowBlock 0 0x3008 = none ∧ (serving 3 0x3000).windowBlock 0 0x3000 = some (1, 0x40000, 16, 3) ∧
    Tab.lookup 1 soloCtx.windows = none ∧ (Tab.get Channel.free (serving 5 2).channels 2).owner = some 7 ∧
    (Tab.get Channel.free (serving 5 3).channels 3).owner = none := by decide +kernel
theorem witness_CallsToGallery_release :
    let s := { serving 6 3 with channels := [(3, { Channel.free with owner := some 0 })] }
    s.op 9 = some (asked 6 3) ∧ (Tab.get Channel.free s.channels 3).owner = some 0 ∧ ∀ x ∈ s.ops, x.kind.stopeAt = none := by
  decide +kernel
theorem witness_ShotsReplaysAndErrors_words :
    (let s := paged (.snap 4 5)
     Passes s (view' s) { reads := [.s 5], writes := [.s 4], long := true, ok := bitsOf ((view' s).w.sreg 5).toNat 16 48 == 0 }) ∧
    (let s := { paged (.replayTok 4) with waits := [(3, .token 0 64 0)] }
     Passes s (view' s) { reads := [.s 4, .s 5], ok := true } ∧ s.privileged 0 = false ∧
       ({ s with ctxs := [(0, { soloCtx with privileged := true })] }).privileged 0 = true) :=
  ⟨⟨by decide +kernel, by decide +kernel⟩, ⟨by decide +kernel, by decide +kernel⟩, by decide +kernel, by decide +kernel⟩
theorem witness_ShotsReplaysAndErrors_replay : EntryOf { paged .nop with waits := [(3, .page 0 0x20000 false 0)] } 0 3 ∧
    pageTarget { paged .nop with waits := [(3, .page 0 2 false 0)] } 0 0x20000 = 3 := ⟨⟨by decide, .inl ⟨_, _, _, rfl⟩⟩, by decide⟩
theorem badHere (pa : Nat) (s : State) (h : s.bad = [granuleOf pa]) : s.uncorrectable pa 1 = true := by
  have h0 : 0 < 2 ^ Config.granuleLog := Nat.two_pow_pos _
  have h1 := Nat.lt_mul_div_succ (frameOf pa) h0
  have h2 := Nat.div_mul_le_self (frameOf pa) (2 ^ Config.granuleLog)
  simp only [State.uncorrectable, h, granuleOf, List.any_cons, List.any_nil, Bool.or_false, decide_eq_true_eq]
  rw [Nat.mul_comm] at h1
  exact ⟨h1, by omega⟩
theorem witness_ShotsReplaysAndErrors_memory :
    State.reset.uncorrectable 0x2000 1 = false ∧ ({ State.reset with bad := [granuleOf 0x2000] }).uncorrectable 0x2000 1 = true ∧
    (∃ s : State, granuleOf 0x2000 ∈ s.plant.soft ∧ s.uncorrectable 0x2000 1 = false) ∧
    (0 : Nat) ≤ State.reset.time.toNat ∧ State.reset.time.toNat < 5 ∧ State.reset.shot = none :=
  ⟨by rfl, badHere _ _ rfl, ⟨{ State.reset with plant := { State.reset.plant with soft := [granuleOf 0x2000] } },
    List.mem_singleton_self _, by rfl⟩, Nat.zero_le _, by decide, rfl⟩
/-- At address 0, which no choice of the granule's size moves. -/
theorem witness_ShotsReplaysAndErrors_owner :
    let s := { paged .nop with bad := [granuleOf 0] }
    s.uncorrectable 0 1 = true ∧ s.ownerOf (granuleOf 0 * 2 ^ Config.granuleLog) = some (0, 0) := by
  refine ⟨badHere 0 _ rfl, ?_⟩
  have h : granuleOf 0 * 2 ^ Config.granuleLog = 0 := by simp [granuleOf, frameOf]
  rw [h]
  decide +kernel
theorem witness_ShotsReplaysAndErrors_places :
    (Tab.lookup 64 (paged .nop).warps).isSome = true ∧ (Tab.lookup 1 (paged .nop).crews).isSome = true ∧
    (let x : Sector := ⟨[], 1, [], false⟩
     (9, x) ∈ ({ paged .nop with cores := [(0, { (State.reset.core 0) with l1 := [(9, x)] })] }.core 0).l1) := by decide +kernel
theorem witness_ShotsReplaysAndErrors_scrub :
    granuleOf 0 ∉ Crew.blank.spadBad ∧ granuleOf 0 ∈ { Crew.blank with spadBad := [granuleOf 0] }.spadBad ∧
    (Tab.lookup Crew.blank.ctx (paged .nop).ctxs).isSome = true :=
  ⟨List.not_mem_nil, List.mem_singleton_self _, by decide +kernel⟩
theorem witness_PowerBootAndTrust :
    State.reset.trust.code = 0xFF ∧ State.reset.trust.ms.length = 16 ∧ State.reset.trust.stage = 1 ∧ Tab.lookup 3 State.reset.trust.keys = none ∧
    State.reset.imageOf 0 = none ∧ State.reset.shot = none ∧ (saved none).imageOf 0 = some 7 ∧
    (∀ p ∈ [(1, 0x01), (2, 0x02), (5, 0x20)], ∃ t : Trust, t.stage = p.1 ∧ t.code = 0xFF) :=
  ⟨by decide, by decide, by decide, by decide, by decide, by decide, by decide +kernel,
    fun p _ => ⟨{ State.reset.trust with stage := p.1 }, rfl, rfl⟩⟩
theorem witness_StepRunsTheDecodedInstruction :
    (∃ w f c, (at' .nop).agenda = [] ∧ (at' .nop).cur = some (64, 0) ∧ (at' .nop).fragOf 64 0 = some (w, f) ∧ f.clause = some c ∧
      c.words.getD c.pos 0 = 0x06000000) ∧ decode 0x06000000 = .ok .nop ∧ Instr.nop.wf = true ∧
    (∃ r, decode 0x00000000 = .error r) ∧ (Instr.setmReg 70).wf = false ∧
    (∃ i, ({ State.reset with agenda := [.event i] }).agenda = .event i :: []) :=
  ⟨⟨_, _, _, rfl, rfl, rfl, rfl, rfl⟩, rfl, rfl, ⟨_, rfl⟩, rfl, .shotRelease, rfl⟩
theorem witness_StepRunsTheDecodedInstruction_header :
    (let s := { paged .nop with warps := [(64, { warp1 with frags := [Frag.start 1 0x1000 0x20] })] }
     (s.fetchWord 0 0 0x1000).toOption = some 0xFE000001 ∧ (0xFE000001 : Word).extractLsb' 25 7 = 0x7F ∧
       (decode 0xFE000001).toOption.map (·.wf) = some true) ∧
    (let s := { paged .nop with warps := [(64, { warp1 with frags := [Frag.start 1 0x1004 0x20] })] }
     (s.fetchWord 0 0 0x1004).toOption = some 0x06000000 ∧ (0x06000000 : Word).extractLsb' 25 7 ≠ 0x7F) := by decide +kernel
theorem witness_StepRunsTheDecodedInstruction_turn :
    let s := { at' .nop with
      agenda := []
      cur := none }
    ∃ w f c, s.fragOf 64 0 = some (w, f) ∧ s.mayIssue 64 w f = true ∧ f.clause = some c ∧ c.words.getD c.pos 0 = 0x06000000 :=
  ⟨_, _, _, rfl, by decide +kernel, rfl, rfl⟩
theorem witness_StepRunsTheDecodedInstruction_tick : (∀ e ∈ (at' .nop).cores, e.2.l1.length ≤ l1Lines) ∧
    (at' .nop).unflushed.length ≤ homeLines ∧ (at' .nop).directory.length ≤ nearLines ∧ (at' .nop).shotAt = [] := by decide
theorem witness_WordsAndClauseEnds_frag :
    (∃ w f, HasFrag (at' .nop 0x20 warp0 1 [0x06000000]) 64 0 w f ∧ (at' .nop 0x20 warp0 1 [0x06000000]).cur = some (64, 0) ∧
      ¬ AllFinished w f.mask ∧ LowestLeft w f.mask 0 ∧ (∀ k, k < 8 → (w.slice k).endsLoop 0x1004 = false)) ∧
    AllFinished { warp0 with slices := List.replicate 8 (sliceOf 0) } 1 ∧
    (view' (at' .nop 0x20 warp0 1 [0x06000000])).c.pos + 1 < (view' (at' .nop 0x20 warp0 1 [0x06000000])).c.words.length ∧
    ((stacked [entry .rptEntry 2] [0x1004]).slice 0).endsLoop 0x1004 = true ∧
    (at' .nop).badTarget (view' (at' .nop)) 0x1100 = false ∧ (paged .nop).badTarget (view' (paged .nop)) 0x1004 = true :=
  ⟨⟨_, _, ⟨rfl, rfl⟩, rfl, by unfold AllFinished; decide, ⟨by decide, by decide, by decide, by decide⟩, by decide⟩,
    by unfold AllFinished; decide, by decide, by decide, by decide, by decide⟩
theorem witness_WordsAndClauseEnds_region : let r : Region := ⟨0x1000, [⟨0, 15, 1, []⟩], 0⟩
    (∀ q ∈ r.slices, presentAt ((stacked [entry .ifEntry]).slice q.slice) q.depth = presentAt ((stacked [entry .ifEntry]).slice q.slice) q.depth) ∧
    ¬ (∀ q ∈ r.slices, presentAt ((stacked [entry .ifEntry]).slice q.slice) q.depth = presentAt (warp0.slice q.slice) q.depth) := by decide
theorem witness_TrapsAreTakenAndLeft_first :
    (∃ w f, HasFrag (between 0x2000) 64 0 w f ∧ f.atBoundary = true ∧ w.timerFor = none ∧ ∀ g ∈ w.frags, g.atBoundary = true ∧ fragNo g.mask = 0) ∧
    (let w : Warp := { warp0 with frags := [{ Frag.start 1 0x1000 0x20 with clause := some ⟨0x1000, [0x06000000], 0, 0, 15, 1, 0, none, 10⟩ }] }
     w.tmrthr ≠ (0 : DWord) ∧ w.tmrthr.toNat ≤ w.wtimer.toNat ∧ ∀ g ∈ w.frags, g.atBoundary = false) :=
  ⟨⟨_, _, ⟨rfl, rfl⟩, by decide, by decide, by decide⟩, by decide⟩
theorem witness_CrewBarrierAndRegrouping_disarms : DisarmsDone (at' .bar) 64 10 ∧ ¬ DisarmsDone (flying (.disarm 0 0)) 64 10 :=
  ⟨fun _ h => (List.not_mem_nil h).elim, fun h => h (request (.disarm 0 0)) (by decide) rfl (by decide) 0 0 rfl⟩
theorem witness_CrewBarrierAndRegrouping_keys : let s := at' (.resort 1 2) 0x20 { warp0 with s := [(2, 1)] }
    Passes s (view' s)
      { reads := [.v 1, .s 2] ++ (liveRegs ((view' s).w.sreg 2)).map .v ++ (List.range 8).map .p, long := true,
        writes := ((liveRegs ((view' s).w.sreg 2)).map .v) ++ ((List.range 8).map .p) ++ [.sr 0, .sr 1],
        ok := (liveRegs ((view' s).w.sreg 2)).all fun r => decide (r - r % 2 < (view' s).w.nregs) } := ⟨by decide, by decide⟩
/-- Two participants that each give 5 and 7 give 10 in element 0. -/
theorem witness_CollectiveSteps_sum : InParticipants [ask0 0, ask0 1] [ask0 0, ask0 1] ∧
    CollElemOf [ask0 0, ask0 1] 0 1 0 0 (some 10) 2 Exc.none := by
  refine ⟨⟨List.Perm.refl _, by decide, by decide⟩, [(some 5, Exc.none), (some 5, Exc.none)], Exc.none, rfl, ?_,
    ⟨fun k i => if k = 0 then [some 5, some 5].getD i none else if i = 0 then some 10 else none, fun _ _ => Exc.none,
      fun i => rfl, ?_, ?_⟩, by decide, by decide⟩
  · intro j r y hr hy
    have hj : j = 0 ∨ j = 1 := by
      rcases j with _ | _ | j
      · exact .inl rfl
      · exact .inr rfl
      · simp at hr
    rcases hj with rfl | rfl <;> cases hr <;> cases hy <;>
      exact ⟨fun h => h.elim (fun h => absurd h (by decide)) fun h => absurd h.2.1 (by decide), fun _ _ _ => rfl,
        fun _ _ h => absurd h.1 (by decide)⟩
  · intro k i
    rcases k with _ | k
    · rcases i with _ | i
      · refine ⟨(10, Exc.none), ?_, rfl, rfl⟩
        unfold CollNodeOf
        rw [if_pos (by decide)]
        exact ⟨rfl, by decide, rfl⟩
      · have : 2 * (i + 1) = 2 * i + 2 := by omega
        simp [this]
    · rcases i with _ | i <;> simp
  · intro n hn
    rcases n with _ | n
    · exact absurd hn (by decide)
    · refine ⟨rfl, ?_⟩
      generalize h : (List.range (n + 1)).flatMap (fun k => (List.range (2 ^ (n + 1 - 1 - k))).map fun _ => Exc.none) = l
      have : ∀ x ∈ l, x = Exc.none := by
        subst h
        intro x hx
        simp only [List.mem_flatMap, List.mem_map] at hx
        obtain ⟨_, _, _, _, h⟩ := hx
        exact h.symm
      clear h
      induction l with
      | nil => rfl
      | cons x l ih =>
        rw [this x List.mem_cons_self]
        exact ih fun y hy => this y (List.mem_cons_of_mem _ hy)
/-- 5 and 7 under one bank key add up to 12. -/
theorem witness_StopeUnitsWork_fold : GredFoldOf 0x20 0 [5, 7] 12 Exc.none ∧ modeType 0x20 = 1 ∧
    [(32 * 3, 5), (32 * 3 + 1, 7), (32 * 9, 2)].Pairwise (fun a b => a.1 ≤ b.1) ∧ [3, 9].Pairwise (· < ·) ∧
    ∀ e ∈ [(32 * 3, 5), (32 * 3 + 1, 7), (32 * 9, 2)], e.1 / 32 ∈ [3, 9] := by
  refine ⟨⟨fun i => ([5, 7].getD i 0, Exc.none), fun i => (if i = 0 then 5 else 12, Exc.none), ?_, rfl, ?_, rfl, by decide⟩,
    by decide, by decide, by decide, by decide⟩
  · intro i x h
    rcases i with _ | _ | i
    · cases h; rfl
    · cases h; rfl
    · simp at h
  · intro i h
    have : i = 0 := by simp at h; omega
    subst this
    unfold GredNodeOf
    rw [if_pos (by decide)]
    exact ⟨rfl, by decide, rfl⟩
theorem witness_LoadsIssue_counts : let s := mapped (.ldk 3 1 1 0)
    Passes s (view' s) (let sh := shapeLoad 3 1 1 none 0 true (view' s)
      { sh with reads := sh.reads ++ laneRegs ((bufOf ((view' s).w.breg 1)).esz == 3) 3 }) := ⟨by decide, by decide⟩
theorem witness_WindowsLinksAndHosts_spare : (let s : State := State.reset
    s.outside = [] ∧ (8 : Nat) ≤ 9 ∧ (Tab.get [] soloCtx.remap 2).length < 2 ∧ (24 : Nat) ≤ 24) := by decide
theorem witness_MulticastsAndFabricTargets_ranks :
    let s := windowed (.prefetch [])
    s.rankHere { ctx := 0, window := 1, offset := 0x40, size := 4, action := .write [1, 2, 3, 4] } = true ∧ s.rankHere { ctx := 0, window := 1, offset := 0x40, size := 4, action := .write [1, 2, 3, 4], rank := 5 } = false := by
  decide +kernel
theorem witness_LaunchesAndSettings_values :
    LaunchValues (w := 64) { State.reset with mem := putBytes [] 0x2000 (leBytes 7 8) } [(0x2000, 0x2000, 64)] 0x2000 8 1 [7] :=
  ⟨fun i p pa m h hp _ _ => by
      have : i = 0 := by omega
      simp only [List.mem_singleton, Prod.mk.injEq] at hp
      obtain ⟨rfl, rfl, rfl⟩ := hp
      subst this
      decide +kernel, fun i h => by
      rcases i with _ | i
      · omega
      · rfl⟩
theorem witness_CrewsAndPlaces_full : (3 : Nat) ∈ (crowded 6 0).fullQuads 15 bare0 ∨ (0 : Nat) ∈ (crowded 6 0).fullQuads 15 bare0 := by
  decide +kernel
theorem witness_CallsToGallery_uses : (serving 3 0x3000).windowInUse 0 1 = false ∧
    (let o := accepted (.store none Exc.none [fab0 [1, 2, 3, 4]])
     ({ serving 3 0x3000 with ops := [o] }).windowInUse 0 1 = true) ∧
    (Tab.lookup 1 (serving 4 1).ctxs).isSome = false ∧ (Tab.lookup 0 (serving 4 1).ctxs).isSome = true := by decide +kernel
theorem witness_ShotsReplaysAndErrors_working : controllerOf 0x2000 ∉ State.reset.plant.unused ∧
    State.reset.plant.shotMask.getLsbD 2 = false ∧ ({ State.reset.plant with shotMask := 4 }).shotMask.getLsbD 2 = true := by decide
theorem witness_PowerBootAndTrust_slots : (paged .nop).slotOf 0 = none ∧ State.reset.trust.code = 0xFF ∧
    ({ State.reset.trust with stage := 4 }).stage = 4 ∧ (1 : Nat) ≤ 3 := by decide
theorem witness_StepRunsTheDecodedInstruction_gallery :
    galleryStep .shotRelease = true ∧ galleryStep (.boot true .bad) = false ∧ State.reset.trust.stage < 4 := by decide
/-- A merge of that step, whose object is at 0x2000, and what a participant of a rank sends for it: an object of two cells. -/
def merge0 : Collective := { coll0 true with desc := 0x5000000000002001, object := 0x2000, operation := 5, bar := ⟨0, 0x3000, .pa 0x3000, 16, [], none⟩ }
def askMerge (rank : Nat) : CollRequest :=
  { ask0 rank with operation := 5, object := [7, BitVec.ofNat 64 (header0 2), 0, 0, 0, 0, 0, 0, 0] ++ List.replicate 2 0 }

/-- A state where the step has both of them, in a page of objects. -/
def merging (st : StepState) : State :=
  let s := joined true [step0 st [askMerge 0, askMerge 1]]
  { s with
    mem := [(0x18000, leBytes (0x1F + 6 * 2 ^ 60) 8), (0x18008, [7]), (0x2000, leBytes (header0 2) 8)].foldl (fun m e => putBytes m e.1 e.2) s.mem
    ops := [request (.coll merge0)] }

theorem witness_CollectiveSteps_merge : ∀ st ∈ [StepState.moving, .merged],
    let s := merging st
    let e := (0, request (.coll merge0), merge0)
    s.stepDue 1 = some (step0 st [askMerge 0, askMerge 1]) ∧ s.takers 1 0 = [[e]] ∧ s.cageFree e.2.1 e.2.2.bar = true ∧
      ((s.collObject 0 0x2000).map fun x => (x.2.held, x.2.count, !x.2.reports && !s.midStep x.2.pa && !s.objectDirty e.2.1 x.2 &&
        (requestObject (askMerge 1)).sameAs x.2 && s.outsideFree x.2.pa (agentOf 9))) = some (2, 2, true) ∧
      (requestObject (askMerge 0)).body = [0, 0] := by
  intro st h
  simp only [List.mem_cons, List.not_mem_nil, or_false] at h
  rcases h with rfl | rfl <;> refine ⟨?_, ?_, ?_, ?_, ?_⟩ <;> decide +kernel
theorem witness_WordsAndInstructionsAgree : Instr.nop.isWord = true ∧ decode 0x06000000 = .ok .nop := ⟨rfl, rfl⟩
theorem witness_MemoryFormKept : State.reset.memOk = true ∧ Memory.wf State.reset.dram = true := by decide
theorem witness_CrewsAndUnitsStartClear :
    (let s := { queued (launch0 2) with placement := [[(5, 0)], [], [], []] }
     s.driftAt 1 = 0 ∧ s.coreFree 1 = true ∧ s.returning 0 = [] ∧ s.startFree 5 (launch0 2) = true ∧ earliest (s.incomplete 0) = none ∧
       s.head = some (0, 5, 0) ∧ s.bestDrift 0 = some 0 ∧ 1 ≤ (launch0 2).spad) ∧
    (let l := { launch0 2 1 with drift := [(0, 0)], dispatched := some 3 }
     let s := queued l
     s.coreFree 1 = true ∧ s.returning (s.driftAt 1) = [] ∧ s.startFree 5 l = true ∧ 1 ≤ l.spad ∧ earliest (s.incomplete 0) = some (3, 0, 5)) ∧
    (let o := request (.stopeRun run0 false [])
     (paged .nop [o]).op 9 = some o ∧ (paged .nop [o]).writesLeft o = false ∧ (paged .nop [o]).runBlocked o run0 = false ∧
       (paged .nop [o]).fenced o = false ∧ run0.banks.getLsbD 0 = true) := by
  decide +kernel

/-! ## Words that the spec writes out, and what they stand for -/

/-- Every word decodes to its instruction. -/
def decodes (l : List (Word × Instr)) : Prop := ∀ e ∈ l, decode e.1 = .ok e.2

theorem test_decode_encoding : decodes [(0x0A0003E8, .lim 1000), (0x12041000, .addI 1 2 0), (0x0A345678, .lim 0x345678),
    (0x0C000009, .limh 9), (0xFE0005FC, .clauseHeader 0 2 15 7 0 0), (0xFE009FFC, .clauseHeader 4 15 15 7 0 0),
    (0x08004000, .setm 0x20), (0x0E100000, .rdsr 4 0), (0x0E0C1001, .rdsrS 3 2), (0x302C1800, .s2v 11 3), (0x16145853, .shlI 5 11 5),
    (0x10142840, .add 5 5 4), (0x700C2800, .ld 3 5 0 0 0 0), (0x08005400, .setm 0x2A)] := by
  simp only [decodes, List.forall_mem_cons, List.not_mem_nil, false_implies, implies_true, and_true]
  repeat' constructor
theorem test_decode_control : decodes [(0x06000000, .nop), (0x06000001, .endif), (0x06000002, .brk), (0x06000003, .cont), (0x06000004, .exit),
    (0x06000005, .join), (0x06000006, .yield), (0x02500064, .ifThen 1 0 6), (0x020FFFB7, .endloop 0xFFFB), (0x04005030, .rptImm 10 3),
    (0x04001838, .rptReg 3 3), (0x020FFF40, .bra 0 0 0 0xFFF4), (0x02900041, .brs 2 0 4), (0x07FE0007, .regang 0xFF),
    (0x020000A2, .call 10), (0x02000003, .ret 0 0 0), (0x02000148, .mark 20), (0x08221200, .setm 0x1109), (0x08002801, .setmReg 5),
    (0x0E008052, .wrsr 16 5)] := by
  simp only [decodes, List.forall_mem_cons, List.not_mem_nil, false_implies, implies_true, and_true]
  repeat' constructor
theorem test_decode_integer : decodes [(0x12183011, .subI 6 6 1), (0x10041036, .idiv 1 2 3), (0x14203860, .andBits 8 7 6), (0x18243802, .popc 9 7),
    (0x3C040800, .notBitsS 1 1), (0x3E040005, .movSImm 1 0), (0x1E041804, .cmpGtI 1 3 0), (0x20041030, .mad 1 2 3), (0x22041030, .bfe 1 2 3),
    (0x24041034, .sel 1 2 3 0 4), (0x2404103C, .sel 1 2 3 1 4), (0x26180000, .laneLt 6), (0x30107001, .v2s 4 14), (0x32081030, .pand 2 2 3),
    (0x2A0C1013, .shflXorI 3 2 1), (0x280C0815, .voteAll 3 1 1), (0x281C0817, .ballot 7 1 1), (0x28141018, .matchLanes 5 2 1),
    (0x2C080818, .scanAdd 2 1 1), (0x2E004820, .resort 9 2)] := by
  simp only [decodes, List.forall_mem_cons, List.not_mem_nil, false_implies, implies_true, and_true]
  repeat' constructor
theorem test_decode_float : decodes [(0x50041030, .fadd 1 2 3), (0x52041035, .fdivI 1 2 3), (0x54000820, .ffma 0 1 2), (0x56041032, .fcmpLt 1 2 3),
    (0x58080801, .frsq 2 1), (0x58080802, .fsqrt 2 1), (0x5A080801, .fcvt 2 1 1), (0x5C0C0800, .fclass 3 1), (0x5E200010, .qcvt 8 0 1),
    (0x5E084011, .dqcvt 2 8 1), (0x5E240012, .bscale 9 0 1), (0x60040000, .had32 1 0), (0x62140000, .rng 5), (0x62000001, .rngseed 0),
    (0x64080830, .pack 2 1 3), (0x640C1031, .unpack 3 2 3), (0x66080010, .rdflg 2 1), (0x66000021, .clrflg 2), (0x660003F1, .clrflg 0x3F),
    (0x08034000, .setm 0x01A0)] := by
  simp only [decodes, List.forall_mem_cons, List.not_mem_nil, false_implies, implies_true, and_true]
  repeat' constructor
theorem test_decode_memory : decodes [(0x700C2824, .ld 3 5 0 2 0 1), (0x70140001, .ldn 5 0 0 0 0 0), (0x70100B02, .ldk 4 1 6 0),
    (0x720C5100, .st 3 10 2 0), (0x720C2189, .cstore 3 4 3 1), (0x72002802, .pref 5 0 0), (0x7200218B, .pgreq 4 3 1),
    (0x74080401, .ldAcq 2 0 0x20 0 1), (0x76200401, .stRel 8 0 0x20 0 1), (0x78000400, .fenceAcq 0x20), (0x78000201, .fenceRel 0x10),
    (0x78000402, .fenceAr 0x20), (0x7A000000, .bar), (0x7A181282, .abarArr 6 2 5), (0x7C001B80, .tkacq 3 7), (0x7E105000, .bset 4 10),
    (0x7E302001, .bget 12 4), (0x80342091, .atomAdd 13 4 9 1), (0x8E080830, .cas 2 1 3 0), (0x90000024, .waitc 2 4),
    (0x90001808, .yieldc 3 0 0), (0x92422000, .cpy 2 1 4), (0x92422001, .cpy2d 2 1 4), (0x94000000, .openw), (0x96000001, .l1wb)] := by
  simp only [decodes, List.forall_mem_cons, List.not_mem_nil, false_implies, implies_true, and_true]
  repeat' constructor
theorem test_decode_matrix : decodes [(0xA0000800, .arm 1), (0xA0000801, .disarm 1), (0xA2000820, .mma 0 1 2), (0xA2000821, .mmaQ 0 1 2),
    (0xA2041032, .mmaG 1 2 3), (0xA4080040, .drain 2 0 4), (0xA4040001, .czero 1), (0xA4043202, .cld 1 6 4), (0xA4043203, .cst 1 6 4),
    (0xA6340000, .mbatch 13), (0xA6006801, .waitb 13), (0xA8080830, .wfwd 2 1 3), (0xA80C1001, .winv 3 2), (0xA8000012, .wthr 1),
    (0xA8300803, .wtag 12 1), (0xAA201300, .skinit 8 2 6), (0xAA0C1301, .skmerge 3 2 6), (0xAA001302, .skfold 2 6), (0xAA100013, .skstat 4 1),
    (0xAA080B04, .skdel 2 1 6 0), (0xAA080B14, .skdel 2 1 6 1)] := by
  simp only [decodes, List.forall_mem_cons, List.not_mem_nil, false_implies, implies_true, and_true]
  repeat' constructor
theorem test_decode_system : decodes [(0xB0083283, .collNse 2 6 5), (0xB2002090, .mcst 0 4 9), (0xB4244000, .grpchg 9 8),
    (0xB6100930, .gredAdd 4 1 2 3 0), (0xB610093A, .gredMax 4 1 2 3 1), (0xB8203000, .stopeLoad 8 6 0), (0xB8004001, .stopeRun 8),
    (0xB8302802, .stopeWait 12 5), (0xBA241200, .launch 9 2 4), (0xBC000050, .trap 5), (0xBC000001, .rtt), (0xBE1C3010, .sys 7 6 1),
    (0xC0001800, .settmr 3), (0xC0001801, .settmrRel 3), (0xC2102800, .snap 4 5), (0xC4000000, .bkpt), (0xC6001000, .replayTok 2),
    (0xC6001001, .replayPg 2)] := by
  simp only [decodes, List.forall_mem_cons, List.not_mem_nil, false_implies, implies_true, and_true]
  repeat' constructor
/-- R80 and R88: reserved bits, unlisted X, and unassigned majors. -/
theorem test_decode_refuses : ∀ w ∈ [(0x00000000 : Word), 0x06000015, 0x02000109, 0x4A000000, 0xC8000000, 0x7A000800, 0x90000007],
    (match decode w with | .ok i => i.wf | .error _ => false) = false := by
  simp only [List.forall_mem_cons, List.not_mem_nil, false_implies, implies_true, and_true]
  repeat' constructor

/-! ## Terms that are ill formed -/

/-- None of the terms is well formed. -/
def illFormed (l : List Instr) : Bool := l.all fun i => !i.wf

/-- One term for every check of a register number or a field, each one past its limit. -/
theorem test_wf_registers : illFormed [.addS 64 0 0, .addS 0 64 0, .addS 0 0 64, .rdsrS 64 0, .notBitsS 0 64, .setmReg 64, .cmpEq 8 0 0,
    .pand 8 0 0, .pand 0 8 0, .pand 0 0 8, .voteAny 0 8 0, .ballot 0 8 0, .shflIdx 0 64 0, .shflUpI 0 0 32, .matchLanes 0 0 64, .resort 0 64,
    .s2v 0 64, .v2s 64 0, .mma 8 0 0, .mma 0 16 0, .mma 0 0 64, .drain 16 0 0, .drain 0 8 0, .drain 0 0 2, .drain 0 0 62, .czero 8,
    .cld 8 0 0, .wtag 64 0, .wtag 0 16, .winv 0 16, .winv 16 0] = true := rfl
/-- One term for every limit of the other fields. -/
theorem test_wf_fields : illFormed [.clauseHeader 0 12 15 0 0 0, .clauseHeader 0 15 14 0 0 0, .bra 1 0 0 0, .ret 0 1 0, .rptImm 1 0,
    .rptReg 0 0, .rptReg 64 1, .setm 0x01C0, .setm 0x0C20, .setm 0x0021, .rdsr 0 0x0F, .rdsrS 0 0x26, .wrsr 0x00 0, .wrsr 0x14 0, .wfwd 0 0 0,
    .wfwd 0 0 6, .wthr 4, .clrflg 0x40, .rdflg 0 7, .fenceAcq 0, .ldAcq 0 0 0 0 0, .stRel 0 64 1 1 0, .ld 0 64 0 0 1 0, .ld 0 0 0 2 0 0,
    .bset 16 0, .bset 0 1, .bget 1 0, .waitc 0 5, .yieldc 0 0 5, .cpy 0 0 33, .skinit 59 0 0, .skstat 0 4, .collSum 16 0 0, .collSum 0 1 0,
    .collNse 15 0 0, .mcst 1 0 0, .stopeLoad 0 0 0, .stopeLoad 32 0 1, .stopeLoad 0 1 1, .stopeRun 2, .replayTok 1, .fcvt 0 0 14, .pack 0 0 8] =
  true := rfl

/-! ## Results that the spec gives -/

/-- R114: `sub v6, v6, 1` on int32, without SAT and with it. -/
theorem test_sub_wraps : ((done (.subI 6 6 1)).vreg 6).get 0 = 0x7FFFFFFF ∧ (done (.subI 6 6 1)).flags = 0 := by decide
theorem test_sub_saturates : ((done (.subI 6 6 1) 0x1020).vreg 6).get 0 = 0x80000000 ∧ (done (.subI 6 6 1) 0x1020).flags = 0x20 := by decide
/-- R96: `addS` on uniform registers, a source that is also the destination. -/
theorem test_uniform_add : (done (.addS 1 1 2)).sreg 1 = 24 ∧ (done (.addS 1 1 2)).sreg 2 = 9 := by decide
/-- R124: lane masks. -/
theorem test_lane_masks : ((done (.laneLe 3)).vreg 3).get 3 = 0xF ∧ ((done (.laneGt 3)).vreg 3).get 0 = 0xFFFFFFFE := by decide
/-- R116: division rounds toward zero, and the remainder has the dividend's sign. -/
theorem test_division_signs :
    let w := { warp0 with v := [(1, [BitVec.ofInt 32 (-7)]), (2, [2])] }
    ((after' (.operationCompletion 10) (after' (.idiv 3 1 2) (at' (.idiv 3 1 2) 0x20 w))).warps.map fun e => ((e.2.vreg 3).get 0)) =
      [BitVec.ofInt 32 (-3)] := by decide +kernel
/-- R165: one rounding in `ffma`: (1 + 2^-12)² - 1 is 2^-11 + 2^-24. -/
theorem test_ffma_rounds_once :
    let w := { warp0 with v := [(0, [0xBF800000]), (1, [0x3F800800]), (2, [0x3F800800])] }
    ((done (.ffma 0 1 2) 0x100 w).vreg 0).get 0 = 0x3A000400 ∧ (done (.ffma 0 1 2) 0x100 w).flags = 0 := by decide +kernel
/-- R169: -7.75 to int32 by RTZ is -7 with NX; -7 to fp32 is exact. -/
theorem test_fcvt_both_ways :
    let w := { warp0 with v := [(1, [0xC0F80000])] }
    let u := { warp0 with v := [(1, [0xFFFFFFF9])] }
    ((done (.fcvt 2 1 8) 0x220 w).vreg 2).get 0 = 0xFFFFFFF9 ∧ ((done (.fcvt 2 1 1) 0x100 u).vreg 2).get 0 = 0xC0E00000 := by decide +kernel
/-- R176: after `rngseed s0` with 0x0D81, two draws of lane 1. -/
theorem test_rng_lane_1 :
    let w := { warp0 with s := [(0, 0xD81)], origLane := [0, 1, 2, 3], rdraw := [7, 7, 7, 7] }
    let u := { done (.rngseed 0) 0x20 w with frags := [] }
    ((done (.rng 5) 0x20 u).vreg 5).get 1 = 0x0ACF4277 ∧
      ((done (.rng 5) 0x20 (done (.rng 5) 0x20 u)).vreg 5).get 1 = 0x3153EE67 := by decide +kernel
/-- R146 and R173: the worked block, to FP4S and back. -/
def block0 : Warp := { warp0 with s := [(1, 0x3F80)], v := [(0, [0x3F600000]), (1, [0xC0480000]), (2, [0x41400000]), (3, [0x3D800000]), (4, [0x40F00000]), (5, [0xBF200000]), (6, [0x40100000]), (8, [0x029607B1]), (9, [0x80])] }
theorem test_qcvt_block : (after' (.operationCompletion 10) (after' (.qcvt 8 0 1) (at' (.qcvt 8 0 1) 0x1A0 block0))).warps.map
    (fun e => (((e.2.vreg 8).get 0), ((e.2.vreg 9).get 0))) = [(0x029607B1, 0x80)] := by decide +kernel
theorem test_dqcvt_block : (after' (.operationCompletion 10) (after' (.dqcvt 2 8 1) (at' (.dqcvt 2 8 1) 0x1A0 block0))).warps.map
    (fun e => (List.range 8).map fun i => (e.2.vreg (16 + i)).get 0) =
      [[0x3F800000, 0xC0400000, 0x41400000, 0, 0x41000000, 0xBF800000, 0x40000000, 0]] := by decide +kernel
/-- R305 and R312: the worked transform of one feature: its coefficients and the survival map. -/
def wave0 : List Nat := (haarForward 3 32 ([0x40800000, 0x40000000, 0x40A00000, 0x40A00000, 0x3F800000, 0x3F800000, 0, 0x40400000] ++ List.replicate 24 0)).1
theorem test_haar_coefficients : [0, 4, 8, 9, 16, 19].map (fun j => wave0.getD j 0) =
    [0x40280000, 0x3FB00000, 0xBF800000, 0xBE800000, 0x3F800000, 0xBFC00000] := by decide +kernel
theorem test_haar_survival : survivors 3 0x3F800000 (fun j => [wave0.getD j 0]) = 0x0009011F := by decide +kernel
/-- R264 to R266: the worked summary: cells of its values, and its answers. -/
def quan0 : Sketch := ⟨0, 0, 7, [0x0003000000100004, 0, 8, 0, 0, 0, 0, 0], []⟩
theorem test_quantile_cells : [0x3F99999A, 0x3FD9999A, 0x40200000, 0x40A00000, 0x40E00000, 0, 0xC0600000, 0x41100000].map
    (fun x => quan0.bucket (readFloat 8 false x)) = [(some 1, false), (some 2, false), (some 3, false), (some 5, false), (some 6, false),
      (some 0, false), (some 10, false), (some 6, true)] := by decide +kernel
theorem test_quantile_answers : [0, 0x3E800000, 0x3F000000, 0x3F800000].map
    (fun q => quan0.quantile [1, 1, 1, 1, 0, 1, 2, 0, 0, 0, 1, 0, 0] (readFloat 8 false q)) =
      [0xC05B6DB7, 0, 0x3FDB6DB7, 0x40DB6DB7] := by decide +kernel
/-- R355: the channels and banks of the worked gather-reduce. -/
theorem test_bank_keys : [0x104, 0x2100, 0x110, 0x300, 0x2120, 0x118, 0x304, 0x40000].map (fun o => bankKey (2 * stackBytes + o)) =
    [(1, 0), (1, 1), (1, 0), (3, 0), (1, 1), (1, 0), (3, 0), (0, 0)].map (fun e => 2048 + 32 * e.1 + e.2) := by decide +kernel
theorem test_gather_reduce_sums :
    let key := fun (o lane : Nat) => 32 * bankKey (2 * stackBytes + o) + lane
    let got := [(key 0x40000 7, 0x41000000), (key 0x104 0, 0x3FC00000), (key 0x110 2, 0x3E800000), (key 0x118 5, 0x3F000000), (key 0x2100 1, 0x40000000), (key 0x2120 4, 0x40400000), (key 0x300 3, 0xBF800000), (key 0x304 6, 0x40800000)]
    let o := { request (.gred 0 4 3 0xFFFFFFFF [] got) with src := (view' (mapped .nop [] 0x100)).src }
    (after' (.gredRetire 9) (mapped .nop [o] 0x100)).warps.map (fun e => ((List.range 5).map fun i => (e.2.vreg 4).get i, e.2.pred 3)) =
      [([0x41000000, 0x40100000, 0x40A00000, 0x40400000, 0], 0xF)] := by decide +kernel
/-- FIPS 180-4: the first 64 bits of the digest of "abc" (notes/assumptions/22). -/
theorem test_sha384_abc : (sha384 [0x61, 0x62, 0x63]).toNat / 2 ^ 320 = 0xcb00753f45a35e8b := by decide +kernel
/-- R236: expect 3 and base 4 by `abar.init`; the third arrival completes phase 0. -/
theorem test_abar_completes : (({ (abarOf (List.replicate 16 0)) with expect := 3, base := 4, arrived := 3, tag := 0xB0B1 } : Abar).complete false) =
    { (abarOf (List.replicate 16 0)) with expect := 4, base := 4, arrived := 0, phase := 1, tag := 0xB0B1 } := by decide

end Sys2Proof.Tests
end

section
/-! SUPPORT. Laws of a word's course: what it comes to when its operands pass the checks at issue. -/

namespace Sys2Proof.Cert

open Sys2Proof.Machine

variable {i : Instr} {shape : View → Shape} {body : View → State → Res} {s t : State} {v : View}

/-- A long-latency word that has had its effect: its registers are pending from its request on (R84, R85). -/
theorem wordDone_of_long (hx : exec i s = issueWord shape body s) (hp : Passes s v (shape v)) (hl : (shape v).long = true)
    (hb : body v s = .done t) : WordDone i s v true (shape v).writes t := by
  unfold WordDone
  rw [hx, issueWord_passes hp.1 hp.2, hb]
  unfold State.settle
  cases (shape v).writes <;> simp [hl]

/-- A word that has had its effect and writes no register later. -/
theorem wordDone_of_short (hx : exec i s = issueWord shape body s) (hp : Passes s v (shape v)) (hl : (shape v).long = false)
    (hb : body v s = .done t) : WordDone i s v false [] t := by
  unfold WordDone
  rw [hx, issueWord_passes hp.1 hp.2, hb, State.settle_done (by simp [hl]), hl]
  rfl

/-- A word whose own checks raise a class-W cause. -/
theorem wordFaults_of_body {x : FaultInfo} (hx : exec i s = issueWord shape body s) (hp : Passes s v (shape v))
    (hb : body v s = .fault s x) : WordFaults i s v x := by
  unfold WordFaults
  rw [hx, issueWord_passes hp.1 hp.2, hb]
  rfl

end Sys2Proof.Cert
end

section
/-! SUPPORT. Laws of requests: how one is found, replaced and taken out, and what settling flags and remembering
translations leave alone. -/

namespace Sys2Proof.Machine

/-- A request found by its number has that number. -/
theorem State.op_id {s : State} {id : Nat} {o : Op} (h : s.op id = some o) : o.id = id := by
  simpa using List.find?_some h

/-- The request of a number after it has been replaced. -/
theorem State.op_putOp {s : State} {o x : Op} (h : s.op x.id = some o) : (s.putOp x).op x.id = some x := by
  have hp : ((fun y : Op => y.id == x.id) ∘ fun y => if y.id == x.id then x else y) = fun y => y.id == x.id := by
    funext y
    by_cases hy : y.id = x.id <;> simp [hy]
  have hf : s.ops.find? (fun y => y.id == x.id) = some o := h
  show (s.ops.map _).find? _ = some x
  rw [List.find?_map, hp, hf]
  simp [State.op_id h]

/-- Settling the flags of a warp changes its slices alone. -/
theorem State.settleFlags_of_lookup {s : State} {k : Nat} {w : Warp} (h : Tab.lookup k s.warps = some w) :
    ∃ sl, s.settleFlags k = s.setWarp k { w with slices := sl } := by
  unfold State.settleFlags
  exact ⟨_, State.mapWarp_some h _⟩

@[simp] theorem State.settleFlags_mem (s : State) (k : Nat) : (s.settleFlags k).mem = s.mem := by
  simp [State.settleFlags]

@[simp] theorem State.settleFlags_ops (s : State) (k : Nat) : (s.settleFlags k).ops = s.ops := by
  simp [State.settleFlags]

@[simp] theorem State.putLeft_mem (s : State) (o : Op) (kind : OpKind) (rest : List Access) :
    (s.putLeft o kind rest).mem = s.mem := by
  unfold State.putLeft
  split
  · simp [State.dropOp]
  · rfl

/-- The last part of a request performed: the request leaves. -/
theorem State.putLeft_nil_ops (s : State) (o : Op) (kind : OpKind) :
    (s.putLeft o kind []).ops = s.ops.filter fun p => p.id != o.id := by
  simp [State.putLeft, State.dropOp]

/-- A part of a request performed: the request stays with what is left of it. -/
theorem State.putLeft_cons_op {s : State} {o : Op} {kind : OpKind} {rest : List Access} (hr : rest ≠ [])
    (h : s.op o.id = some o) : (s.putLeft o kind rest).op o.id = some { o with kind := kind } := by
  unfold State.putLeft
  rw [if_neg (by simpa using hr)]
  exact State.op_putOp (x := { o with kind := kind }) h

/-- A part of a request performed leaves the warp's registers as they are. -/
theorem State.putLeft_warp {s : State} {o : Op} {w : Warp} (kind : OpKind) (rest : List Access)
    (h : Tab.lookup o.src.warp s.warps = some w) :
    ∃ sl, Tab.lookup o.src.warp (s.putLeft o kind rest).warps = some { w with slices := sl } := by
  unfold State.putLeft
  split
  · obtain ⟨sl, e⟩ := State.settleFlags_of_lookup (s := s.dropOp o.id) h
    exact ⟨sl, by rw [e]; exact State.lookup_setWarp ..⟩
  · exact ⟨w.slices, h⟩

/-- A translation remembered changes the translation caches alone (R191). -/
theorem State.remember_frame (s : State) (ctx core va : Nat) : ∃ x, s.remember ctx core va = { s with tlb := x } := by
  unfold State.remember
  dsimp only
  split
  · exact ⟨s.tlb, rfl⟩
  · split
    · exact ⟨s.tlb, rfl⟩
    · exact ⟨_, rfl⟩

/-- Translations that a word took change the translation caches alone (R191). -/
theorem State.rememberAll_frame (s : State) (crew : Crew) (l : List (Nat × Reached)) :
    ∃ x, s.rememberAll crew l = { s with tlb := x } := by
  unfold State.rememberAll
  induction l generalizing s with
  | nil => exact ⟨s.tlb, rfl⟩
  | cons e l ih =>
    obtain ⟨n, r⟩ := e
    rw [List.foldl_cons]
    cases r with
    | mem a x =>
      obtain ⟨y, hy⟩ := s.remember_frame crew.ctx crew.core a
      obtain ⟨z, hz⟩ := ih (s.remember crew.ctx crew.core a)
      exact ⟨z, hz.trans (by rw [hy])⟩
    | _ => exact ih s

/-- The bytes of memory are those of its table. -/
theorem State.byte_congr {s t : State} (h : t.mem = s.mem) (a : Nat) : t.byte a = s.byte a := by
  unfold State.byte; rw [h]

/-- Bytes of memory, one by one. -/
theorem State.bytes_getD (s : State) (a n i : Nat) (h : i < n) : (s.bytes a n).getD i 0 = s.byte (a + i) := by
  simp [State.bytes, List.getD_eq_getElem?_getD, h]

/-- A core after a core has been changed. -/
theorem State.core_mapCore (s : State) (n c : Nat) (g : Core → Core) :
    (s.mapCore n g).core c = if c = n then g (s.core n) else s.core c := by
  simp [State.core, Tab.get_set]

end Sys2Proof.Machine
end

section
/-! SUPPORT. Laws of a write-back: which bytes a core's dirty sectors leave at their homes (R200, R244). -/

namespace Sys2Proof.Machine

/-- Bytes that go home one by one, each with the warps that wrote it. -/
def State.sendHome (s : State) (l : List (Nat × BitVec 8 × List Nat)) : State :=
  l.foldl (fun s b => s.homeWrites b.2.2 b.1 [b.2.1]) s

/-- The dirty bytes of a core, in the sectors that a test admits. -/
def State.dirtyOf (s : State) (core : Nat) (p : Nat → Bool) : List (Nat × BitVec 8 × List Nat) :=
  ((s.core core).l1.filter fun e => p (64 * e.1) && e.2.dirty != 0).flatMap fun e => dirtyBytes (64 * e.1) e.2

/-- A write at the home changes memory and what the module keeps of its lines, and nothing else. -/
theorem State.homeWrites_frame (s : State) (ws : List Nat) (a : Nat) (bs : List (BitVec 8)) :
    ∃ m d b u, s.homeWrites ws a bs = { s with mem := m, directory := d, bad := b, unflushed := u } := by
  unfold State.homeWrites
  split
  · exact ⟨s.mem, s.directory, s.bad, s.unflushed, rfl⟩
  · exact ⟨_, _, _, _, rfl⟩

theorem State.sendHome_frame (s : State) (l : List (Nat × BitVec 8 × List Nat)) :
    ∃ m d b u, s.sendHome l = { s with mem := m, directory := d, bad := b, unflushed := u } := by
  induction l generalizing s with
  | nil => exact ⟨s.mem, s.directory, s.bad, s.unflushed, rfl⟩
  | cons b l ih =>
    obtain ⟨_, _, _, _, h1⟩ := s.homeWrites_frame b.2.2 b.1 [b.2.1]
    obtain ⟨m, d, x, u, h2⟩ := ih (s.homeWrites b.2.2 b.1 [b.2.1])
    exact ⟨m, d, x, u, h2.trans (by rw [h1])⟩

/-- A byte after bytes have gone home: one of those sent to its place, or, when none was, the byte that stood there. -/
theorem State.sendHome_byte (s : State) (l : List (Nat × BitVec 8 × List Nat)) (a : Nat) :
    (∃ b ∈ l, b.1 = a ∧ (s.sendHome l).byte a = b.2.1) ∨ ((∀ b ∈ l, b.1 ≠ a) ∧ (s.sendHome l).byte a = s.byte a) := by
  induction l generalizing s with
  | nil => exact .inr ⟨by simp, rfl⟩
  | cons b l ih =>
    have now : (s.homeWrites b.2.2 b.1 [b.2.1]).byte a = if a = b.1 then b.2.1 else s.byte a := by
      unfold State.byte
      rw [State.homeWrites_mem]
      exact Tab.get_set ..
    rcases ih (s.homeWrites b.2.2 b.1 [b.2.1]) with ⟨c, hc, ha, e⟩ | ⟨hn, e⟩
    · exact .inl ⟨c, .tail _ hc, ha, e⟩
    · by_cases hb : a = b.1
      · exact .inl ⟨b, .head _, hb.symm, e.trans (by rw [now, if_pos hb])⟩
      · refine .inr ⟨fun c hc => ?_, e.trans (by rw [now, if_neg hb])⟩
        rcases List.mem_cons.mp hc with rfl | hc
        · exact Ne.symm hb
        · exact hn c hc

/-- A core with nothing dirty in the sectors that a test admits. -/
def Core.cleaned (p : Nat → Bool) (c : Core) : Core :=
  { c with l1 := c.l1.map fun e => if p (64 * e.1) then (e.1, { e.2 with dirty := 0, writers := [] }) else e }

/-- A write-back: the dirty bytes go home, failing granules among them, and the sectors are clean. -/
theorem State.writeBack_eq (s : State) (core : Nat) (p : Nat → Bool) :
    ∃ b, s.writeBack core p = ({ s.sendHome (s.dirtyOf core p) with bad := b }).mapCore core (Core.cleaned p) := ⟨_, rfl⟩

theorem State.writeBack_mem (s : State) (core : Nat) (p : Nat → Bool) :
    (s.writeBack core p).mem = (s.sendHome (s.dirtyOf core p)).mem := by
  obtain ⟨_, e⟩ := s.writeBack_eq core p
  rw [e]
  rfl

/-- A write-back changes memory, what the module keeps of its lines, and cores. -/
theorem State.writeBack_frame (s : State) (core : Nat) (p : Nat → Bool) :
    ∃ m d b u c, s.writeBack core p = { s with mem := m, directory := d, bad := b, unflushed := u, cores := c } := by
  obtain ⟨b, e⟩ := s.writeBack_eq core p
  obtain ⟨m, d, _, u, h⟩ := s.sendHome_frame (s.dirtyOf core p)
  rw [h] at e
  exact ⟨m, d, b, u, _, e⟩

@[simp] theorem State.writeBack_warps (s : State) (core : Nat) (p : Nat → Bool) : (s.writeBack core p).warps = s.warps := by
  obtain ⟨_, _, _, _, _, h⟩ := s.writeBack_frame core p
  rw [h]

@[simp] theorem State.writeBack_ops (s : State) (core : Nat) (p : Nat → Bool) : (s.writeBack core p).ops = s.ops := by
  obtain ⟨_, _, _, _, _, h⟩ := s.writeBack_frame core p
  rw [h]

@[simp] theorem State.writeBack_nextId (s : State) (core : Nat) (p : Nat → Bool) : (s.writeBack core p).nextId = s.nextId := by
  obtain ⟨_, _, _, _, _, h⟩ := s.writeBack_frame core p
  rw [h]

end Sys2Proof.Machine

namespace Sys2Proof.Cert

open Sys2Proof.Machine

/-- The dirty bytes of a core are those of its dirty sectors, at their places. -/
theorem mem_dirtyOf {s : State} {core : Nat} {p : Nat → Bool} {b : Nat × BitVec 8 × List Nat} :
    b ∈ s.dirtyOf core p ↔
      ∃ q, DirtyAt s core p b.1 q ∧ b.2 = (q.bytes.getD (b.1 % 64) 0, q.writersOf (b.1 % 64)) := by
  simp only [State.dirtyOf, List.mem_flatMap, List.mem_filter, dirtyBytes, List.mem_filterMap, List.mem_range, DirtyAt,
    Bool.and_eq_true, bne_iff_ne, ne_eq]
  constructor
  · rintro ⟨⟨n, q⟩, ⟨hm, hp, -⟩, i, hi, h⟩
    split at h
    · rename_i hd
      obtain rfl := Option.some.inj h
      have e1 : (64 * n + i) / 64 = n := by omega
      have e2 : (64 * n + i) % 64 = i := by omega
      exact ⟨q, ⟨by rw [e1]; exact hm, by rw [e1]; exact hp, by rw [e2]; exact hd⟩, by rw [e2]⟩
    · cases h
  · rintro ⟨q, ⟨hm, hp, hd⟩, e⟩
    refine ⟨(b.1 / 64, q), ⟨hm, hp, ?_⟩, b.1 % 64, Nat.mod_lt _ (by decide), ?_⟩
    · intro h0
      rw [h0] at hd
      simp at hd
    · rw [if_pos hd, ← e, Nat.div_add_mod]

/-- A write-back leaves the dirty bytes at their homes, their sectors clean, and nothing else changed. -/
theorem writeBack_writtenBack (s : State) (core : Nat) (p : Nat → Bool) : WrittenBack s (s.writeBack core p) core p where
  home a := by
    rintro ⟨q, hq⟩
    rw [State.byte_congr (State.writeBack_mem s core p)]
    rcases s.sendHome_byte (s.dirtyOf core p) a with ⟨b, hb, rfl, e⟩ | ⟨hn, -⟩
    · obtain ⟨r, hr, hb2⟩ := mem_dirtyOf.mp hb
      exact ⟨r, hr, by rw [e, hb2]⟩
    · have hm : (a, q.bytes.getD (a % 64) 0, q.writersOf (a % 64)) ∈ s.dirtyOf core p := mem_dirtyOf.mpr ⟨q, hq, rfl⟩
      exact absurd rfl (hn _ hm)
  kept a h := by
    rw [State.byte_congr (State.writeBack_mem s core p)]
    rcases s.sendHome_byte (s.dirtyOf core p) a with ⟨b, hb, rfl, -⟩ | ⟨-, e⟩
    · obtain ⟨r, hr, -⟩ := mem_dirtyOf.mp hb
      exact absurd ⟨r, hr⟩ h
    · exact e
  clean c := by
    obtain ⟨_, e⟩ := s.writeBack_eq core p
    obtain ⟨_, _, _, _, h⟩ := s.sendHome_frame (s.dirtyOf core p)
    rw [e, State.core_mapCore, h]
    split
    · subst_vars; rfl
    · rfl
  rest := by
    obtain ⟨_, _, _, _, _, h⟩ := s.writeBack_frame core p
    rw [h]

end Sys2Proof.Cert
end

section
/-! SUPPORT. Atomics and `cas` (R10, R204, R230). -/

namespace Sys2Proof.Machine

/-! ## The value of an atomic -/

/-- A number taken to a width and back. -/
theorem natOf_valueOf (n : Nat) (sg : Bool) (x : Nat) : natOf n (valueOf n sg x) = x % 2 ^ n := by
  have hp : 0 < 2 ^ n := Nat.two_pow_pos n
  have hlt : x % 2 ^ n < 2 ^ n := Nat.mod_lt _ hp
  have low : (((x % 2 ^ n : Nat) : Int) % ((2 ^ n : Nat) : Int)).toNat = x % 2 ^ n := by
    rw [← Int.natCast_emod, Int.toNat_natCast, Nat.mod_mod]
  unfold natOf valueOf
  dsimp only
  split
  · rw [show ((x % 2 ^ n : Nat) : Int) - 2 ^ n = ((x % 2 ^ n : Nat) : Int) - ((2 ^ n : Nat) : Int) by push_cast; rfl,
      Int.sub_emod_right]
    exact low
  · exact low

/-- Only the low bits of a number tell in its value. -/
theorem valueOf_mod (n : Nat) (sg : Bool) (x : Nat) : valueOf n sg (x % 2 ^ n) = valueOf n sg x := by
  unfold valueOf; rw [Nat.mod_mod]

theorem natOf_lt (n : Nat) (x : Int) : natOf n x < 2 ^ n := by
  have hp : (0 : Int) < ((2 ^ n : Nat) : Int) := by exact_mod_cast Nat.two_pow_pos n
  have := Int.emod_lt_of_pos x hp
  have := Int.emod_nonneg x (Int.ne_of_gt hp)
  unfold natOf
  omega

/-- Bits chosen for a value that some bits have, have that value. -/
theorem valueOf_natOf_valueOf (n : Nat) (sg : Bool) (x : Nat) :
    valueOf n sg (natOf n (valueOf n sg x)) = valueOf n sg x := by rw [natOf_valueOf, valueOf_mod]

/-- The lesser of two integers is one of them. -/
theorem min_eq_or (x y : Int) : min x y = x ∨ min x y = y := by omega

/-- The greater of two integers is one of them. -/
theorem max_eq_or (x y : Int) : max x y = x ∨ max x y = y := by omega

/-! ## Bytes -/

/-- The bytes of a number, one by one. -/
theorem leBytes_getD (x n k : Nat) (h : k < n) : (leBytes x n).getD k 0 = BitVec.ofNat 8 (x / 2 ^ (8 * k)) := by
  induction n generalizing x k with
  | zero => omega
  | succ n ih =>
    cases k with
    | zero => simp [leBytes]
    | succ k =>
      rw [leBytes, List.getD_cons_succ, ih _ _ (by omega), Nat.div_div_eq_div_mul,
        show 2 ^ (8 * (k + 1)) = 256 * 2 ^ (8 * k) by rw [Nat.mul_add, Nat.pow_add, Nat.mul_comm]]

/-- Bytes hold a number of their width. -/
theorem leNat_lt (bs : List (BitVec 8)) : leNat bs < 2 ^ (8 * bs.length) := by
  induction bs with
  | nil => decide
  | cons b bs ih =>
    have hb := b.isLt
    rw [leNat, List.length_cons, show 2 ^ (8 * (bs.length + 1)) = 256 * 2 ^ (8 * bs.length) by
      rw [Nat.mul_add, Nat.pow_add, Nat.mul_comm]]
    omega

/-! ## One lane at its home -/

/-- What an atomic meets at its place: the dirty bytes of its core's own sector have gone home before it. -/
def State.atomicOld (s : State) (core a size : Nat) : Nat :=
  leNat ((s.writeBack core fun pa => pa / 64 == a / 64).bytes a size)

/-- The state after the lane: the core's own sector has gone home and left, the new value stands at the place, and the old one in
the lane. -/
def State.afterAtomic (s : State) (o : Op) (op : AtomOp) (d size cmp : Nat) (x : Access) (a : Nat) : State :=
  let touched := fun (pa : Nat) => pa / 64 == a / 64
  let old := s.atomicOld (s.coreOf o) a size
  let new := atomValue op (modeType o.src.mode) size old (leNat x.data) cmp
  ((((s.writeBack (s.coreOf o) touched).dropSectors (s.coreOf o) touched).homeWrite o.src.warp a (leBytes new size)).mapWarp
    o.src.warp fun w => w.writeLanes (modeType o.src.mode) (size == 8) d (maskOf (· == x.lane)) fun _ => old)

/-- Data without an uncorrectable error fail no lane of an atomic. -/
theorem State.badLanes_nil {s : State} {core : Nat} {l : List Access}
    (h : ∀ y ∈ l, ∀ b, y.place = .pa b → s.uncorrectable b y.size = false) : s.badLanes core false Page.none l = [] := by
  unfold State.badLanes
  rw [List.filter_eq_nil_iff]
  intro y hy
  split
  · rename_i b hb
    simp [State.readBad, scaleBytes, Page.none, h y hy b hb]
  · simp

/-- ATOMIC_PERFORM of a request that may be performed now. -/
theorem exec_atomicPerform {s : State} {id : Nat} {o : Op} {op : AtomOp} {d size a : Nat} {cmp : List DWord} {x : Access}
    {rest : List Access} (ho : s.op id = some o) (hk : o.kind = .atomic op d size cmp (x :: rest))
    (hm : offMemory (x :: rest) = false) (hw : s.writeFree o = true) (hs : s.stalled o = false) (ht : s.tokensHeld o = true)
    (hb : s.badLanes (s.coreOf o) false Page.none (x :: rest) = []) (hx : x.place = .pa a) :
    exec (.atomicPerform id) s =
      .next ((s.afterAtomic o op d size (cmp.headD 0).toNat x a).putLeft o (.atomic op d size (cmp.drop 1) rest) rest) := by
  show execAtomicPerform id s = _
  simp only [execAtomicPerform, ho, hk, hm, hw, hs, ht, State.performAtomic, hb, hx]
  rfl

/-- A byte after one lane of an atomic. -/
theorem State.afterAtomic_byte (s : State) (o : Op) (op : AtomOp) (d size cmp : Nat) (x : Access) (a b : Nat) :
    (s.afterAtomic o op d size cmp x a).byte b =
      if a ≤ b ∧ b < a + size then
        (leBytes (atomValue op (modeType o.src.mode) size (s.atomicOld (s.coreOf o) a size) (leNat x.data) cmp) size).getD (b - a) 0
      else (s.writeBack (s.coreOf o) fun pa => pa / 64 == a / 64).byte b := by
  unfold State.afterAtomic
  rw [State.byte_congr (State.mapWarp_mem ..), State.homeWrite_byte, leBytes_length]
  rfl

/-- The warp of an atomic after one lane of it. -/
theorem State.afterAtomic_warp {s : State} {o : Op} {w : Warp} (op : AtomOp) (d size cmp : Nat) (x : Access) (a : Nat)
    (h : Tab.lookup o.src.warp s.warps = some w) :
    Tab.lookup o.src.warp (s.afterAtomic o op d size cmp x a).warps =
      some (w.writeLanes (modeType o.src.mode) (size == 8) d (maskOf (· == x.lane)) fun _ =>
        s.atomicOld (s.coreOf o) a size) := by
  unfold State.afterAtomic
  rw [State.mapWarp_some (w := w)]
  · exact State.lookup_setWarp ..
  · simpa [State.dropSectors] using h

/-- An atomic's lane leaves every request as it is, until it leaves its own. -/
theorem State.afterAtomic_ops (s : State) (o : Op) (op : AtomOp) (d size cmp : Nat) (x : Access) (a : Nat) :
    (s.afterAtomic o op d size cmp x a).ops = s.ops := by
  simp [State.afterAtomic, State.dropSectors]

/-- What an atomic meets has the width of its access. -/
theorem State.atomicOld_lt (s : State) (core a size : Nat) : s.atomicOld core a size < 2 ^ (8 * size) := by
  simpa [State.atomicOld, State.bytes] using leNat_lt ((s.writeBack core fun pa => pa / 64 == a / 64).bytes a size)

/-! ## The old value in its lane -/

/-- A value written to one lane of a register, or of a pair, stands there. -/
theorem Warp.laneBits_writeLane {size : Nat} (hs : size = 4 ∨ size = 8) (w : Warp) (ty d : Nat) {lane x : Nat}
    (hl : lane < 32) (hx : x < 2 ^ (8 * size)) :
    (w.writeLanes ty (size == 8) d (maskOf (· == lane)) fun _ => x).laneBits (size == 8) d lane = x := by
  rw [Warp.laneBits_writeLanes _ _ _ _ _ _ hl (by simp [maskOf_getLsbD _ hl])]
  rcases hs with rfl | rfl <;> exact Nat.mod_eq_of_lt hx

/-- A value written to one lane of a register, or of a pair, leaves every other lane and register alone. -/
theorem Warp.vreg_writeLane_ne {size : Nat} (w : Warp) (ty d : Nat) {lane x r n : Nat} (hn : n < 32)
    (h : n ≠ lane ∨ (r ≠ d ∧ (size = 8 → r ≠ d + 1))) :
    ((w.writeLanes ty (size == 8) d (maskOf (· == lane)) fun _ => x).vreg r).get n = (w.vreg r).get n := by
  rw [Warp.vreg_writeLanes _ _ _ _ _ _ _ hn, maskOf_getLsbD _ hn]
  rcases h with h | ⟨h1, h2⟩
  · simp [h]
  · rw [if_neg fun e => h1 e.2, if_neg fun e => h2 (beq_iff_eq.mp e.2.1) e.2.2]

end Sys2Proof.Machine

namespace Sys2Proof.Cert

open Sys2Proof.Machine

/-- The value that an atomic leaves is the one that R230 gives. -/
theorem atomValue_newValue (op : AtomOp) (ty size old b c : Nat) : newValue op ty size old b c (atomValue op ty size old b c) := by
  have int : ty < 7 → isFloat ty = false := fun h => by simp [isFloat]; omega
  cases op with
  | add =>
    unfold newValue atomValue
    cases h : isFloat ty <;> simp
  | min =>
    intro h
    simp only [atomValue, int h, Bool.false_eq_true, if_false, if_true]
    refine ⟨natOf_lt .., ?_⟩
    rcases min_eq_or (valueOf (8 * size) (typeSigned ty) old) (valueOf (8 * size) (typeSigned ty) b) with e | e <;>
      rw [e, valueOf_natOf_valueOf]
  | max =>
    intro h
    simp only [atomValue, int h, Bool.false_eq_true, if_false]
    refine ⟨natOf_lt .., ?_⟩
    rcases max_eq_or (valueOf (8 * size) (typeSigned ty) old) (valueOf (8 * size) (typeSigned ty) b) with e | e <;>
      rw [e, valueOf_natOf_valueOf]
  | and | or | xor | exch | cas => rfl

end Sys2Proof.Cert
end

section
/-! SUPPORT. Atomics and `cas` as they issue (R230). -/

namespace Sys2Proof.Cert

open Sys2Proof.Machine

/-- A lane mask is given by its lanes. -/
theorem lanesAre_maskOf {m : LaneMask} {p : Nat → Prop} {f : Nat → Bool} (h : LanesAre m p) (hf : ∀ n, n < 32 → (f n = true ↔ p n)) :
    maskOf f = m := by
  refine BitVec.eq_of_getLsbD_eq fun n hn => ?_
  rw [maskOf_getLsbD f hn, Bool.eq_iff_iff, hf n hn, h n hn]

/-- A lane that is not SOFT meets no soft miss: when it has no place, CLAMP has dropped it. -/
theorem reach_place_none {s : State} {crew : Crew} {b : Buf} {clamp read write mapOk : Bool} {align lane i : Nat}
    {typeOk : Nat → Xlat → Bool} {x : Reached} (h : s.reach crew b clamp false align read write mapOk typeOk lane i = .ok x) :
    x.place = none ↔ x = .dropped := by
  cases x with
  | soft a =>
    -- the one branch that answers a soft miss asks for SOFT
    exfalso
    revert h
    unfold State.reach
    dsimp only
    repeat' split
    all_goals simp_all
  | _ => simp [Reached.place]

/-- The lanes of a word without SOFT that have no place are those that CLAMP has dropped. -/
theorem reachAll_place_none {v : View} {s : State} {b : Buf} {clamp read write mapOk : Bool} {typeOk : Nat → Xlat → Bool}
    {u : BitVec 1} {a : BitVec 7} {e : Nat × Reached}
    (h : e ∈ (v.reachAll s b clamp false read write mapOk typeOk u a).2) : e.2.place = none ↔ e.2 = .dropped := by
  simp only [View.reachAll, splitLanes, List.mem_filterMap, List.mem_map] at h
  obtain ⟨_, ⟨n, -, rfl⟩, h⟩ := h
  split at h
  · rename_i x hx
    obtain rfl := Option.some.inj h
    exact reach_place_none hx
  · cases h

/-! ## The requests of an atomic -/

/-- Zeros are asked for, if there are any. -/
def askZeros (s : State) (v : View) (zeros : List RegWrite) : State :=
  if zeros.isEmpty then s else s.addOp v.src (.result zeros Exc.none) true false

/-- The sectors of a core that accesses name go home and leave, and the accesses are asked for, if there are any. -/
def askAtomic (s : State) (v : View) (op : AtomOp) (d size : Nat) (cmp : List DWord) (accs : List Access) : State :=
  let touched := fun (pa : Nat) => accs.any fun x => match x.place with
    | .pa y => y / 64 == pa / 64
    | _ => false
  let s1 := (s.writeBack v.crew.core touched).dropSectors v.crew.core touched
  if accs.isEmpty then s1 else s1.addOp v.src (.atomic op d size cmp accs) true false

theorem askZeros_frame (s : State) (v : View) (zeros : List RegWrite) :
    (askZeros s v zeros).mem = s.mem ∧ (askZeros s v zeros).cores = s.cores ∧ s.nextId ≤ (askZeros s v zeros).nextId := by
  unfold askZeros
  split <;> simp

/-- Zeros asked for are a request that leaves them to its completion. -/
theorem askZeros_leaves {s s0 : State} {v : View} {zeros : List RegWrite} (h : zeros ≠ []) (hn : s0.nextId ≤ s.nextId) :
    Leaves s0 (askZeros s v zeros) v zeros := by
  unfold askZeros
  rw [if_neg (by simpa using h)]
  exact ⟨_, List.mem_append_right _ (List.mem_singleton.mpr rfl), hn, rfl, rfl⟩

variable {s s0 : State} {v : View} {op : AtomOp} {d size : Nat} {cmp : List DWord} {accs : List Access}

/-- An atomic that is asked for keeps what earlier requests leave. -/
theorem askAtomic_leaves {ws : List RegWrite} (h : Leaves s0 s v ws) : Leaves s0 (askAtomic s v op d size cmp accs) v ws := by
  obtain ⟨o, ho, hr⟩ := h
  refine ⟨o, ?_, hr⟩
  unfold askAtomic
  dsimp only
  split <;> simp [State.dropSectors, ho]

/-- An atomic that is asked for is the last request. -/
theorem askAtomic_last (h : accs ≠ []) (hn : s0.nextId ≤ s.nextId) :
    ∃ o, (askAtomic s v op d size cmp accs).ops.getLast? = some o ∧ s0.nextId ≤ o.id ∧ o.src = v.src ∧
      o.kind = .atomic op d size cmp accs := by
  unfold askAtomic
  dsimp only
  rw [if_neg (by simpa using h), State.addOp_ops, List.getLast?_concat]
  exact ⟨_, rfl, by simpa [State.dropSectors] using hn, rfl, rfl⟩

/-- An atomic that is asked for changes only bytes that its core holds dirty. -/
theorem askAtomic_byte {b : Nat} (h : ∀ q, ¬ DirtyAt s v.crew.core (fun _ => true) b q) :
    (askAtomic s v op d size cmp accs).byte b = s.byte b := by
  have kept : ∀ p, ((s.writeBack v.crew.core p).dropSectors v.crew.core p).byte b = s.byte b := fun p =>
    (State.byte_congr (State.mapCore_mem ..) b).trans
      ((writeBack_writtenBack s v.crew.core p).kept b fun ⟨q, hq⟩ => h q ⟨hq.1, rfl, hq.2.2⟩)
  unfold askAtomic
  dsimp only
  split
  · exact kept _
  · exact (State.byte_congr (State.addOp_mem ..) b).trans (kept _)

/-- An atomic as it issues, for every word whose meaning is `atomWord`. -/
theorem atomicForm_of_exec {op : AtomOp} {i : BitVec 7 → BitVec 7 → BitVec 7 → BitVec 4 → Instr}
    (hi : ∀ d a bv n s, exec (i d a bv n) s = atomWord op d a bv n s) : AtomicForm op i := by
  intro d a bv n s v buf wide hp r bad data
  refine ⟨fun hb => ?_, fun hb => ?_⟩
  · have hbad : (!bad.isEmpty) = true := by simpa using hb
    exact wordFaults_of_body (hi d a bv n s) hp (if_pos hbad)
  have hbad : ¬ (!bad.isEmpty) = true := by simpa using hb
  obtain ⟨tlb, hr⟩ := s.rememberAll_frame v.crew r.2
  let zeros := zeroWrites d.toNat wide (reachedLanes r.2 fun x => x.place.isNone)
  let s1 := askZeros (s.rememberAll v.crew r.2) v zeros
  let accs := accessesOf r.2 buf.size fun l => leBytes (v.w.laneBits wide bv.toNat l) buf.size ++ buf.rawMark
  let cmp := accs.map fun x => BitVec.ofNat 64 (v.w.laneBits wide d.toNat x.lane)
  have hn : s.nextId ≤ (s.rememberAll v.crew r.2).nextId := Nat.le_of_eq (by rw [hr])
  obtain ⟨hmem, hcores, hn1⟩ := askZeros_frame (s.rememberAll v.crew r.2) v zeros
  refine ⟨askAtomic s1 v op d.toNat buf.size cmp accs,
    wordDone_of_long (hi d a bv n s) hp rfl (if_neg hbad), fun zero hz h0 => ?_, fun ⟨e, he, hpl⟩ => ?_,
    fun b hq => ?_⟩
  · have hm : reachedLanes r.2 (fun x => x.place.isNone) = zero := by
      refine lanesAre_maskOf hz fun n _ => ?_
      simp only [List.any_eq_true, Bool.and_eq_true, beq_iff_eq, Option.isNone_iff_eq_none]
      constructor
      · rintro ⟨e, he, rfl, hpl⟩
        rwa [← (reachAll_place_none he).mp hpl]
      · exact fun h => ⟨_, h, rfl, rfl⟩
    have hzw : zeros = Cert.zeros wide d.toNat zero := by
      simp only [zeros, hm, zeroWrites, if_neg h0, Cert.zeros]
    rw [← hzw]
    exact askAtomic_leaves (askZeros_leaves (by simp [hzw, Cert.zeros]) hn)
  · obtain ⟨p, hp⟩ := Option.ne_none_iff_exists'.mp hpl
    have : accs ≠ [] := List.ne_nil_of_mem (List.mem_filterMap.mpr ⟨e, he, by rw [hp]; rfl⟩)
    obtain ⟨o, hl, hid, hsrc, hk⟩ := askAtomic_last (op := op) (v := v) (d := d.toNat) (size := buf.size) (cmp := cmp) this
      (Nat.le_trans hn hn1)
    exact ⟨o, cmp, accs, hl, hid, hsrc, hk, rfl, rfl⟩
  · have h1 : ∀ c, s1.core c = s.core c := fun c => by unfold State.core; rw [hcores, hr]
    rw [askAtomic_byte fun q => by unfold DirtyAt; rw [h1]; exact hq q]
    exact State.byte_congr (hmem.trans (by rw [hr])) b

end Sys2Proof.Cert
end

section
/-! PROOF. Atomics and `cas`. -/

namespace Sys2Proof.Cert

open Sys2Proof.Machine

/-- Settles O33: the words by the one meaning that they share, and a lane at its home by what its write-back, its write and its
lane leave. -/
theorem atomicsAndCompareSwap : Obligations.AtomicsAndCompareSwap := by
  unfold Obligations.AtomicsAndCompareSwap
  have form := fun op i => atomicForm_of_exec (op := op) (i := i)
  refine ⟨form .add .atomAdd fun _ _ _ _ _ => rfl, form .min .atomMin fun _ _ _ _ _ => rfl,
    form .max .atomMax fun _ _ _ _ _ => rfl, form .and .atomAnd fun _ _ _ _ _ => rfl, form .or .atomOr fun _ _ _ _ _ => rfl,
    form .xor .atomXor fun _ _ _ _ _ => rfl, form .exch .atomExch fun _ _ _ _ _ => rfl, form .cas .cas fun _ _ _ _ _ => rfl, ?_⟩
  intro s id o op d size cmp x rest a w ⟨ho, hst, _, _⟩ hk hm hx hw ht hu hl hn hs _
  obtain rfl := State.op_id ho
  have run := exec_atomicPerform ho hk hm hw hst ht (State.badLanes_nil hu) hx
  have home := writeBack_writtenBack s (s.coreOf o) fun pa => pa / 64 == a / 64
  obtain ⟨sl, hwarp⟩ := State.putLeft_warp (.atomic op d size (cmp.drop 1) rest) rest
    (State.afterAtomic_warp op d size (cmp.headD 0).toNat x a hl)
  refine ⟨_, _, _, _, run, home, atomValue_newValue .., fun k hk => ?_, fun b hb hq => ?_, hwarp,
    Warp.laneBits_writeLane hs w _ d hn (State.atomicOld_lt ..), fun r n h32 h => Warp.vreg_writeLane_ne w _ d h32 h, ?_,
    fun h => State.putLeft_cons_op h ?_⟩
  · rw [State.byte_congr (State.putLeft_mem ..), State.afterAtomic_byte, if_pos (by omega), Nat.add_sub_cancel_left,
      leBytes_getD _ _ _ hk]
    rfl
  · rw [State.byte_congr (State.putLeft_mem ..), State.afterAtomic_byte, if_neg (by omega)]
    exact home.kept b fun ⟨q, h⟩ => hq q h
  · rintro rfl
    rw [State.putLeft_nil_ops, State.afterAtomic_ops]
  · unfold State.op
    rw [State.afterAtomic_ops]
    exact ho

end Sys2Proof.Cert
end

section
/-! SUPPORT. Laws of tables: what is listed is a member, and what a table made of numbers lists. -/

namespace Sys2Proof

/-- What a table lists is one of its pairs. -/
theorem Tab.mem_of_lookup {α : Type} {k : Nat} {v : α} {t : Tab α} (h : Tab.lookup k t = some v) : (k, v) ∈ t := by
  induction t with
  | nil => cases h
  | cons e t ih =>
    obtain ⟨j, u⟩ := e
    rw [Tab.lookup_cons] at h
    split at h
    · subst_vars
      cases h
      exact .head _
    · exact .tail _ (ih h)

/-- A table made of a list of numbers lists every one of them. -/
theorem Tab.lookup_map_pair {α : Type} (f : Nat → α) {l : List Nat} {p : Nat} (h : p ∈ l) :
    Tab.lookup p (l.map fun q => (q, f q)) = some (f p) := by
  induction l with
  | nil => cases h
  | cons q l ih =>
    rw [List.map_cons, Tab.lookup_cons]
    split
    · subst_vars; rfl
    · rcases List.mem_cons.mp h with rfl | h
      · contradiction
      · exact ih h

end Sys2Proof
end

section
/-! SUPPORT. Laws of shots, of records in fault queues, and of errors of memory (R56, R71, R377). -/

namespace Sys2Proof.Machine

/-! ## Shots -/

/-- A trigger changes the latched registers alone. -/
theorem State.takeShot_frame (s : State) (x : ShotSource) (tag : Option Word) :
    s.takeShot x tag = { s with shot := (s.takeShot x tag).shot } := by
  unfold State.takeShot
  split <;> rfl

/-- An error event changes the latched registers alone. -/
theorem State.errorShot_frame (s : State) (n : Nat) : s.errorShot n = { s with shot := (s.errorShot n).shot } := by
  unfold State.errorShot
  split
  · rfl
  · exact s.takeShot_frame ..

@[simp] theorem State.takeShot_ops (s : State) (x : ShotSource) (tag : Option Word) : (s.takeShot x tag).ops = s.ops := by
  rw [State.takeShot_frame]

@[simp] theorem State.takeShot_nextId (s : State) (x : ShotSource) (tag : Option Word) :
    (s.takeShot x tag).nextId = s.nextId := by rw [State.takeShot_frame]

@[simp] theorem State.errorShot_mem (s : State) (n : Nat) : (s.errorShot n).mem = s.mem := by rw [State.errorShot_frame]
@[simp] theorem State.errorShot_bad (s : State) (n : Nat) : (s.errorShot n).bad = s.bad := by rw [State.errorShot_frame]
@[simp] theorem State.errorShot_crews (s : State) (n : Nat) : (s.errorShot n).crews = s.crews := by rw [State.errorShot_frame]
@[simp] theorem State.errorShot_ctxs (s : State) (n : Nat) : (s.errorShot n).ctxs = s.ctxs := by rw [State.errorShot_frame]
@[simp] theorem State.errorShot_plant (s : State) (n : Nat) : (s.errorShot n).plant = s.plant := by rw [State.errorShot_frame]

/-- An error event that Gallery has masked takes no shot. -/
theorem State.errorShot_masked {s : State} {n : Nat} (h : s.plant.shotMask.getLsbD n = true) : s.errorShot n = s :=
  if_pos h

/-- An error event that is not masked leaves a shot: one in progress, or one of its own. -/
theorem State.errorShot_unmasked {s : State} {n : Nat} (h : s.plant.shotMask.getLsbD n = false) :
    ∃ y, (s.errorShot n).shot = some y ∧ (s.shot = none → y.source = .errorEvent) := by
  unfold State.errorShot State.takeShot
  rw [if_neg (by simp [h])]
  cases hs : s.shot with
  | none => exact ⟨_, rfl, fun _ => rfl⟩
  | some y => exact ⟨y, by simp [hs], by simp⟩

/-! ## Records of a fault queue -/

/-- The bits of a number put into a word, read back. -/
theorem getLsbD_field (lo v i : Nat) : (field lo v).getLsbD i = (decide (i < 32) && (decide (lo ≤ i) && v.testBit (i - lo))) := by
  rw [field, BitVec.getLsbD_ofNat, Nat.testBit_mul_two_pow]

/-- The first word of a record names its cause (R56). -/
theorem FaultRecord.words_cause (r : FaultRecord) (h : r.word < 2 ^ 24) :
    (r.words.getD 0 0).extractLsb' 24 8 = BitVec.ofNat 8 r.cause := by
  have small : ∀ {n k i : Nat}, n < 2 ^ k → k ≤ i → n.testBit i = false := fun hn hk =>
    Nat.testBit_lt_two_pow (Nat.lt_of_lt_of_le hn (Nat.pow_le_pow_right (by decide) hk))
  have bool : ∀ b : Bool, b.toNat < 2 ^ 1 := fun b => by cases b <;> decide
  refine BitVec.eq_of_getLsbD_eq fun i hi => ?_
  simp only [FaultRecord.words, List.getD_cons_zero, BitVec.getLsbD_extractLsb', BitVec.getLsbD_or, getLsbD_field,
    BitVec.getLsbD_ofNat, small (bool _) (show 1 ≤ 24 + i - 22 by omega), small (bool _) (show 1 ≤ 24 + i - 21 by omega),
    small r.frag.isLt (show 8 ≤ 24 + i - 8 by omega), small h (show 24 ≤ 24 + i - 0 by omega),
    small (show 1 < 2 ^ 1 by decide) (show 1 ≤ 24 + i - 23 by omega)]
  simp [hi]
  omega

@[simp] theorem State.postFault_mem (s : State) (ctx : Nat) (r : FaultRecord) : (s.postFault ctx r).mem = s.mem :=
  State.mapCtx_mem ..
@[simp] theorem State.postFault_bad (s : State) (ctx : Nat) (r : FaultRecord) : (s.postFault ctx r).bad = s.bad :=
  State.mapCtx_bad ..
@[simp] theorem State.postFault_crews (s : State) (ctx : Nat) (r : FaultRecord) : (s.postFault ctx r).crews = s.crews :=
  State.mapCtx_crews ..
@[simp] theorem State.postFault_plant (s : State) (ctx : Nat) (r : FaultRecord) : (s.postFault ctx r).plant = s.plant :=
  State.mapCtx_plant ..
@[simp] theorem State.postFault_shot (s : State) (ctx : Nat) (r : FaultRecord) : (s.postFault ctx r).shot = s.shot :=
  State.mapCtx_shot ..

/-! ## Errors of memory -/

/-- A byte has an uncorrectable error when its granule is listed (R71). -/
theorem State.uncorrectable_one (s : State) (pa : Nat) : s.uncorrectable pa 1 = true ↔ granuleOf pa ∈ s.bad := by
  have same : ∀ g, (frameOf pa < (g + 1) * 2 ^ Config.granuleLog ∧ g * 2 ^ Config.granuleLog < frameOf pa + 1) ↔ g = granuleOf pa := by
    intro g
    have hp : 0 < 2 ^ Config.granuleLog := Nat.two_pow_pos _
    unfold granuleOf
    rw [Nat.lt_succ_iff, ← Nat.le_div_iff_mul_le hp, ← Nat.div_lt_iff_lt_mul hp]
    omega
  simp only [State.uncorrectable, List.any_eq_true, decide_eq_true_eq, same, exists_eq_right]

/-- A byte without an uncorrectable error, by its granule. -/
theorem State.not_uncorrectable_one {s : State} {pa : Nat} (h : s.uncorrectable pa 1 = false) :
    s.bad.contains (granuleOf pa) = false := by
  rw [← Bool.not_eq_true, List.contains_iff_mem, ← State.uncorrectable_one, h]
  decide

theorem State.uncorrectable_contains {s : State} {pa : Nat} (h : s.uncorrectable pa 1 = true) :
    s.bad.contains (granuleOf pa) = true := by
  rwa [List.contains_iff_mem, ← State.uncorrectable_one]

/-- Whose a physical address is rests on memory and the contexts' tables alone. -/
theorem State.mappings_congr {s t : State} (h : t.mem = s.mem) (frame : Nat) (ls : List (Nat × Nat × Nat)) (table va : Nat) :
    t.mappings frame ls table va = s.mappings frame ls table va := by
  have word : ∀ a, t.dword a = s.dword a := fun a => by simp only [State.dword, State.bytes, State.byte_congr h]
  induction ls generalizing table va with
  | nil => rfl
  | cons l ls ih => simp only [State.mappings, word, ih]

theorem State.ownerOf_congr {s t : State} (hm : t.mem = s.mem) (hc : t.ctxs = s.ctxs) (pa : Nat) : t.ownerOf pa = s.ownerOf pa := by
  simp only [State.ownerOf, hc, State.mappings_congr hm]

/-- The scrubber's count of a granule at its controller, and where it stands (R377, R379). -/
def State.countScrub (s : State) (pa c u : Nat) : State :=
  { s with plant := { (s.plant.mapController pa fun x => ⟨x.corrected + c, x.uncorrectable + u, pa⟩) with scrubAt := pa } }

/-- The scrubber at an uncorrectable granule: it counts, reports and asks for a shot. -/
theorem State.scrubMemory_bad {s : State} {pa : Nat} (hu : controllerOf pa ∉ s.plant.unused)
    (hb : s.bad.contains (granuleOf pa) = true) :
    s.scrubMemory pa = ((s.countScrub pa 0 1).reportGranule (granuleOf pa)).errorShot 2 := by
  unfold State.scrubMemory
  dsimp only
  rw [if_neg (by simpa using hu), if_pos hb]
  rfl

/-- The scrubber at a granule with a soft error: it counts and corrects. -/
theorem State.scrubMemory_soft {s : State} {pa : Nat} (hu : controllerOf pa ∉ s.plant.unused)
    (hb : s.bad.contains (granuleOf pa) = false) (hs : granuleOf pa ∈ s.plant.soft) :
    s.scrubMemory pa =
      let s1 := s.countScrub pa 1 0
      { s1 with plant := { s1.plant with
          soft := s1.plant.soft.filter (· != granuleOf pa)
          corrected := s1.plant.corrected + 1 } } := by
  unfold State.scrubMemory
  dsimp only
  rw [if_neg (by simpa using hu), if_neg (by rw [hb]; decide), if_pos (by simpa using hs)]
  rfl

/-- The record of an uncorrectable granule that has an owner. -/
theorem State.reportGranule_owned {s : State} {g ctx va : Nat} (h : s.ownerOf (g * 2 ^ Config.granuleLog) = some (ctx, va)) :
    s.reportGranule g = s.postFault ctx
      { cause := causeData, noRegion := true, origin := 5, addr := BitVec.ofNat 64 va, time := s.time } := by
  unfold State.reportGranule
  rw [h]

/-! ## Lines that go to DRAM -/

theorem State.flushLine_dram (s : State) (line a : Nat) :
    Tab.get 0 (s.flushLine line).dram a = if a / 256 = line then s.byte a else Tab.get 0 s.dram a := by
  unfold State.flushLine
  rw [get_putBytes]
  have len : (s.bytes (256 * line) 256).length = 256 := by simp [State.bytes]
  by_cases h : a / 256 = line
  · rw [if_pos (by omega), if_pos h, State.bytes_getD _ _ _ _ (by omega)]
    congr 1
    omega
  · rw [if_neg (by omega), if_neg h]

@[simp] theorem State.flushLine_unflushed (s : State) (line : Nat) : Tab.lookup line (s.flushLine line).unflushed = none :=
  Tab.lookup_erase_self ..

end Sys2Proof.Machine

namespace Sys2Proof.Cert

open Sys2Proof.Machine

/-- A trigger latches the module's registers, unless a shot is in progress (R377). -/
theorem takeShot_latched (s : State) (x : ShotSource) (tag : Option Word) : Latched s (s.takeShot x tag) x tag := by
  unfold Latched State.takeShot
  constructor
  · intro h
    rw [if_pos (Option.isSome_iff_ne_none.mpr h)]
  · intro h
    rw [if_neg (by simp [h])]
    exact ⟨_, rfl, rfl, rfl, rfl, rfl, rfl, rfl, rfl, rfl, rfl, by simp [State.latch],
      fun p hp => Tab.lookup_map_pair _ (List.mem_range.mpr hp),
      fun n => Tab.lookup_mapVals (fun _ (c : Core) => (c.gatecnt, c.replaycnt)) n s.cores⟩

/-- What is latched is all that counts. -/
theorem Latched.of_shot {s t u : State} {x : ShotSource} {tag : Option Word} (h : Latched s t x tag) (e : u.shot = t.shot) :
    Latched s u x tag := by
  unfold Latched at *
  rwa [e]

/-- A record posted to a context's fault queue is the last of it. -/
theorem postFault_recorded (s : State) (ctx : Nat) (r : FaultRecord) (h : r.word < 2 ^ 24) :
    Recorded s (s.postFault ctx r) ctx r.cause r.info := by
  intro c q hc hq
  refine ⟨{ c with faultQ := c.faultQ.map fun q => q.post r.words }, q.post r.words, r.words, ?_, by simp [hq], rfl,
    r.words_cause h, rfl⟩
  simp [State.postFault, State.mapCtx, hc]

/-- A record stands in its context's queue, whatever else changes. -/
theorem Recorded.congr {s t s' t' : State} {ctx cause : Nat} {info : Word} (h : Recorded s t ctx cause info)
    (hs : s'.ctxs = s.ctxs) (ht : t'.ctxs = t.ctxs) : Recorded s' t' ctx cause info := by
  unfold Recorded at *
  rwa [hs, ht]

/-- The record of an uncorrectable granule stands in its owner's queue (R71). -/
theorem reportGranule_recorded {s : State} {g ctx va : Nat} (h : s.ownerOf (g * 2 ^ Config.granuleLog) = some (ctx, va)) :
    Recorded s (s.reportGranule g) ctx causeData 0 := by
  rw [State.reportGranule_owned h]
  exact postFault_recorded s ctx _ (Nat.two_pow_pos 24)

end Sys2Proof.Cert
end

section
/-! SUPPORT. Laws of replays: which fragments a wake leaves no longer parked, and what it keeps (R12, R59, R61). -/

namespace Sys2Proof.Machine

/-! ## Warps whose fragments wake -/

/-- Fragments of a warp have woken: each stands in its place, under its number, and is as before or no longer parked. -/
def Roused (w u : Warp) : Prop :=
  u.crew = w.crew ∧ ∃ φ : Frag → Frag, u.frags = w.frags.map φ ∧
    ∀ f, fragNo (φ f).mask = fragNo f.mask ∧ (φ f = f ∨ (φ f).state ≠ .parked)

/-- No fragment of a number is parked. -/
def Warp.awake (w : Warp) (n : Nat) : Prop := ∀ g ∈ w.frags, fragNo g.mask = n → g.state ≠ .parked

/-- The fragments of a warp have numbers of their own. -/
def Warp.numbered (w : Warp) : Prop := (w.frags.map fun g => fragNo g.mask).Nodup

theorem Roused.refl (w : Warp) : Roused w w := ⟨rfl, id, by simp, fun _ => ⟨rfl, .inl rfl⟩⟩

theorem Roused.trans {w u x : Warp} (h : Roused w u) (k : Roused u x) : Roused w x := by
  obtain ⟨hc, φ, hf, hφ⟩ := h
  obtain ⟨kc, ψ, kf, hψ⟩ := k
  refine ⟨kc.trans hc, ψ ∘ φ, by rw [kf, hf, List.map_map], fun f => ⟨(hψ (φ f)).1.trans (hφ f).1, ?_⟩⟩
  rcases (hψ (φ f)).2 with e | e
  · rw [Function.comp, e]
    exact (hφ f).2
  · exact .inr e

theorem Roused.numbered {w u : Warp} (h : Roused w u) (hw : w.numbered) : u.numbered := by
  obtain ⟨-, φ, hf, hφ⟩ := h
  have same : ((fun g : Frag => fragNo g.mask) ∘ φ) = fun g => fragNo g.mask := funext fun f => (hφ f).1
  unfold Warp.numbered at *
  rwa [hf, List.map_map, same]

/-- A fragment that is no longer parked is parked by no wake. -/
theorem Roused.awake {w u : Warp} {n : Nat} (h : Roused w u) (hw : w.awake n) : u.awake n := by
  obtain ⟨-, φ, hf, hφ⟩ := h
  intro g hg hn
  rw [hf, List.mem_map] at hg
  obtain ⟨f, hm, rfl⟩ := hg
  rcases (hφ f).2 with e | e
  · rw [e] at hn ⊢
    exact hw f hm hn
  · exact e

/-- Members of a list that a function tells apart are one when it does not. -/
theorem eq_of_nodup_map {α β : Type} {f : α → β} {l : List α} (h : (l.map f).Nodup) {x y : α} (hx : x ∈ l) (hy : y ∈ l)
    (e : f x = f y) : x = y := by
  induction l with
  | nil => cases hx
  | cons a l ih =>
    rw [List.map_cons, List.nodup_cons] at h
    rcases List.mem_cons.mp hx with rfl | hx' <;> rcases List.mem_cons.mp hy with rfl | hy'
    · rfl
    · exact absurd (e ▸ List.mem_map_of_mem hy') h.1
    · exact absurd (e ▸ List.mem_map_of_mem hx') h.1
    · exact ih h.2 hx' hy'

/-- In a warp whose fragments have numbers of their own, one fragment that is not parked makes its number awake. -/
theorem Warp.numbered.awake {w : Warp} (hw : w.numbered) {f : Frag} (hm : f ∈ w.frags) (hs : f.state ≠ .parked) :
    w.awake (fragNo f.mask) := by
  intro g hg hn
  rwa [eq_of_nodup_map hw hg hm hn]

/-- A fragment is as it was, or no longer parked. -/
theorem Roused.mem_or_awake {w u : Warp} (h : Roused w u) (hw : w.numbered) {f : Frag} (hm : f ∈ w.frags) :
    f ∈ u.frags ∨ u.awake (fragNo f.mask) := by
  have hu := h.numbered hw
  obtain ⟨-, φ, hf, hφ⟩ := h
  have hm' : φ f ∈ u.frags := hf ▸ List.mem_map_of_mem hm
  rcases (hφ f).2 with e | e
  · exact .inl (e ▸ hm')
  · exact .inr ((hφ f).1 ▸ hu.awake hm' e)

/-! ## One warp -/

/-- Slices changed leave the rest of the warp as it is. -/
theorem Warp.mapSlices_frame (w : Warp) (m : SliceMask) (f : Nat → Slice → Slice) :
    w.mapSlices m f = { w with slices := (w.mapSlices m f).slices } := by
  unfold Warp.mapSlices
  induction sliceList m generalizing w with
  | nil => rfl
  | cons k l ih => exact ih (w.setSlice k (f k (w.slice k)))

theorem Warp.goingState_ne_parked (w : Warp) (m : SliceMask) : w.goingState m ≠ .parked := by
  unfold Warp.goingState
  split <;> simp

/-- A woken fragment takes the place of its number, and is no longer parked (R59). -/
theorem Warp.resume_some {w : Warp} {n : Nat} {f : Frag} (h : w.frag n = some f) :
    ∃ (sl : List Slice) (g : Frag), w.resume n = ({ w with slices := sl } : Warp).putFrag n g ∧ g.mask = f.mask ∧
      g.state ≠ .parked := by
  have going : (if w.over f.mask then FragState.done else w.goingState f.mask) ≠ .parked := by
    split
    · simp
    · exact w.goingState_ne_parked _
  unfold Warp.resume
  rw [h]
  dsimp only
  split
  · exact ⟨_, _, congrArg (Warp.putFrag · n _) (w.mapSlices_frame _ _), rfl, going⟩
  · exact ⟨w.slices, _, rfl, rfl, going⟩

/-- A wake of a number rouses the warp and leaves the number awake. -/
theorem Warp.resume_roused {w : Warp} {n : Nat} {f : Frag} (h : w.frag n = some f) :
    Roused w (w.resume n) ∧ (w.resume n).awake n := by
  obtain ⟨sl, g, e, hm, hs⟩ := Warp.resume_some h
  have hg : fragNo g.mask = n := hm ▸ Warp.frag_no h
  rw [e]
  refine ⟨⟨rfl, fun x => if fragNo x.mask == n then g else x, rfl, fun x => ?_⟩, fun x hx hn => ?_⟩
  · by_cases hx : fragNo x.mask = n
    · simp [hx, hg, hs]
    · simp [hx]
  · obtain ⟨y, -, rfl⟩ := List.mem_map.mp hx
    by_cases hy : fragNo y.mask = n
    · simpa [hy] using hs
    · simp [hy] at hn

/-! ## The state -/

/-- Fragments have woken: warps are roused, entries that stand for a page are as they were, and nothing else but token entries has
changed. -/
structure Woken (s t : State) : Prop where
  warps : ∀ k w, Tab.lookup k s.warps = some w → ∃ u, Tab.lookup k t.warps = some u ∧ Roused w u
  pages : ∀ e c g r x, Tab.lookup e s.waits = some (.page c g r x) → Tab.lookup e t.waits = some (.page c g r x)
  rest : ∃ w x, t = { s with warps := w, waits := x }

theorem Woken.refl (s : State) : Woken s s := ⟨fun _ w h => ⟨w, h, .refl w⟩, fun _ _ _ _ _ h => h, _, _, rfl⟩

theorem Woken.trans {s t u : State} (h : Woken s t) (k : Woken t u) : Woken s u where
  warps n w hw := by
    obtain ⟨x, hx, r1⟩ := h.warps n w hw
    obtain ⟨y, hy, r2⟩ := k.warps n x hx
    exact ⟨y, hy, r1.trans r2⟩
  pages e c g r x hp := k.pages e c g r x (h.pages e c g r x hp)
  rest := by
    obtain ⟨_, _, e1⟩ := h.rest
    obtain ⟨x, y, e2⟩ := k.rest
    exact ⟨x, y, e2.trans (by rw [e1])⟩

/-- A number of a warp is awake, and the warp's fragments have numbers of their own. -/
def State.awake (s : State) (k n : Nat) : Prop := ∃ w, Tab.lookup k s.warps = some w ∧ w.numbered ∧ w.awake n

theorem Woken.awake {s t : State} {k n : Nat} (h : Woken s t) (hs : s.awake k n) : t.awake k n := by
  obtain ⟨w, hw, hn, ha⟩ := hs
  obtain ⟨u, hu, r⟩ := h.warps k w hw
  exact ⟨u, hu, r.numbered hn, r.awake ha⟩

/-- A warp put back with fragments that have woken. -/
theorem State.setWarp_woken {s : State} {k : Nat} {w u : Warp} (h : Tab.lookup k s.warps = some w) (hr : Roused w u) :
    Woken s (s.setWarp k u) where
  warps j x hx := by
    rw [State.setWarp_warps, Tab.lookup_put]
    split
    · subst_vars
      obtain rfl := Option.some.inj (h.symm.trans hx)
      exact ⟨u, rfl, hr⟩
    · exact ⟨x, hx, .refl x⟩
  pages _ _ _ _ _ h := h
  rest := ⟨_, _, rfl⟩

/-- A token entry freed. -/
theorem State.eraseToken_woken {s : State} {m c w f : Nat} (h : Tab.lookup m s.waits = some (.token c w f)) :
    Woken s { s with waits := Tab.erase m s.waits } where
  warps _ w h := ⟨w, h, .refl w⟩
  pages e c g r x hp := by
    have : e ≠ m := by
      rintro rfl
      rw [h] at hp
      cases hp
    exact (Tab.lookup_erase_ne this _).trans hp
  rest := ⟨_, _, rfl⟩

/-- A wake of a fragment that is parked resumes it, and frees its token entry. -/
theorem State.wake_parked {s : State} {k n : Nat} {w : Warp} {f : Frag} (hw : Tab.lookup k s.warps = some w)
    (hf : w.frag n = some f) (hs : f.state = .parked) : Woken (s.setWarp k (w.resume n)) (s.wake k n) := by
  unfold State.wake
  simp only [hw, hf, hs, bne_self_eq_false, Bool.false_eq_true, if_false]
  split
  · split
    · rename_i ht
      exact State.eraseToken_woken (s := s.setWarp k (w.resume n)) ht
    · exact .refl _
  · exact .refl _

/-- A wake of no fragment, or of one that is not parked, changes nothing. -/
theorem State.wake_idle {s : State} {k n : Nat} (h : ∀ w f, Tab.lookup k s.warps = some w → w.frag n = some f → f.state ≠ .parked) :
    s.wake k n = s := by
  unfold State.wake
  split
  · rfl
  · rename_i w hw
    split
    · rfl
    · rename_i f hf
      rw [if_pos (by simpa using h w f hw hf)]

/-- A wake of a fragment wakes, and after it the fragment's number is awake. -/
theorem State.wake_woken (s : State) (k n : Nat) :
    Woken s (s.wake k n) ∧ ∀ w, Tab.lookup k s.warps = some w → w.numbered → (s.wake k n).awake k n := by
  by_cases h : ∃ w f, Tab.lookup k s.warps = some w ∧ w.frag n = some f ∧ f.state = .parked
  · obtain ⟨w, f, hw, hf, hs⟩ := h
    obtain ⟨hr, ha⟩ := Warp.resume_roused hf
    have h2 := State.wake_parked hw hf hs
    refine ⟨(State.setWarp_woken hw hr).trans h2, fun x hx hn => h2.awake ⟨w.resume n, State.lookup_setWarp .., ?_, ha⟩⟩
    obtain rfl := Option.some.inj (hw.symm.trans hx)
    exact hr.numbered hn
  · have idle : ∀ w f, Tab.lookup k s.warps = some w → w.frag n = some f → f.state ≠ .parked := fun w f hw hf hs =>
      h ⟨w, f, hw, hf, hs⟩
    rw [State.wake_idle idle]
    refine ⟨.refl s, fun w hw hn => ⟨w, hw, hn, fun g hg hgn => ?_⟩⟩
    cases hf : w.frag n with
    | none => exact absurd (beq_iff_eq.mpr hgn) (List.find?_eq_none.mp hf g hg)
    | some f =>
      have := hn.awake (List.mem_of_find?_eq_some hf) (idle w f hw hf)
      rw [Warp.frag_no hf] at this
      exact this g hg hgn

theorem foldl_woken {α : Type} {f : State → α → State} (h : ∀ s x, Woken s (f s x)) (l : List α) (s : State) :
    Woken s (l.foldl f s) := by
  induction l generalizing s with
  | nil => exact .refl s
  | cons x l ih => exact (h s x).trans (ih _)

/-- A list of wakes, one of which makes a number awake. -/
theorem foldl_awake {α : Type} {f : State → α → State} (h : ∀ s x, Woken s (f s x)) {k n : Nat} {x : α} {l : List α} (hx : x ∈ l)
    (hs : ∀ t w, Tab.lookup k t.warps = some w → w.numbered → (f t x).awake k n) (s : State) {w : Warp}
    (hw : Tab.lookup k s.warps = some w) (hn : w.numbered) : (l.foldl f s).awake k n := by
  obtain ⟨a, b, rfl⟩ := List.append_of_mem hx
  rw [List.foldl_append, List.foldl_cons]
  obtain ⟨u, hu, r⟩ := (foldl_woken h a s).warps k w hw
  exact (foldl_woken h b _).awake (hs _ u hu (r.numbered hn))

/-- Wakes the fragments of one warp that are parked under an entry. -/
def State.wakeFrag (entry : Nat) (test : Bool) (k : Nat) (s : State) (f : Frag) : State :=
  match f.park with
  | some (m, _) => if f.state == .parked && m == entry && test then s.wake k (fragNo f.mask) else s
  | none => s

theorem State.wakeAll_eq (s : State) (entry : Nat) (test : Warp → Bool) :
    s.wakeAll entry test = s.warps.foldl (fun s e => e.2.frags.foldl (State.wakeFrag entry (test e.2) e.1) s) s := rfl

theorem State.wakeFrag_woken (entry : Nat) (test : Bool) (k : Nat) (s : State) (f : Frag) :
    Woken s (State.wakeFrag entry test k s f) := by
  unfold State.wakeFrag
  split
  · split
    · exact (s.wake_woken ..).1
    · exact .refl s
  · exact .refl s

theorem State.wakeAll_woken (s : State) (entry : Nat) (test : Warp → Bool) : Woken s (s.wakeAll entry test) := by
  rw [State.wakeAll_eq]
  exact foldl_woken (fun s (e : Nat × Warp) => foldl_woken (State.wakeFrag_woken entry (test e.2) e.1) _ s) _ s

/-- A wake of all fragments under an entry leaves none of them parked. -/
theorem State.wakeAll_awake {s : State} {k entry : Nat} {test : Warp → Bool} {w : Warp} {f : Frag} {r : Restart}
    (hw : Tab.lookup k s.warps = some w) (hn : w.numbered) (hf : f ∈ w.frags) (hs : f.state = .parked)
    (hp : f.park = some (entry, r)) (ht : test w = true) : (s.wakeAll entry test).awake k (fragNo f.mask) := by
  rw [State.wakeAll_eq]
  refine foldl_awake (fun s (e : Nat × Warp) => foldl_woken (State.wakeFrag_woken entry (test e.2) e.1) _ s) (Tab.mem_of_lookup hw)
    (fun t u hu hn => ?_) s hw hn
  refine foldl_awake (State.wakeFrag_woken entry (test w) k) hf (fun t u hu hn => ?_) t hu hn
  simp only [State.wakeFrag, hp, hs, ht, beq_self_eq_true, Bool.and_self, if_true]
  exact (State.wake_woken ..).2 u hu hn

/-! ## Replays -/

/-- Is a warp one of a context, whose fragments its replays wake? -/
def State.ofContext (s : State) (ctx : Nat) (w : Warp) : Bool := s.ctxOfCrew w.crew == ctx

/-- The first half of a replay: the fragments under the entry, when it is the context's, wake, and a page entry is released. -/
def State.replayOwn (s : State) (ctx entry : Nat) : State :=
  match Tab.lookup entry s.waits with
  | some (.page c g released _) =>
    if entry ≠ 0 ∧ c = ctx then
      if released then s.wakeAll entry (s.ofContext ctx)
      else
        { (s.wakeAll entry (s.ofContext ctx)) with
          waits := Tab.put entry (.page c g true s.nextId) s.waits
          nextId := s.nextId + 1 }
    else s
  | some (.token c _ _) => if entry ≠ 0 ∧ c = ctx then s.wakeAll entry (s.ofContext ctx) else s
  | none => s

/-- The second half: the context's overflow fragments wake (R61). -/
theorem State.replayEntry_eq (s : State) (ctx entry : Nat) :
    s.replayEntry ctx entry = (s.replayOwn ctx entry).wakeAll 0 (s.ofContext ctx) := rfl

end Sys2Proof.Machine

namespace Sys2Proof.Cert

open Sys2Proof.Machine

/-- What the first half of a replay of an entry comes to: the wakes under an entry of the context, and a page entry released. -/
theorem replayOwn_of_entry {s : State} {ctx entry : Nat} (h : EntryOf s ctx entry) :
    ∃ x n, s.replayOwn ctx entry = { s.wakeAll entry (s.ofContext ctx) with waits := x, nextId := n } ∧
      ∀ g r y, Tab.lookup entry s.waits = some (.page ctx g r y) → ∃ z, Tab.lookup entry x = some (.page ctx g true z) := by
  obtain ⟨h0, ⟨g, r, y, hp⟩ | ⟨w, f, ht⟩⟩ := h
  · unfold State.replayOwn
    simp only [hp, h0, ne_eq, not_false_eq_true, and_self, if_true]
    cases r with
    | true =>
      refine ⟨_, _, rfl, fun g' r' y' e => ⟨y, ?_⟩⟩
      cases e
      exact (s.wakeAll_woken entry _).pages _ _ _ _ _ hp
    | false =>
      refine ⟨_, _, rfl, fun g' r' y' e => ⟨s.nextId, ?_⟩⟩
      cases e
      exact Tab.lookup_put_self ..
  · unfold State.replayOwn
    simp only [ht, h0, ne_eq, not_false_eq_true, and_self, if_true]
    exact ⟨_, _, rfl, fun g r y e => by cases e⟩

/-- The first half of a replay of no entry of the context changes nothing. -/
theorem replayOwn_of_none {s : State} {ctx entry : Nat} (h : ¬ EntryOf s ctx entry) : s.replayOwn ctx entry = s := by
  unfold State.replayOwn
  split
  · rename_i c g r y hp
    refine if_neg fun ⟨h0, e⟩ => h ⟨h0, .inl ⟨g, r, y, e ▸ hp⟩⟩
  · rename_i c w f ht
    refine if_neg fun ⟨h0, e⟩ => h ⟨h0, .inr ⟨w, f, e ▸ ht⟩⟩
  · rfl

/-- The first half of a replay rouses warps, wakes what is parked under an entry of the context, and keeps the rest. -/
theorem replayOwn_spec (s : State) (ctx entry : Nat) :
    (∀ k w, Tab.lookup k s.warps = some w → ∃ u, Tab.lookup k (s.replayOwn ctx entry).warps = some u ∧ Roused w u) ∧
    (EntryOf s ctx entry → (s.replayOwn ctx entry).warps = (s.wakeAll entry (s.ofContext ctx)).warps) ∧
    ∃ w x n, s.replayOwn ctx entry = { s with warps := w, waits := x, nextId := n } := by
  have hw := s.wakeAll_woken entry (s.ofContext ctx)
  by_cases h : EntryOf s ctx entry
  · obtain ⟨x, n, e, -⟩ := replayOwn_of_entry h
    obtain ⟨w, _, e1⟩ := hw.rest
    rw [e]
    exact ⟨hw.warps, fun _ => rfl, w, x, n, by rw [e1]⟩
  · rw [replayOwn_of_none h]
    exact ⟨fun k w h => ⟨w, h, .refl w⟩, fun h' => absurd h' h, _, _, _, rfl⟩

/-- A replay of an entry (R12, R61, R371). -/
theorem replayEntry_replayed (s : State) (ctx entry : Nat) : Replayed s (s.replayEntry ctx entry) ctx entry := by
  obtain ⟨hr, he, _, _, _, hrest⟩ := replayOwn_spec s ctx entry
  have h0 := (s.replayOwn ctx entry).wakeAll_woken 0 (s.ofContext ctx)
  rw [State.replayEntry_eq]
  refine ⟨fun k w f m r hw hc hf hn hs hp hm => ?_, fun g r x h hp => ?_, ?_⟩
  · have mine : s.ofContext ctx w = true := beq_iff_eq.mpr hc
    obtain ⟨u, hu, hwu⟩ := hr k w hw
    have woke : ((s.replayOwn ctx entry).wakeAll 0 (s.ofContext ctx)).awake k (fragNo f.mask) := by
      rcases hm with rfl | ⟨rfl, hent⟩
      · rcases hwu.mem_or_awake hn hf with h | h
        · exact State.wakeAll_awake hu (hwu.numbered hn) h hs hp (by unfold State.ofContext at *; rwa [hwu.1])
        · exact h0.awake ⟨u, hu, hwu.numbered hn, h⟩
      · refine h0.awake ?_
        obtain ⟨x, hx⟩ := State.wakeAll_awake hw hn hf hs hp mine
        exact ⟨x, by rw [he hent]; exact hx.1, hx.2⟩
    obtain ⟨x, hx, -, ha⟩ := woke
    exact ⟨x, hx, ha⟩
  · obtain ⟨y, n, e, hy⟩ := replayOwn_of_entry (s := s) (ctx := ctx) (entry := entry) ⟨h, .inl ⟨g, r, x, hp⟩⟩
    obtain ⟨z, hz⟩ := hy g r x hp
    exact ⟨z, h0.pages _ _ _ _ _ (by rw [e]; exact hz)⟩
  · obtain ⟨_, _, e⟩ := h0.rest
    rw [e, hrest]

/-- A replay of a page is one of its entry, or of none (R371). -/
theorem replayPage_eq (s : State) (ctx va : Nat) : s.replayPage ctx va = s.replayEntry ctx (pageTarget s ctx va) := by
  unfold State.replayPage pageTarget
  cases s.pageEntry ctx (va / 65536) <;> rfl

/-- A replay word (R371), for every word whose meaning is `replayWord`. -/
theorem replayForm_of_exec {token : Bool} {i : BitVec 7 → Instr} (hi : ∀ a s, exec (i a) s = replayWord token a s) :
    ReplayForm token i := by
  intro a s v x y hp
  refine ⟨fun h => wordFaults_of_body (hi a s) hp (if_pos (by rw [h]; rfl)), fun h => ?_⟩
  have hb : ¬ (!s.privileged v.crew.ctx) = true := by rw [h]; decide
  refine ⟨_, wordDone_of_short (hi a s) hp rfl (if_neg hb), ?_⟩
  cases token with
  | true => exact replayEntry_replayed s y x
  | false =>
    show Replayed s (s.replayPage y x) y (pageTarget s y x)
    rw [replayPage_eq]
    exact replayEntry_replayed ..

end Sys2Proof.Cert
end

section
/-! SUPPORT. Shots that words ask for, and what the scrubber and evictions do with uncorrectable granules (R71, R370, R377 to
R379). -/

namespace Sys2Proof.Cert

open Sys2Proof.Machine

/-! ## `snap` -/

/-- May a context take shots (R370)? -/
def mayShoot (s : State) (ctx : Nat) : Bool := ((Tab.lookup ctx s.ctxs).map (·.shots)).getD false

theorem mayShoot_iff {s : State} {ctx : Nat} : mayShoot s ctx = true ↔ ∃ c, Tab.lookup ctx s.ctxs = some c ∧ c.shots = true := by
  unfold mayShoot
  cases Tab.lookup ctx s.ctxs <;> simp

/-- What `snap` answers: 1 without permission, 2 when a shot is in progress, else 0 (R370). -/
def snapAnswer (s : State) (ctx : Nat) : Nat := if !mayShoot s ctx then 1 else if s.shot.isSome then 2 else 0

/-- The state after `snap`: it triggers a shot when it answers 0, and leaves its answer to its completion. -/
def snapped (s : State) (v : View) (d : Nat) (tag : Word) : State :=
  (if snapAnswer s v.crew.ctx = 0 then s.takeShot .snap (some tag) else s).addOp v.src
    (.result [.s d (BitVec.ofNat 64 (snapAnswer s v.crew.ctx))] Exc.none) true false

theorem snapped_ops (s : State) (v : View) (d : Nat) (tag : Word) :
    (snapped s v d tag).ops = s.ops ++ [⟨s.nextId, .result [.s d (BitVec.ofNat 64 (snapAnswer s v.crew.ctx))] Exc.none, v.src, true,
      false, s.nextId, s.nextId⟩] := by
  unfold snapped
  split <;> simp

/-- A `snap` that is refused takes no shot. -/
theorem snapped_refused {s : State} {v : View} {n : Nat} (d : Nat) (tag : Word) (h : snapAnswer s v.crew.ctx = n + 1) :
    (snapped s v d tag).shot = s.shot := by
  unfold snapped
  rw [if_neg (by omega), State.addOp_shot]

/-- A `snap` that is granted takes a shot. -/
theorem snapped_granted {s : State} {v : View} (d : Nat) (tag : Word) (h : snapAnswer s v.crew.ctx = 0) :
    Latched s (snapped s v d tag) .snap (some tag) := by
  unfold snapped
  rw [if_pos h]
  exact (takeShot_latched ..).of_shot (State.addOp_shot ..)

/-- `snap` as it issues (R370). -/
theorem snap_wordDone {d a : BitVec 7} {s : State} {v : View} (hp : Passes s v
      { reads := [.s a.toNat], writes := [.s d.toNat], long := true, ok := bitsOf (v.w.sreg a.toNat).toNat 16 48 == 0 }) :
    WordDone (.snap d a) s v true [.s d.toNat] ((snapped s v d.toNat (loWord (v.w.sreg a.toNat))).endRegion v) := by
  have run : exec (.snap d a) s = issueWord
      (fun v =>
        { reads := [.s a.toNat], writes := [.s d.toNat], long := true, ok := bitsOf (v.w.sreg a.toNat).toNat 16 48 == 0 })
      (fun v s => .done ((snapped s v d.toNat (loWord (v.w.sreg a.toNat))).endRegion v)) s := rfl
  exact wordDone_of_long run hp rfl rfl

/-! ## Errors found -/

/-- An error event that the scrubber finds has taken a shot, unless it is masked or joins one (R378). -/
def FoundShot (s t : State) : Prop :=
  (s.plant.shotMask.getLsbD 2 = true → t.shot = s.shot) ∧
    (s.plant.shotMask.getLsbD 2 = false → ∃ y, t.shot = some y ∧ (s.shot = none → y.source = .errorEvent))

theorem errorShot_found {s u : State} (hm : u.plant.shotMask = s.plant.shotMask) (hs : u.shot = s.shot) :
    FoundShot s (u.errorShot 2) := by
  unfold FoundShot
  rw [← hm, ← hs]
  exact ⟨fun h => by rw [State.errorShot_masked h], State.errorShot_unmasked⟩

/-- The report of an uncorrectable granule with its shot (R71, R378); `u` is a state with the same memory, contexts, shot and mask,
in which the granule is found. -/
theorem report_then_shot {s u : State} {g ctx va : Nat} (ho : s.ownerOf (g * 2 ^ Config.granuleLog) = some (ctx, va))
    (hmem : u.mem = s.mem) (hctx : u.ctxs = s.ctxs) (hshot : u.shot = s.shot) (hmask : u.plant.shotMask = s.plant.shotMask) :
    let t := (u.reportGranule g).errorShot 2
    Recorded s t ctx causeData 0 ∧ t.mem = s.mem ∧ t.bad = u.bad ∧ t.plant = u.plant ∧ FoundShot s t := by
  have hu : u.ownerOf (g * 2 ^ Config.granuleLog) = some (ctx, va) := (State.ownerOf_congr hmem hctx _).trans ho
  have e := State.reportGranule_owned hu
  refine ⟨(reportGranule_recorded hu).congr hctx.symm (State.errorShot_ctxs ..), ?_, ?_, ?_, errorShot_found ?_ ?_⟩
  all_goals simp [e, hmem, hshot, hmask]

/-- The scrubber at an uncorrectable granule of memory. -/
theorem scrub_memory_bad {s : State} {pa ctx va : Nat} (hb : s.uncorrectable pa 1 = true)
    (ho : s.ownerOf (granuleOf pa * 2 ^ Config.granuleLog) = some (ctx, va)) (hu : controllerOf pa ∉ s.plant.unused) :
    ∃ t, exec (.scrub (.memory pa)) s = .next t ∧ Recorded s t ctx causeData 0 ∧ t.mem = s.mem ∧ t.bad = s.bad ∧
      t.plant.scrubAt = pa ∧ FoundShot s t := by
  obtain ⟨hr, hm, hbad, hp, hshot⟩ := report_then_shot (u := s.countScrub pa 0 1) ho rfl rfl rfl rfl
  exact ⟨_, congrArg Host.Outcome.next (State.scrubMemory_bad hu (State.uncorrectable_contains hb)), hr, hm, hbad,
    by rw [hp]; rfl, hshot⟩

/-- The scrubber at an uncorrectable granule of an L2 slice. -/
theorem scrub_l2_bad {s : State} {pa ctx va : Nat} (hb : s.uncorrectable pa 1 = true)
    (ho : s.ownerOf (granuleOf pa * 2 ^ Config.granuleLog) = some (ctx, va)) :
    ∃ t, exec (.scrub (.l2 pa)) s = .next t ∧ Recorded s t ctx causeData 0 ∧ t.mem = s.mem ∧ t.bad = s.bad ∧
      FoundShot s t := by
  obtain ⟨hr, hm, hbad, -, hshot⟩ := report_then_shot (u := s) ho rfl rfl rfl rfl
  exact ⟨_, congrArg Host.Outcome.next (if_pos (State.uncorrectable_contains hb)), hr, hm, hbad, hshot⟩

/-- An eviction that meets an uncorrectable granule. -/
theorem l2Evict_bad {s : State} {pa ctx va : Nat} (hb : s.uncorrectable pa 1 = true)
    (ho : s.ownerOf (granuleOf pa * 2 ^ Config.granuleLog) = some (ctx, va)) :
    ∃ t, exec (.l2EvictUncorrectable pa) s = .next t ∧ Recorded s t ctx causeData 0 ∧ t.mem = s.mem ∧
      Tab.lookup (pa / 256) t.unflushed = none := by
  have hr := reportGranule_recorded ho
  have hm : (s.reportGranule (granuleOf pa)).mem = s.mem := by rw [State.reportGranule_owned ho, State.postFault_mem]
  refine ⟨_, congrArg Host.Outcome.next (if_pos (State.uncorrectable_contains hb)), ?_⟩
  dsimp only
  split
  · exact ⟨hr.congr rfl rfl, hm, State.flushLine_unflushed ..⟩
  · rename_i h
    exact ⟨hr, hm, by simpa using h⟩

/-- The scrubber at an uncorrectable granule of a crew's scratchpad. -/
theorem scrub_spad_bad {s : State} {k off : Nat} {c : Crew} (hc : Tab.lookup k s.crews = some c) (hb : granuleOf off ∈ c.spadBad) :
    ∃ t, exec (.scrub (.spad k off)) s = .next t ∧ Recorded s t c.ctx causeData 0 ∧ t.crews = s.crews ∧ t.mem = s.mem := by
  have run : exec (.scrub (.spad k off)) s = .next ((s.reportSpad c (granuleOf off)).errorShot 2) := by
    show Host.Outcome.next (match Tab.lookup k s.crews with | none => s | some c => _) = _
    rw [hc]
    exact congrArg Host.Outcome.next (if_pos (by simpa using hb))
  have hr : Recorded s (s.reportSpad c (granuleOf off)) c.ctx causeData 0 := postFault_recorded s c.ctx _ (Nat.two_pow_pos 24)
  exact ⟨_, run, hr.congr rfl (State.errorShot_ctxs ..), by simp [State.reportSpad], by simp [State.reportSpad]⟩

/-- The scrubber at a granule of a scratchpad without an uncorrectable error. -/
theorem scrub_spad_good {s : State} {k off : Nat} {c : Crew} (hc : Tab.lookup k s.crews = some c) (hb : granuleOf off ∉ c.spadBad) :
    exec (.scrub (.spad k off)) s = .next s := by
  show Host.Outcome.next (match Tab.lookup k s.crews with | none => s | some c => _) = _
  rw [hc]
  exact congrArg Host.Outcome.next (if_neg (by simpa using hb))

/-- The scrubber at a granule of memory with a soft error. -/
theorem scrub_memory_soft {s : State} {pa : Nat} (hu : controllerOf pa ∉ s.plant.unused) (hb : s.uncorrectable pa 1 = false)
    (hs : granuleOf pa ∈ s.plant.soft) :
    ∃ t, exec (.scrub (.memory pa)) s = .next t ∧ granuleOf pa ∉ t.plant.soft ∧ t.plant.corrected = s.plant.corrected + 1 ∧
      t.plant.scrubAt = pa ∧ t = { s with plant := t.plant } :=
  ⟨_, congrArg Host.Outcome.next (State.scrubMemory_soft hu (State.not_uncorrectable_one hb) hs), by simp, rfl, rfl, rfl⟩

/-- A line goes from its home share to DRAM, if DRAM does not hold it yet (R207). -/
theorem homeShareWriteback_spec (s : State) (line : Nat) :
    ∃ t, exec (.homeShareWriteback line) s = .next t ∧ Tab.lookup line t.unflushed = none ∧ t.mem = s.mem ∧
      (Tab.lookup line s.unflushed ≠ none → ∀ a, a / 256 = line → Tab.get 0 t.dram a = s.byte a) ∧
      ∀ a, a / 256 ≠ line → Tab.get 0 t.dram a = Tab.get 0 s.dram a := by
  cases h : Tab.lookup line s.unflushed with
  | none =>
    exact ⟨s, congrArg Host.Outcome.next (if_neg (by simp [h])), h, rfl, fun h => absurd rfl h, fun _ _ => rfl⟩
  | some l =>
    refine ⟨_, congrArg Host.Outcome.next (if_pos (by simp [h])), State.flushLine_unflushed .., rfl, fun _ a ha => ?_,
      fun a ha => ?_⟩
    · rw [State.flushLine_dram, if_pos ha]
    · rw [State.flushLine_dram, if_neg ha]

/-! ## Errors that arise -/

/-- A number put into a list that may hold it. -/
def addOnce {α : Type} [BEq α] (l : List α) (x : α) : List α := if l.contains x then l else l ++ [x]

theorem mem_addOnce {α : Type} [BEq α] [LawfulBEq α] (l : List α) (x : α) : x ∈ addOnce l x := by
  unfold addOnce
  split
  · exact List.contains_iff_mem.mp ‹_›
  · exact List.mem_append_right _ (List.mem_singleton.mpr rfl)

/-- A granule that gets an uncorrectable error is listed. -/
theorem addOnce_bad (s : State) (n : Nat) :
    (if s.bad.contains n then s else { s with bad := s.bad ++ [n] }) = { s with bad := addOnce s.bad n } := by
  unfold addOnce
  split <;> rfl

theorem memoryError_memory (s : State) (pa : Nat) :
    exec (.memoryError (.memory pa) false) s = .next { s with bad := addOnce s.bad (granuleOf pa) } :=
  congrArg Host.Outcome.next (addOnce_bad ..)

theorem memoryError_l2 (s : State) (pa : Nat) :
    exec (.memoryError (.l2 pa) false) s = .next { s with bad := addOnce s.bad (granuleOf pa) } :=
  congrArg Host.Outcome.next (addOnce_bad ..)

/-- A soft error of memory changes what the plant counts alone. -/
theorem memoryError_soft (s : State) (pa : Nat) :
    ∃ p, exec (.memoryError (.memory pa) true) s = .next { s with plant := p } := by
  show ∃ p, Host.Outcome.next (if s.bad.contains (granuleOf pa) then s else if s.plant.soft.contains (granuleOf pa) then s else _) = _
  split
  · exact ⟨s.plant, rfl⟩
  · split
    · exact ⟨s.plant, rfl⟩
    · exact ⟨_, rfl⟩

/-- A soft error elsewhere is corrected and counted. -/
theorem memoryError_corrected {s : State} {place : ErrorPlace} (h : ∀ pa, place ≠ .memory pa) :
    exec (.memoryError place true) s = .next (s.correct place) := by
  cases place with
  | memory pa => exact absurd rfl (h pa)
  | _ => rfl

/-- A register that gets an uncorrectable error, of the kind that its number names. -/
theorem memoryError_register {s : State} {k n : Nat} {w : Warp} (h : Tab.lookup k s.warps = some w) {p : Nat × Reg}
    (hp : p ∈ [(0, Reg.v n), (1, .p n), (2, .s n), (3, .b n)]) :
    exec (.memoryError (.register k p.1 n) false) s = .next (s.setWarp k { w with bad := addOnce w.bad p.2 }) := by
  have run : exec (.memoryError (.register k p.1 n) false) s =
      .next (s.mapWarp k fun w => if w.bad.contains p.2 then w else { w with bad := w.bad ++ [p.2] }) := by
    simp only [List.mem_cons, List.not_mem_nil, or_false] at hp
    rcases hp with rfl | rfl | rfl | rfl <;> rfl
  rw [run, State.mapWarp_some h]
  unfold addOnce
  split <;> rfl

/-- A granule of a scratchpad that gets an uncorrectable error. -/
theorem memoryError_spad {s : State} {k : Nat} {c : Crew} (h : Tab.lookup k s.crews = some c) (off : Nat) :
    exec (.memoryError (.spad k off) false) s =
      .next { s with crews := Tab.put k { c with spadBad := addOnce c.spadBad (granuleOf off) } s.crews } := by
  show Host.Outcome.next (s.mapCrew k _) = _
  unfold State.mapCrew addOnce
  rw [h]
  dsimp only
  split <;> rfl

/-- A sector of a first-level cache that gets an uncorrectable error. -/
theorem memoryError_l1 (s : State) (core n : Nat) :
    exec (.memoryError (.l1 core n) false) s = .next (s.mapCore core fun c =>
      { c with l1 := Tab.mapVals (fun m x => if m = n then { x with bad := true } else x) c.l1 }) := rfl

/-- A saved image that gets an uncorrectable error. -/
theorem memoryError_image (s : State) (i : Nat) :
    exec (.memoryError (.image i) false) s =
      .next { s with images := Tab.mapVals (fun k x => if k = i then { x with bad := true } else x) s.images } := rfl

/-- A context changed. -/
theorem mapCtx_of_lookup {s : State} {ctx : Nat} {c : Context} (h : Tab.lookup ctx s.ctxs = some c) (g : Context → Context) :
    s.mapCtx ctx g = { s with ctxs := Tab.put ctx (g c) s.ctxs } := by
  unfold State.mapCtx
  rw [h]

end Sys2Proof.Cert
end

section
/-! PROOF. Shots, replays and errors of memory. -/

namespace Sys2Proof.Cert

open Sys2Proof.Machine

/-- Settles O52: a shot by what a trigger latches, a replay by what its wakes keep, and an error by the granule that it leaves. -/
theorem shotsReplaysAndErrors : Obligations.ShotsReplaysAndErrors := by
  unfold Obligations.ShotsReplaysAndErrors
  refine ⟨?_, replayForm_of_exec fun _ _ => rfl, replayForm_of_exec fun _ _ => rfl, ?_, ?_, ?_, ?_, ?_, ?_, ?_, ?_, ?_, ?_, ?_, ?_,
    ?_, ?_, ?_, homeShareWriteback_spec⟩
  · intro d a s v hp
    have hs := mayShoot_iff (s := s) (ctx := v.crew.ctx)
    refine ⟨snapped s v d.toNat (loWord (v.w.sreg a.toNat)), snapAnswer s v.crew.ctx, snap_wordDone hp, snapped_ops ..,
      fun h => ?_, fun h h2 => ?_, fun h h2 => ?_⟩
    · have e : snapAnswer s v.crew.ctx = 1 := by simp [snapAnswer, mt hs.mp h]
      exact ⟨e, snapped_refused _ _ e⟩
    · have e : snapAnswer s v.crew.ctx = 2 := by simp [snapAnswer, hs.mpr h, Option.isSome_iff_ne_none.mpr h2]
      exact ⟨e, snapped_refused _ _ e⟩
    · have e : snapAnswer s v.crew.ctx = 0 := by simp [snapAnswer, hs.mpr h, h2]
      exact ⟨e, snapped_granted _ _ e⟩
  · intro s token target ctx
    cases token with
    | true => exact ⟨_, rfl, replayEntry_replayed ..⟩
    | false => exact ⟨_, congrArg Host.Outcome.next (replayPage_eq ..), replayEntry_replayed ..⟩
  · exact fun s x => ⟨_, rfl, takeShot_latched .., s.takeShot_frame ..⟩
  · exact fun s n => ⟨fun h => ⟨_, congrArg Host.Outcome.next (if_pos h), takeShot_latched ..⟩,
      fun h => congrArg Host.Outcome.next (if_neg (by omega))⟩
  · exact fun s => ⟨rfl, fun m => rfl⟩
  · exact fun s ctx b c h =>
      ⟨⟨_, congrArg Host.Outcome.next (mapCtx_of_lookup h _), Tab.lookup_put_self .., rfl⟩,
        ⟨_, congrArg Host.Outcome.next (mapCtx_of_lookup h _), Tab.lookup_put_self .., rfl⟩⟩
  · intro s pa
    have marked : (State.uncorrectable { s with bad := addOnce s.bad (granuleOf pa) } pa 1) = true :=
      (State.uncorrectable_one ..).mpr (mem_addOnce ..)
    obtain ⟨p, hp⟩ := memoryError_soft s pa
    exact ⟨⟨_, memoryError_memory s pa, marked, rfl⟩, ⟨_, hp, rfl⟩, ⟨_, memoryError_l2 s pa, marked, rfl⟩⟩
  · exact fun s place h => memoryError_corrected h
  · exact fun s k w n h p hp => ⟨_, _, memoryError_register h hp, State.lookup_setWarp .., mem_addOnce .., rfl, rfl⟩
  · exact fun s k c off h => ⟨_, _, memoryError_spad h off, Tab.lookup_put_self .., mem_addOnce .., rfl, rfl⟩
  · intro s core n x h
    refine ⟨_, memoryError_l1 s core n, ?_, rfl⟩
    rw [State.core_mapCore, if_pos rfl]
    exact List.mem_map.mpr ⟨(n, x), h, by simp⟩
  · intro s i x h
    refine ⟨_, memoryError_image s i, ?_, rfl⟩
    rw [Tab.lookup_mapVals, h]
    simp
  · exact fun s pa hu hb hs => scrub_memory_soft hu hb hs
  · exact fun s pa ctx va hb ho => ⟨scrub_memory_bad hb ho, scrub_l2_bad hb ho, l2Evict_bad hb ho⟩
  · exact fun s k c off h => ⟨scrub_spad_good h, fun hb _ => scrub_spad_bad h hb⟩
  · intro s pa h
    have hb : ¬ s.bad.contains (granuleOf pa) = true := by rw [State.not_uncorrectable_one h]; decide
    exact ⟨congrArg Host.Outcome.next (if_neg hb), congrArg Host.Outcome.next (if_neg hb)⟩

end Sys2Proof.Cert
end
